-- ==== Sys2Proof/Word.lean ====
section
/-! DEFINITION. The word types of the model: bytes, control-space registers and scratchpad words (00_scope.md R5, R6). -/

namespace Sys2Proof

/-- A byte of scratchpad, DRAM, an image, a packet or a frame. -/
abbrev Byte := BitVec 8

/-- A 16-bit half word. -/
abbrev W16 := BitVec 16

/-- A control-space register (00_scope.md, "Register access codes"). -/
abbrev W32 := BitVec 32

/-- A scratchpad word (R26), a command word or a page-table entry. -/
abbrev W64 := BitVec 64

end Sys2Proof
end

