-- ==== Sys2Proof/Syntax.lean ====
section
/-! DEFINITION. The commands of the module: one constructor per row of spec/opcode_table.json, with the operands that the
spec's text gives the happening. A happening's own rules choose everything else from the state. -/

namespace Sys2Proof

/-- How a long packet's header and body arrived (R55, R65). -/
inductive PacketHealth where
  | good | headerCorrected | headerUncorrectable | crcBad | wordCountBad
  deriving DecidableEq, Repr

/-- The calibration sequences of a receive port (R53): the D-PHY ones, and the C-PHY preamble. -/
inductive SkewKind where
  | initial | periodic | alternate | preamble
  deriving DecidableEq, Repr

/-- A calibration sequence on a receive port (R53). -/
structure SkewSequence where
  port : Fin 16
  kind : SkewKind
  deriving DecidableEq, Repr

/-- What a Frame Start of a bulk slot carries: its virtual channel and its frame number (R61). -/
structure BulkStart where
  vc : Fin 32
  number : W16
  deriving DecidableEq, Repr

/-- Who makes a register write that is one of the commands (R369, R370): a controller through an I3C session, the management
firmware, a peer module, the debug port, a general core outside any instance, or one attached to an instance. -/
inductive WriteBy where
  | i3c (session : Fin 4)
  | firmware
  | peer (module : BitVec 8)
  | debug
  | core (gc : Fin 256)
  | attachedCore (gc : Fin 256) (thread : Fin 16)
  deriving DecidableEq, Repr

/-- What the memory hands back for a DRAM access (R247): a new error lies in one of the 32-byte blocks that it reads, counted from the
first. -/
inductive EccResult where
  | clean
  | corrected (block : Fin 8)
  | uncorrectable (block : Fin 8)
  deriving DecidableEq, Repr

/-- An uncorrectable error. -/
def EccResult.isUe : EccResult → Bool
  | .uncorrectable _ => true
  | _ => false

/-- What runs in a reserved burst slot of a memory channel (R241). -/
inductive SlotWork where
  | refresh | rewrite | patrol | zq
  /-- A step of a retraining, the last or not. -/
  | retrain (last : Bool)
  | queue
  deriving DecidableEq, Repr

/-- Why a received flit is discarded (R344, R345): a bad CRC, a sequence number other than the expected one, or a type that no flit
has, with its sequence and acknowledged sequence number. -/
inductive BadFlit where
  | crc
  | sequence
  | flitType (seq ack : BitVec 12)
  deriving DecidableEq, Repr

/-- What wakes the module (R390): an I3C START on the bus, an edge of FSYNC_IN that lasts at least 4 DT, or a write request that
arrives once the hub is up. -/
inductive WakeSource where
  | i3cStart
  | fsyncEdge (falling : Bool)
  | writeRequest
  deriving DecidableEq, Repr

/-- What makes a power fail (R393). -/
inductive PowerCause where
  | pwrfailN | v48 | v3 | resetN
  deriving DecidableEq, Repr

/-- What the hub measures for a telemetry record (R402, R404): mean powers in mW, the least 48 V input in mV, the block cycle counts of
NAND, its bad and spare blocks, and how long the module has been powered. -/
structure TelReading where
  power : W32
  quads : W32 × W32 × W32 × W32
  v48 : W16
  wearMean : W16
  wearMax : W16
  bad : W16
  spare : W16
  seconds : W64
  deriving DecidableEq, Repr

/-- Who reads a register (R430). -/
inductive ReadBy where
  | i3c | firmware | debug
  | thread (g : Fin 256) (t : Fin 16)
  deriving DecidableEq, Repr

/-- Errors on the bus (R359): parity of an address header, of a CCC code, of private write data, a CRC in HDR, a CCC that is not well formed,
and a mismatch while the target drives. -/
inductive I3cError where
  | te0 | te1 | te2 | crc | te5 | te6
  deriving DecidableEq, Repr

/-- The commands: one constructor for each row of spec/opcode_table.json, in the table's order, but the commands without operands and seven
others stand last, since compiled code gives operands to the first 245 constructors only; the kernel has no such limit. -/
inductive Instr where
  /-- LOAD_START (R40): A write of CFG.LOAD_CTL.START begins an image load from NAND, a CSI-2 bulk slot or a peer window, and chooses the target plane. -/
  | loadStart (by_ : WriteBy) (v : W32)
  /-- LOAD_ABORT (R41): A write of LOAD_CTL.ABORT stops the load in progress with code 16 and leaves the target plane not LOADED. -/
  | loadAbort (by_ : WriteBy) (v : W32)
  /-- LOAD_DONE (R40): A write of CFG.LOAD_CTL.DONE ends a peer-window load. -/
  | loadDone (by_ : WriteBy) (v : W32)
  /-- SWITCH_COMMIT (R45): A write of CFG.SWITCH_CTL.COMMIT moves the selected graphs and folds to the target plane at its commit DT, or sets SWITCH_ERR. -/
  | switchCommit (by_ : WriteBy) (v : W32)
  /-- PORT_ENABLE (R54): A write of RXPn.PORT_CTL.EN from 0 to 1 takes PHY, LANES, RATE and LANE_MAP and enables the receive port. -/
  | portEnable (by_ : WriteBy) (port : Fin 16) (v : W32)
  /-- PORT_DISABLE (R54): A write of PORT_CTL.EN = 0 closes every open frame of the port as a bad frame. -/
  | portDisable (by_ : WriteBy) (port : Fin 16) (v : W32)
  /-- LOSS_OF_LOCK (R65): The receive PHY loses lock or calibration mid-frame, and packets are lost until relock. -/
  | lossOfLock (port : Fin 16)
  /-- PHY_LOCK (R65): The receive PHY regains lock and packets are accepted again. -/
  | phyLock (port : Fin 16)
  /-- SLOT_ENABLE (R56): A write of SLOTk.SLOT_CTL.EN = 1 takes VC, KIND and EXPOSURES, or leaves EN 0 and sets CONFLICT. -/
  | slotEnable (by_ : WriteBy) (stream : Fin 256) (v : W32)
  /-- SLOT_DISABLE (R67): A write of SLOT_CTL.EN = 0 voids an open frame's instance with reason 11, or with reason 4 for an owned exposure slot. -/
  | slotDisable (by_ : WriteBy) (stream : Fin 256) (v : W32)
  /-- FRAME_START (R62): A Frame Start packet is stamped, opens a frame on its slot, advances the frame index and sends the notice to the home Drover. -/
  | frameStart (port : Fin 16) (vc : Fin 32) (number : W16) (health : PacketHealth)
  /-- FRAME_END (R65): A Frame End packet is stamped into FE_DT and closes the frame, or is discarded without an open frame. -/
  | frameEnd (port : Fin 16) (vc : Fin 32) (health : PacketHealth)
  /-- LONG_PACKET (R65): A long packet of the ROUTE data type is taken as the frame's next line, good or bad. -/
  | longPacket (port : Fin 16) (vc : Fin 32) (typ : Fin 64) (data : List Byte) (health : PacketHealth)
  /-- EMBEDDED_DATA (R60): An embedded-data packet is captured up to 2 KiB, and exposure and gain are extracted. -/
  | embeddedData (port : Fin 16) (vc : Fin 32) (data : List Byte) (health : PacketHealth)
  /-- GENERIC_SHORT_PACKET (R55): A generic short packet is counted in SHORT_CNT and discarded. -/
  | genericShortPacket (port : Fin 16) (vc : Fin 32) (health : PacketHealth)
  /-- LINE_START_END (R55): A Line Start or Line End packet is accepted and ignored. -/
  | lineStartEnd (port : Fin 16) (vc : Fin 32) (health : PacketHealth)
  /-- NULL_BLANKING_PACKET (R55): A null or blanking packet is discarded silently. -/
  | nullBlankingPacket (port : Fin 16) (vc : Fin 32) (health : PacketHealth)
  /-- BULK_FRAME_START (R69): A Frame Start on a bulk slot begins a transfer, posting BULK_START or feeding the loader. -/
  | bulkFrameStart (port : Fin 16) (start : BulkStart) (health : PacketHealth)
  /-- BULK_PACKET (R70): A bulk payload packet streams to the loader or to the slot's DMA channel, delivered as received even if in error. -/
  | bulkPacket (port : Fin 16) (vc : Fin 32) (data : List Byte) (health : PacketHealth)
  /-- BULK_FRAME_END (R235): A Frame End on a bulk slot makes the channel commit its partial slot, write its status record and post BULK_END. -/
  | bulkFrameEnd (port : Fin 16) (vc : Fin 32) (health : PacketHealth)
  /-- SYNC_WINDOW_CLOSE (R63): A sync window closes at t + W and the hub sends a group notice with the presence mask to every member's home Drover. -/
  | syncWindowClose (group : Fin 64)
  /-- GROUP_NOTICE (R64): A group notice reaches a Drover, sets EV bit 24 or voids instances whose member is absent (reason 4) or void (reason 5). -/
  | groupNotice (q : Fin 4)
  /-- CCI_ENABLE (R71): A write of CCIn.CTL.EN enables the controller and in I3C mode assigns dynamic addresses by SETDASA. -/
  | cciEnable (by_ : WriteBy) (ctl : Fin 16) (v : W32)
  /-- CCI_PUSH (R73): A write of CCIn.CMD with PUSH enqueues a transfer, or discards it and sets OVERFLOW when 32 are queued. -/
  | cciPush (by_ : WriteBy) (ctl : Fin 16) (v : W32)
  /-- CCI_TRANSFER_START (R73): The controller starts the next queued transfer on its bus, with group hold where GROUP is set. -/
  | cciTransferStart (ctl : Fin 16)
  /-- CCI_TRANSFER_DONE (R75): A transfer's final acknowledge stamps it and assigns it to a frame, or a read result goes to RX_LO and RX_HI. -/
  | cciTransferDone (ctl : Fin 16) (rx : List Byte)
  /-- CCI_NACK (R76): A NACK on the sensor bus schedules a retry or, after the last retry, fails the transfer and its group. -/
  | cciNack (ctl : Fin 16)
  /-- CCI_RETRY (R76): A retry begins 10 bus clock periods after the STOP of the previous attempt. -/
  | cciRetry (ctl : Fin 16)
  /-- CCI_STUCK_BUS (R76): A bus line held low for 1 ms makes the controller clock SCL 9 times, send STOP and fail the transfer. -/
  | cciStuckBus (ctl : Fin 16)
  /-- FSYNC_GENERATOR_ENABLE (R77): A write enabling an FSYNC_OUT generator places its first edge after the commit DT. -/
  | fsyncGeneratorEnable (by_ : WriteBy) (gen : Fin 16) (v : W32)
  /-- FSYNC_OUT_EDGE (R77): A generator's active edge falls at START + k × PERIOD or at an accepted input edge plus OFFSET. -/
  | fsyncOutEdge (gen : Fin 16)
  /-- FSYNC_PULSE_END (R77): A frame sync output pulse ends after WIDTH DT. -/
  | fsyncPulseEnd (gen : Fin 16)
  /-- FSYNC_IN_EDGE (R78): An FSYNC_IN edge is filtered, stamped and counted, and schedules locked generators. -/
  | fsyncInEdge (falling : Bool) (pulse : Nat)
  /-- FSYNC_LOST (R78): A locked generator without an accepted edge for 1.5 × PERIOD continues alone, sets LOST and posts an event. -/
  | fsyncLost (gen : Fin 16)
  /-- ISP_LINE_START (R85): The pipe takes the next arrived line among its contexts in order of arrival and R27. -/
  | ispLineStart (pipe : Fin 16) (batch : Nat) (vx : Fin 5)
  /-- ISP_LINE_DONE (R85): A line passes the stage chain and output lines are written as tile rows into the output rings. -/
  | ispLineDone (pipe : Fin 16) (vx : Fin 5)
  /-- ISP_STALL_RESUME (R86): A stalled context resumes when its output ring has a free slot. -/
  | ispStallResume (pipe : Fin 16) (ctx : Fin 16)
  /-- ISP_COMMIT (R93): A write of CTXc.COMMIT copies the shadow set and makes it pending. -/
  | ispCommit (by_ : WriteBy) (pipe : Fin 16) (ctx : Fin 16) (v : W32)
  /-- VIS_START (R101): A start from a Drover or a write of START is accepted into a free descriptor context of a vision engine, or waits. -/
  | visStart (q : Fin 4) (k : Fin 8) (batch : Nat) (vx : Fin 5)
  /-- VIS_UNIT_START (R102): A vision datapath at a unit boundary chooses an eligible context and starts its next unit of work. -/
  | visUnitStart (q : Fin 4) (k : Fin 8) (dp : Fin 3) (vx : Fin 5)
  /-- PYM_TILE_ROW_DONE (R108): A pyramid context finishes reading an input tile row and writes the level tile rows it completes. -/
  | pymTileRowDone (q : Fin 4) (k : Fin 2) (vx : Fin 5)
  /-- WRP_TILE_ROW_DONE (R114): A warp context writes an output tile row and frees source slots below the next row's span. -/
  | wrpTileRowDone (q : Fin 4) (k : Fin 2) (vx : Fin 5)
  /-- VIS_CONTEXT_COMPLETE (R104): A pyramid or warp context writes its status word, signals its starter and frees. -/
  | visContextComplete (q : Fin 4) (k : Fin 4) (ctx : Fin 32) (vx : Fin 5)
  /-- VIS_STOP (R105): A void stop reaches a vision engine context, which finishes the tile in progress, writes status code 1 and frees. -/
  | visStop (q : Fin 4) (k : Fin 8) (home : Fin 4) (vx : Fin 5)
  /-- STE_COARSE_ROW_DONE (R127): The stereo coarse datapath finishes a quarter-resolution tile row. -/
  | steCoarseRowDone (q : Fin 4) (vx : Fin 5)
  /-- STE_FINE_ROW_DONE (R128): The stereo fine datapath writes a full-resolution disparity, confidence and level tile row. -/
  | steFineRowDone (q : Fin 4) (vx : Fin 5)
  /-- FLW_BLOCK_ROW_DONE (R131): The flow block datapath finishes a row of block vectors. -/
  | flwBlockRowDone (q : Fin 4) (vx : Fin 5)
  /-- FLW_PIXEL_ROW_DONE (R132): The flow pixel datapath writes a flow, confidence, level and change-mask tile row. -/
  | flwPixelRowDone (q : Fin 4) (vx : Fin 5)
  /-- FIRST_PASS_END (R135): A stereo or flow context writes its candidate list and first-pass status word. -/
  | firstPassEnd (q : Fin 4) (flow : Bool) (ctx : Fin 64) (vx : Fin 5)
  /-- VIS_TRUNCATE (R145): A Drover truncation or a write of TRUNC stops a first pass after the row in progress. -/
  | visTruncate (q : Fin 4) (k : Fin 8) (write : Option (WriteBy × W32)) (vx : Fin 5)
  /-- TRUNCATED_ROW_WRITE (R145): Remaining tile rows are written with ABORTED elements, level 3 and CHANGED = 1. -/
  | truncatedRowWrite (q : Fin 4) (flow : Bool) (ctx : Fin 64) (vx : Fin 5)
  /-- GRANT_ARRIVAL (R138): A grant with stop time T_stop reaches a refining context, replacing or withdrawing the previous one. -/
  | grantArrival (q : Fin 4) (k : Fin 8)
  /-- REFINE_TILE_START (R138): The refine datapath starts the tile at the head of REFIN when it fits before T_stop and a REFOUT slot is free. -/
  | refineTileStart (q : Fin 4) (flow : Bool) (vx : Fin 5)
  /-- REFINE_TILE_WRITE (R140): The refined tile's output patch is written and the tile takes effect as a whole. -/
  | refineTileWrite (q : Fin 4) (flow : Bool) (vx : Fin 5)
  /-- REFINE_END (R141): Refinement of a context ends, writes its refinement status word, signals the Drover and frees. -/
  | refineEnd (q : Fin 4) (k : Fin 4) (ctx : Fin 64) (vx : Fin 5)
  /-- REFINE_NO_GRANT_FREE (R141): A context that received no grant frees at the outcome record with status code 5. -/
  | refineNoGrantFree (q : Fin 4) (k : Fin 4) (ctx : Fin 64) (vx : Fin 5)
  /-- FEA_DETECT_ROW_DONE (R154): Detection of a level tile row ends, and survivors are capped, described and inserted into the cell store. -/
  | feaDetectRowDone (q : Fin 4) (k : Fin 2) (vx : Fin 5)
  /-- FEA_LIST_WRITE (R158): When every enabled level is done the feature list with header is written. -/
  | feaListWrite (q : Fin 4) (k : Fin 2) (vx : Fin 5)
  /-- FEA_INDEX_BUILD (R166): The previous-list index is built before matching. -/
  | feaIndexBuild (q : Fin 4) (k : Fin 2) (vx : Fin 5)
  /-- FEA_MATCH_FEATURE (R163): A feature is matched against previous entries in its window, claiming one or staying unmatched. -/
  | feaMatchFeature (q : Fin 4) (k : Fin 2) (vx : Fin 5)
  /-- FEA_TRACK_ASSIGN (R164): At the end of the match pass unmatched features take new track IDs from the counter. -/
  | feaTrackAssign (q : Fin 4) (k : Fin 2) (ctx : Fin 32) (vx : Fin 5)
  /-- FEA_RETRY_FEATURE (R165): The retry datapath re-matches a NEW_TRACK feature in a widened window under the grant. -/
  | feaRetryFeature (q : Fin 4) (k : Fin 2) (vx : Fin 5)
  /-- FS_NOTICE (R178): A Frame Start notice reaches the home Drover and its admission test begins. -/
  | fsNotice (q : Fin 4) (batch : Nat) (vx : Fin 5)
  /-- ADMISSION_DECISION (R177): The admission test completes and admits the instance into a context or seals REFUSED. -/
  | admissionDecision (q : Fin 4) (vx : Fin 5)
  /-- RESERVATION_RELEASE (R176): A reservation is released when the stream has no live instance and its last admitted Frame Start is 2 × P_min old. -/
  | reservationRelease (q : Fin 4) (stream : Fin 256)
  /-- DRV_NOP (R182): NOP does nothing. -/
  | drvNop (q : Fin 4) (vx : Fin 5)
  /-- DRV_JOIN (R182): JOIN parks the context until every mask bit is set in EV. -/
  | drvJoin (q : Fin 4) (vx : Fin 5)
  /-- DRV_WAITANY (R182): WAITANY parks until a mask bit is set and writes the lowest such bit's index to Vn. -/
  | drvWaitany (q : Fin 4) (vx : Fin 5)
  /-- DRV_WAITDT (R182): WAITDT parks until DT reaches FS time plus the offset. -/
  | drvWaitdt (q : Fin 4) (vx : Fin 5)
  /-- DRV_WAITDT_EXPIRY (R182): The DT of a WAITDT is reached and the context becomes issuable. -/
  | drvWaitdtExpiry (q : Fin 4) (ctx : Fin 64)
  /-- DRV_START (R183): START starts an engine, fold or matrix engine with the instance deadline and a tag. -/
  | drvStart (q : Fin 4) (vx : Fin 5)
  /-- DRV_STARTDMA (R228): STARTDMA loads a channel's staging set from a register image and starts it with the instance deadline. -/
  | drvStartdma (q : Fin 4) (vx : Fin 5)
  /-- DRV_POST (R182): POST posts an event template to a quadrant's Shepherd with the instance deadline and a tag. -/
  | drvPost (q : Fin 4) (vx : Fin 5)
  /-- DRV_BR (R182): BR jumps to an absolute instruction index. -/
  | drvBr (q : Fin 4) (vx : Fin 5)
  /-- DRV_BROUT (R182): BROUT jumps if the tag's status code is non-zero. -/
  | drvBrout (q : Fin 4) (vx : Fin 5)
  /-- DRV_LDS (R182): LDS loads a field of a scratchpad word into Vn, voiding with reason 3 on a poisoned read. -/
  | drvLds (q : Fin 4) (vx : Fin 5)
  /-- DRV_MOVI (R182): MOVI sets Vn to an immediate value. -/
  | drvMovi (q : Fin 4) (vx : Fin 5)
  /-- DRV_ADDI (R182): ADDI adds an immediate to Vn modulo 2^32. -/
  | drvAddi (q : Fin 4) (vx : Fin 5)
  /-- DRV_BRCMP (R182): BRCMP jumps if Vn compares with the value under the condition. -/
  | drvBrcmp (q : Fin 4) (vx : Fin 5)
  /-- DRV_SLACK (R185): SLACK computes the stop time and sets T_stop, or clears it, sets NO_GRANT and branches. -/
  | drvSlack (q : Fin 4) (vx : Fin 5)
  /-- DRV_GRANT (R185): GRANT sends the current T_stop, or 0 with WITHDRAW, to the tagged context. -/
  | drvGrant (q : Fin 4) (vx : Fin 5)
  /-- DRV_TRUNC (R182): TRUNC truncates the tagged stereo, flow or feature context. -/
  | drvTrunc (q : Fin 4) (vx : Fin 5)
  /-- DRV_WREG (R184): WREG writes Vn to an allowed image-pipe or CCI register, or is discarded and counted. -/
  | drvWreg (q : Fin 4) (vx : Fin 5)
  /-- DRV_COMMIT (R182): COMMIT acts as a write of an image-pipe context's COMMIT. -/
  | drvCommit (q : Fin 4) (vx : Fin 5)
  /-- DRV_SIGNAL (R182): SIGNAL marks flow complete for the next frame's TNR, stamped at issue. -/
  | drvSignal (q : Fin 4) (vx : Fin 5)
  /-- DRV_EMIT (R187): EMIT parks the context to drain the instance before sealing RESULT. -/
  | drvEmit (q : Fin 4) (vx : Fin 5)
  /-- DRV_EMIT_DRAIN_END (R187): When every DMA write, ring commit and egress payload of the instance is done, the Drover seals the RESULT record. -/
  | drvEmitDrainEnd (q : Fin 4) (ctx : Fin 64)
  /-- DRV_VOID (R195): VOID ends the instance with VOID and the reason in C. -/
  | drvVoid (q : Fin 4) (vx : Fin 5)
  /-- DRV_LINK (R186): LINK holds a chain action until its mask bits are set; in sequencer mode it acts as NOP. -/
  | drvLink (q : Fin 4) (vx : Fin 5)
  /-- TAG_REPORT (R181): A unit's completion or stop reaches the Drover, sets its EV tag bit and status code, and may void the instance. -/
  | tagReport (q : Fin 4)
  /-- DEADLINE_VOID (R187): At deadline − 2 an unsealed instance is sealed VOID with reason 1. -/
  | deadlineVoid (q : Fin 4) (ctx : Fin 64)
  /-- DRV_ABORT (R198): A write of DRV.ABORT voids the named live context's instance with reason 11. -/
  | drvAbort (by_ : WriteBy) (q : Fin 4) (v : W32)
  /-- SCRUB_CYCLE (R202): A bank's scrub cycle reads its next row, corrects it and writes it back, or records an uncorrectable row. -/
  | scrubCycle (q : Fin 4) (bank : Fin 1024) (mx : Fin 10)
  /-- SPD_INIT_DONE (R203): The scratchpad initialisation pass ends and INIT_DONE becomes 1. -/
  | spdInitDone (q : Fin 4)
  /-- OPEN_POOL_GRANT (R206): An open-pool scratchpad access is granted under R27 and delivers its data 6 MX cycles later. -/
  | openPoolGrant (q : Fin 4) (mx : Fin 10)
  /-- SPD_INJECT (R227): A write of SPD.INJECT schedules a bit flip of a scratchpad word. -/
  | spdInject (by_ : WriteBy) (q : Fin 4) (v : W32)
  /-- SPD_INJECT_APPLY (R227): The injected bit flip is applied at the word's next open-pool cycle. -/
  | spdInjectApply (q : Fin 4) (mx : Fin 10)
  /-- REGION_RESET (R227): A write of REGr.CTL.RESET sets H = T = 0, clears audit tags and resets flock tails. -/
  | regionReset (by_ : WriteBy) (q : Fin 4) (r : Fin 256) (v : W32)
  /-- FOLD_START (R217): A Drover start or a write of FOLDf.START is accepted by a fold, copying its descriptors, or waits among pending starts. -/
  | foldStart (q : Fin 4) (f : Fin 16) (mx : Fin 10)
  /-- FOLD_RUN_BEGIN (R217): A run begins at the first MX cycle with wheel count a multiple of 16 at which every member is between units. -/
  | foldRunBegin (q : Fin 4) (f : Fin 16) (mx : Fin 10)
  /-- FOLD_UNIT (R214): A UNIT step starts a member's next unit of work. -/
  | foldUnit (q : Fin 4) (f : Fin 16) (mx : Fin 10)
  /-- FOLD_CHECK_IN (R220): A CHECK_IN ring test is ready, or holds the fold. -/
  | foldCheckIn (q : Fin 4) (f : Fin 16) (mx : Fin 10)
  /-- FOLD_CHECK_OUT (R220): A CHECK_OUT ring test is ready, or holds the fold. -/
  | foldCheckOut (q : Fin 4) (f : Fin 16) (mx : Fin 10)
  /-- FOLD_COMMIT (R214): A COMMIT step advances the fold's producer count. -/
  | foldCommit (q : Fin 4) (f : Fin 16) (mx : Fin 10)
  /-- FOLD_COMMIT_VISIBLE (R211): A fold's commit becomes visible in H 6 MX cycles after its step. -/
  | foldCommitVisible (q : Fin 4) (f : Fin 16) (mx : Fin 10)
  /-- FOLD_RELEASE (R214): A RELEASE step advances the consumer count and T at once. -/
  | foldRelease (q : Fin 4) (f : Fin 16) (mx : Fin 10)
  /-- FOLD_HOLD_RESUME (R220): A held fold whose check has become true resumes at the next aligned hold step. -/
  | foldHoldResume (q : Fin 4) (f : Fin 16) (mx : Fin 10)
  /-- FOLD_CONFLICT (R221): A fold access that cannot be served holds the fold for one hold step and is retried. -/
  | foldConflict (q : Fin 4) (f : Fin 16) (mx : Fin 10)
  /-- FOLD_GATE_OPEN (R218): A gated body iteration begins once CHECK_IN on the gate region would be ready. -/
  | foldGateOpen (q : Fin 4) (f : Fin 16) (mx : Fin 10)
  /-- FOLD_STOP (R225): A write of FOLDf.CTL.STOP stops a run started by a write. -/
  | foldStop (by_ : WriteBy) (q : Fin 4) (f : Fin 16) (mx : Fin 10) (v : W32)
  /-- FOLD_VOID_STOP (R225): A void stop or a member's uncorrectable read stops the run early and drops the instance's pending starts. -/
  | foldVoidStop (q : Fin 4) (f : Fin 16) (mx : Fin 10)
  /-- FOLD_RUN_END (R226): The run ends, the fold writes its status word and signals its starter, and the next pending start is chosen. -/
  | foldRunEnd (q : Fin 4) (f : Fin 16) (mx : Fin 10)
  /-- DMA_START (R228): A write of CHk.CTL.START copies the staging set into ACTIVE or NEXT, or refuses with code 8. -/
  | dmaStart (by_ : Option WriteBy) (ch : Fin 256) (v : W32)
  /-- DMA_ABORT (R238): A write of CTL.ABORT stops the ACTIVE set with code 1. -/
  | dmaAbort (by_ : WriteBy) (ch : Fin 256) (v : W32)
  /-- DMA_ABORT_NEXT (R238): A write of CTL.ABORT_NEXT drops the NEXT set, which writes a record with code 1. -/
  | dmaAbortNext (by_ : WriteBy) (ch : Fin 256) (v : W32)
  /-- DMA_VOID_STOP (R238): A void stop ends every DMA set that the instance started. -/
  | dmaVoidStop (ch : Fin 256)
  /-- DMA_BURST_ISSUE (R240): The quadrant's issuer chooses up to 4 ready bursts by need time under R27. -/
  | dmaBurstIssue (q : Fin 4) (vx : Fin 5)
  /-- DMA_READ_RETURN (R233): A burst's source data arrives in the channel buffer, or a fault or uncorrectable error is found. -/
  | dmaReadReturn (ch : Fin 256) (vx : Fin 5)
  /-- DMA_BURST_ACCEPT (R233): A burst's destination write is accepted, committing or releasing ring slots as lines complete. -/
  | dmaBurstAccept (ch : Fin 256) (vx : Fin 5)
  /-- DMA_NEXT_ACTIVATE (R236): NEXT becomes ACTIVE in the VX cycle after ACTIVE's status record is written. -/
  | dmaNextActivate (ch : Fin 256)
  /-- TRANSLATION_WALK_DONE (R244): A page-table walk returns and installs the line's valid entries, or reports a fault. -/
  | translationWalkDone (q : Fin 4) (vx : Fin 5)
  /-- PTE_WRITE (R245): A write of Q0.XLT.PTE_CTL.WRITE stores a page-table entry and removes it from every cache. -/
  | pteWrite (by_ : WriteBy) (v : W32)
  /-- PTE_READ (R251): A write of PTE_CTL.READ loads the entry into PTE_LO and PTE_HI. -/
  | pteRead (by_ : WriteBy) (v : W32)
  /-- XLT_INVALIDATE (R251): A write of INV_CTL.GO drops a range of entries from this quadrant's caches. -/
  | xltInvalidate (by_ : WriteBy) (q : Fin 4) (v : W32)
  /-- DRAM_REQUEST_SERVE (R241): The DRAM deadline arbiter serves a queued request whose bank is ready. -/
  | dramRequestServe (chan : Fin 64) (ready : BitVec 32) (ecc : EccResult) (vx : Fin 5)
  /-- DRAM_RESERVED_SLOT (R241): A reserved burst slot runs refresh, patrol, ZQ or a retraining step, or serves the queue. -/
  | dramReservedSlot (chan : Fin 64) (work : SlotWork) (ready : BitVec 32) (ecc : EccResult) (vx : Fin 5)
  /-- PATROL_READ (R399): DRAM patrol reads the next granule of a channel, rewriting corrected granules. -/
  | patrolRead (chan : Fin 64) (ecc : EccResult)
  /-- ZQ_CALIBRATION (R399): ZQ calibration runs on a channel every 4,000,000 DT. -/
  | zqCalibration (chan : Fin 64)
  /-- DQS_OSCILLATOR_READ (R399): The DQS oscillator is read every 125,000 DT and retraining starts on excess drift. -/
  | dqsOscillatorRead (chan : Fin 64) (drift : Bool)
  /-- IMBALANCE (R249): The imbalance condition held for 1 ms posts an IMBALANCE event and advances IMB_MS. -/
  | imbalance (q : Fin 4)
  /-- ME_LAUNCH_START (R269): A Drover start or a write of START is accepted into a context's launch queue, or waits. -/
  | meLaunchStart (me : Fin 32) (mx : Fin 10)
  /-- ME_LAUNCH_BEGIN (R269): A context begins its next queued launch, applying RESEED. -/
  | meLaunchBegin (me : Fin 32) (ctx : Fin 2) (mx : Fin 10)
  /-- ME_COMMAND_FETCH_RETURN (R280): Fetched command words return, or a translation fault or uncorrectable error ends the launch. -/
  | meCommandFetchReturn (me : Fin 32) (ctx : Fin 2) (mx : Fin 10)
  /-- ME_NOP (R276): NOP does nothing. -/
  | meNop (me : Fin 32) (ctx : Fin 2) (mx : Fin 10)
  /-- ME_CFG (R276): CFG sets the activation, weight and output formats, SR and EPS. -/
  | meCfg (me : Fin 32) (ctx : Fin 2) (mx : Fin 10)
  /-- ME_LDW (R272): LDW loads a weight tile into a buffer through the load port. -/
  | meLdw (me : Fin 32) (ctx : Fin 2) (mx : Fin 10)
  /-- ME_MM (R260): MM feeds M activation rows through a weight tile into the accumulators, optionally through the post unit. -/
  | meMm (me : Fin 32) (ctx : Fin 2) (mx : Fin 10)
  /-- ME_POST (R261): POST sets the post unit's vectors, activation, reduction and flags. -/
  | mePost (me : Fin 32) (ctx : Fin 2) (mx : Fin 10)
  /-- ME_ELTW (R261): ELTW passes rows of elements through the post unit. -/
  | meEltw (me : Fin 32) (ctx : Fin 2) (mx : Fin 10)
  /-- ME_LDLUT (R262): LDLUT loads a 1,040-byte activation table into a table slot. -/
  | meLdlut (me : Fin 32) (ctx : Fin 2) (mx : Fin 10)
  /-- ME_SEED (R266): SEED sets every lane of the random source. -/
  | meSeed (me : Fin 32) (ctx : Fin 2) (mx : Fin 10)
  /-- ME_MASK (R276): MASK sets the bitmap address and group size for masked rows. -/
  | meMask (me : Fin 32) (ctx : Fin 2) (mx : Fin 10)
  /-- ME_SETBASE (R270): SETBASE replaces base j. -/
  | meSetbase (me : Fin 32) (ctx : Fin 2) (mx : Fin 10)
  /-- ME_RWAIT (R276): RWAIT waits until a ring's fill exceeds k. -/
  | meRwait (me : Fin 32) (ctx : Fin 2) (mx : Fin 10)
  /-- ME_RSPACE (R276): RSPACE waits until fill + k is below n. -/
  | meRspace (me : Fin 32) (ctx : Fin 2) (mx : Fin 10)
  /-- ME_RREL (R276): RREL releases k slots of a region. -/
  | meRrel (me : Fin 32) (ctx : Fin 2) (mx : Fin 10)
  /-- ME_RCOMMIT (R276): RCOMMIT commits one slot once earlier outputs are visible. -/
  | meRcommit (me : Fin 32) (ctx : Fin 2) (mx : Fin 10)
  /-- ME_END (R276): END ends the launch once earlier outputs are visible and loads complete. -/
  | meEnd (me : Fin 32) (ctx : Fin 2) (mx : Fin 10)
  /-- ME_LOAD_COMPLETE (R272): An LDW or LDLUT finishes and its buffer or table becomes usable. -/
  | meLoadComplete (me : Fin 32) (ctx : Fin 2) (mx : Fin 10)
  /-- ME_OUTPUT_ROW_VISIBLE (R272): An output row of an MM or ELTW becomes visible in scratchpad, with any reduction emitted. -/
  | meOutputRowVisible (me : Fin 32) (ctx : Fin 2) (mx : Fin 10)
  /-- ME_LAUNCH_END (R278): A launch ends, writes its status word and signals its starter. -/
  | meLaunchEnd (me : Fin 32) (ctx : Fin 2) (mx : Fin 10)
  /-- ME_STOP (R279): A void or a write of STOP stops a context's issue; entered rows complete and status code 1 is written. -/
  | meStop (me : Fin 32) (write : Option (WriteBy × W32)) (mx : Fin 10)
  /-- GC_INSTRUCTION (R300): A core issues one RV64 instruction of a ready thread under R27. -/
  | gcInstruction (gc : Fin 256) (mx : Fin 10)
  /-- GC_DRAM_LOAD_RETURN (R304): A DRAM load returns and unparks its thread, or raises a fault on poison. -/
  | gcDramLoadReturn (gc : Fin 256) (thread : Fin 16) (vx : Fin 5)
  /-- GC_ICACHE_REFILL (R304): An instruction cache line refill returns and unparks the thread. -/
  | gcIcacheRefill (gc : Fin 256) (thread : Fin 16) (vx : Fin 5)
  /-- GC_RSPACE (R308): RSPACE parks until fill + k < n and returns the aperture address of slot (H + k) mod n. -/
  | gcRspace (gc : Fin 256) (mx : Fin 10)
  /-- GC_RFILL (R308): RFILL parks until fill > k and returns the aperture address of slot (T + k) mod n. -/
  | gcRfill (gc : Fin 256) (mx : Fin 10)
  /-- GC_RCOMMIT (R309): RCOMMIT waits for earlier scratchpad stores and commits one slot. -/
  | gcRcommit (gc : Fin 256) (mx : Fin 10)
  /-- GC_RREL (R309): RREL releases k slots, as a software receiver on a flock ring. -/
  | gcRrel (gc : Fin 256) (mx : Fin 10)
  /-- GC_SRMV (R309): SRMV copies a 64-byte scratchpad row. -/
  | gcSrmv (gc : Fin 256) (mx : Fin 10)
  /-- GC_TBR (R310): TBR returns DT. -/
  | gcTbr (gc : Fin 256) (mx : Fin 10)
  /-- GC_TBRDL (R310): TBRDL returns the widened deadline of the served event. -/
  | gcTbrdl (gc : Fin 256) (mx : Fin 10)
  /-- GC_SPOST (R310): SPOST posts a 16-byte event to a quadrant's Shepherd or paddock and returns whether it was accepted. -/
  | gcSpost (gc : Fin 256) (mx : Fin 10)
  /-- GC_YIELD (R310): YIELD releases any key, ends attachment and returns the thread to idle. -/
  | gcYield (gc : Fin 256) (mx : Fin 10)
  /-- GC_WAITEV (R310): WAITEV parks until the mailbox holds an event or a DT limit. -/
  | gcWaitev (gc : Fin 256) (mx : Fin 10)
  /-- GC_KREL (R310): KREL releases the served ATOMIC event's key early. -/
  | gcKrel (gc : Fin 256) (mx : Fin 10)
  /-- GC_CNTR (R310): CNTR reads a PMU counter, subject to the U-mode grant. -/
  | gcCntr (gc : Fin 256) (mx : Fin 10)
  /-- GC_PARK_WAKE (R309): A thread parked in a ring instruction becomes ready in the cycle after its test is true. -/
  | gcParkWake (gc : Fin 256) (thread : Fin 16) (mx : Fin 10)
  /-- GC_WAITEV_TIMEOUT (R310): WAITEV returns 0 when DT reaches its limit. -/
  | gcWaitevTimeout (gc : Fin 256) (thread : Fin 16) (mx : Fin 10)
  /-- GC_IINV (R312): A write of core CTL.IINV invalidates the core's instruction cache. -/
  | gcIinv (by_ : WriteBy) (gc : Fin 256) (v : W32)
  /-- GC_SAVE_DONE (R311): A preempted thread's state is saved into a save-pool slot after 64 MX cycles. -/
  | gcSaveDone (gc : Fin 256) (thread : Fin 16) (mx : Fin 10)
  /-- GC_RESTORE_DONE (R311): A saved thread is restored on an idle thread after 64 MX cycles and the slot freed. -/
  | gcRestoreDone (gc : Fin 256) (thread : Fin 16) (mx : Fin 10)
  /-- SHP_POST_ACCEPT (R315): A post reaches a Shepherd and arrives in the ready list or spill ring, or is dropped. -/
  | shpPostAccept (q : Fin 4) (batch : Nat) (vx : Fin 5)
  /-- SHP_DISPATCH (R317): The Shepherd picks one eligible event or resume entry and sends it to a thread, a mailbox or a preemption. -/
  | shpDispatch (q : Fin 4) (vx : Fin 5)
  /-- SHP_SPILL_WRITE (R318): A group of spilled events is written to the spill ring as one burst. -/
  | shpSpillWrite (q : Fin 4) (ring : Fin 5) (vx : Fin 5)
  /-- SHP_REFILL (R318): The oldest 8 spilled events are read back on chip. -/
  | shpRefill (q : Fin 4) (vx : Fin 5)
  /-- PADDOCK_RELEASE (R325): Paddock entries due at a tick arrive in the ready list with PADDOCK set. -/
  | paddockRelease (q : Fin 4) (p : Fin 4) (vx : Fin 5)
  /-- PADDOCK_REFILL (R325): Spilled paddock entries return and are sorted in. -/
  | paddockRefill (q : Fin 4) (p : Fin 4) (vx : Fin 5)
  /-- HOST_GO (R327): A write of HOST_GO posts HOST_EV0–3 as an unattached event. -/
  | hostGo (by_ : WriteBy) (q : Fin 4) (v : W32)
  /-- SHP_VOID_NOTICE (R324): A void seal marks the instance's events STALE in a Shepherd and INSTANCE_VOID is posted. -/
  | shpVoidNotice (q : Fin 4)
  /-- TX_PORT_ENABLE (R330): A write of TXPn.CTL.EN enables a transmit port, sending the initial skew calibration above 1,500 Mb/s. -/
  | txPortEnable (by_ : WriteBy) (port : Fin 8) (v : W32)
  /-- TX_PACKET_SEND (R335): At a packet boundary the transmit scheduler chooses a result stream's packet and sends it whole. -/
  | txPacketSend (port : Fin 8) (cycles : Nat)
  /-- TX_FRAME_CLOSE (R337): A void or shed closes an instance's frame: queued packets are discarded and the VOID record and Frame End sent. -/
  | txFrameClose (port : Fin 8) (cycles : Nat)
  /-- TX_PERIODIC_CALIBRATION (R330): A transmit port sends the periodic calibration every 1,048,576 DT between frames. -/
  | txPeriodicCalibration (port : Fin 8)
  /-- PEER_FLIT_SLOT (R344): A peer link sends one flit in a flit slot, carrying an acknowledgement. -/
  | peerFlitSlot (link : Fin 6)
  /-- PEER_IDLE (R344): An IDLE flit is received and its acknowledgement taken. -/
  | peerIdle (link : Fin 6) (seq ack : BitVec 12)
  /-- PEER_HEAD (R346): A HEAD flit is received, opening a segment that lands or is forwarded. -/
  | peerHead (link : Fin 6) (seq ack : BitVec 12) (body : List Byte)
  /-- PEER_DATA (R346): A DATA flit of a segment is received. -/
  | peerData (link : Fin 6) (seq ack : BitVec 12) (body : List Byte)
  /-- PEER_NAK (R345): A NAK flit makes the sender resend from the named sequence number. -/
  | peerNak (link : Fin 6) (seq ack expected : BitVec 12)
  /-- PEER_CREDIT (R348): A CREDIT flit returns free far-ring slots. -/
  | peerCredit (link : Fin 6) (seq ack : BitVec 12) (window slots : Byte)
  /-- PEER_RECORD (R349): A RECORD flit lands in a window's record slot and may post PEER_MSG. -/
  | peerRecord (link : Fin 6) (seq ack : BitVec 12) (window dest : Byte) (rec_ : List Byte)
  /-- PEER_ABORT (R296): A job-abort flit voids the live instance of that step with reason 6 and is remembered. -/
  | peerAbort (link : Fin 6) (seq ack : BitVec 12) (job : W16) (step : W32) (module : Byte)
  /-- PEER_LOAD_DONE (R351): A LOAD_DONE flit acts as a write of CFG.LOAD_CTL.DONE. -/
  | peerLoadDone (link : Fin 6) (seq ack : BitVec 12) (window : Byte)
  /-- PEER_HELLO (R346): A HELLO flit brings the link up if the installation ID matches, or leaves it down with FOREIGN. -/
  | peerHello (link : Fin 6) (seq ack : BitVec 12) (install : W64) (module : Byte)
  /-- PEER_REJECT (R348): A REJECT flit records the window and ends the sending channel with code 5. -/
  | peerReject (link : Fin 6) (seq ack : BitVec 12) (window : Byte) (offset : W32)
  /-- PEER_BAD_FLIT (R345): A flit of another type, sequence or a bad CRC is discarded, with at most one NAK per 64 DT. -/
  | peerBadFlit (link : Fin 6) (flit : BadFlit)
  /-- PEER_LINK_DOWN (R352): A link without acknowledgement progress for DOWN_DT goes down, ending DMA with code 6 and voiding instances with reason 12. -/
  | peerLinkDown (link : Fin 6)
  /-- PEER_RETRAIN (R354): A write of PLn.CTL.RETRAIN takes the link down and retrains. -/
  | peerRetrain (by_ : WriteBy) (link : Fin 6) (v : W32)
  /-- PEER_TRAINING_DONE (R346): Link training completes and HELLO is sent. -/
  | peerTrainingDone (link : Fin 6)
  /-- I3C_READ (R362): A READ frame reads n bytes of registers in ascending order. -/
  | i3cRead (bytes : List Byte)
  /-- I3C_WRITE (R362): A WRITE frame checks privileges and logs register writes that each take effect at its commit. -/
  | i3cWrite (bytes : List Byte)
  /-- I3C_OPEN (R363): An OPEN frame opens a session under a warrant, derives K_s and returns the target nonce. -/
  | i3cOpen (bytes : List Byte)
  /-- I3C_CLOSE (R363): A CLOSE frame closes the session after its kind 0x0006 record commits. -/
  | i3cClose (bytes : List Byte)
  /-- I3C_MALFORMED_FRAME (R360): A private write that is not a whole frame or has an unlisted code gives status 0x07. -/
  | i3cMalformedFrame (bytes : List Byte)
  /-- ENTDAA (R356): ENTDAA assigns the target a dynamic address. -/
  | entdaa (addr : BitVec 7)
  /-- SETNEWDA (R356): SETNEWDA changes the dynamic address. -/
  | setnewda (addr : BitVec 7)
  /-- ENEC (R358): ENEC enables interrupt-request or hot-join events. -/
  | enec (events : Byte)
  /-- DISEC (R358): DISEC disables interrupt-request or hot-join events. -/
  | disec (events : Byte)
  /-- DEFTGTS (R357): DEFTGTS sets the active controller from its first entry. -/
  | deftgts (first : BitVec 7)
  /-- GETACCCR (R357): An acknowledged GETACCCR hands the active controller role to the addressed target at STOP. -/
  | getacccr (target : BitVec 7) (acknowledged : Bool)
  /-- RSTACT (R358): RSTACT selects the reset action for the next target reset pattern. -/
  | rstact (direct : Bool) (action : Byte)
  /-- SETMWL (R356): SETMWL stores the maximum write length. -/
  | setmwl (direct : Bool) (len : W16)
  /-- SETMRL (R356): SETMRL stores the maximum read length. -/
  | setmrl (direct : Bool) (len : W16)
  /-- UNSUPPORTED_CCC (R356): Any other direct CCC is NACKed and any other broadcast CCC ignored. -/
  | unsupportedCcc (direct : Bool) (code : Byte)
  /-- I3C_BUS_ERROR (R359): A parity, CRC or drive mismatch error on the bus is ignored or discarded and counted in CNT6. -/
  | i3cBusError (kind : I3cError)
  /-- EVSUM_CLEAR (R367): A W1C write of EVSUM clears bits, releasing ALERT_N and allowing a new IBI. -/
  | evsumClear (by_ : WriteBy) (v : W32)
  /-- SESSION_CLOSE (R363): A write of SESSs.CLOSE closes the session with a kind 0x0006 record. -/
  | sessionClose (by_ : WriteBy) (session : Fin 4) (v : W32)
  /-- LOG_READ (R373): A write of LOG.RD_CTL.GO starts reading record RD_SEQ. -/
  | logRead (by_ : WriteBy) (v : W32)
  /-- LOG_MIRROR_WRITE (R374): A committed record is written to the DRAM mirror, or a fault clears MIRROR_CTL.EN. -/
  | logMirrorWrite (ecc : EccResult)
  /-- MONITOR_WINDOW_END (R379): A 4,096-cycle clock-monitor window ends, judged good or bad, updating STABLE_RUN and DT_INC. -/
  | monitorWindowEnd (count : BitVec 13)
  /-- FORCE_INT (R381): A write of CLK.CTL.FORCE_INT forces failover to INTOSC, or starts return when cleared. -/
  | forceInt (by_ : WriteBy) (v : W32)
  /-- RAMP_STEP (R382): A domain's divider steps after a dwell of 64 of its own cycles. -/
  | rampStep (domain : Fin 4)
  /-- POWER_TARGET_WRITE (R389): A write of PWR.CTL.TARGET voids live instances with reason 11 and starts entry to FALLOW or DEEP FALLOW. -/
  | powerTargetWrite (by_ : WriteBy) (v : W32)
  /-- WAKE (R390): An enabled wake source starts a wake, or sets BLOCKED when supply or temperature forbid it. -/
  | wake (source : WakeSource)
  /-- WAKE_RETRY (R390): A blocked wake is retried when a comparator changes. -/
  | wakeRetry (v48 inlet hub : Bool)
  /-- HUB_POWER_UP (R392): With 48 V and RESET_N high the hub powers up, the firmware verifies, recovers the log and runs the wake steps. -/
  | hubPowerUp (mv : W16)
  /-- POWER_FAIL (R393): PWRFAIL_N, low 48 V, low 3V3_SB or RESET_N low voids every live instance with reason 10 and requests the seal. -/
  | powerFail (cause : PowerCause)
  /-- MARGIN_READ (R401): The firmware reads the critical-path replicas every second and raises the set-point while margin is short. -/
  | marginRead (m0 m1 m2 m3 : W16)
  /-- TELEMETRY_RECORD (R403): At each multiple of 125,000,000 DT a telemetry record is written to NAND and the mirror. -/
  | telemetryRecord (r : TelReading) (ecc : EccResult)
  /-- THERMAL_SAMPLE (R405): The hub samples inlet, hub and die temperatures every 125,000 DT. -/
  | thermalSample (inlet hub die0 die1 die2 die3 : W16)
  /-- FUSE_PROG (R413): A write of SEC.PROG programs fuse bits before provisioning, committing a record of kind 0x0017. -/
  | fuseProg (by_ : WriteBy) (v : W32)
  /-- FW_LOAD_START (R418): A write of FW_CTL.START loads a firmware from a receive port into the bank not running. -/
  | fwLoadStart (by_ : WriteBy) (v : W32)
  /-- FW_LOAD_ABORT (R418): A write of FW_CTL.ABORT stops the firmware load and leaves the bank invalid. -/
  | fwLoadAbort (by_ : WriteBy) (v : W32)
  /-- FW_ACTIVATE (R419): A write of FW_CTL.ACTIVATE sets FW_BOOT and restarts the management core on the target bank. -/
  | fwActivate (by_ : WriteBy) (v : W32)
  /-- ROLLBACK_ADVANCE (R420): A write of SEC.ADV advances the anti-rollback count, dropping objects below the new epoch. -/
  | rollbackAdvance (by_ : WriteBy) (v : W32)
  /-- REVOKE (R422): A write of SEC.REVOKE revokes a key slot or warrant, or is refused. -/
  | revoke (by_ : WriteBy) (v : W32)
  /-- DBG_CHAL (R424): A write of DBG_CTL.CHAL draws a 32-byte unlock challenge. -/
  | dbgChal (by_ : WriteBy) (v : W32)
  /-- DBG_SUBMIT (R424): A write of SUBMIT verifies the signed response and unlocks the debug port, or counts a failure. -/
  | dbgSubmit (by_ : WriteBy) (v : W32)
  /-- DBG_RELOCK (R424): A write of RELOCK ends the unlock. -/
  | dbgRelock (by_ : WriteBy) (v : W32)
  /-- DBG_LOCK (R423): A write of DBG_CTL.LOCK programs the LOCKED fuse bit. -/
  | dbgLock (by_ : WriteBy) (v : W32)
  /-- DBG_SEAL (R423): A write of DBG_CTL.SEAL programs the SEALED fuse bit, or is refused unless LOCKED. -/
  | dbgSeal (by_ : WriteBy) (v : W32)
  /-- ATT_GO (R426): A write of ATT_CTL.GO assembles an attestation report from a single instant's state. -/
  | attGo (by_ : WriteBy) (v : W32)
  /-- SAMPLE_RECORD_WRITE (R440): A sample record is written to the sample ring, or lost when the ring is full or slow. -/
  | sampleRecordWrite (q : Fin 4) (vx : Fin 5)
  /-- REGISTER_WRITE (R10): A write to a register field without a row of its own takes effect per its access code, logged where R369 requires. -/
  | registerWrite (by_ : WriteBy) (addr v : W32) (mx : Fin 10)
  /-- LATCHED_PAIR_READ (R430): A read of CLK.DT_LO or of a PMU counter LO latches the high bits into the matching HI register, per origin for PMU counters (R386, R430). -/
  | latchedPairRead (by_ : ReadBy) (addr : W32)
  /-- SKEW_CALIBRATION (R53): A skew calibration sequence or C-PHY preamble is received, and DESKEW_DONE becomes 1 at the first one after enable. -/
  | skewCalibration (sequence : SkewSequence)
  /-- LOG_PAGE_PROGRAMMED (R371): A NAND page program completes, or fails and is retried on the next good block. -/
  | logPageProgrammed (ok : Bool)
  /-- LOG_READ_DONE (R373): The record read completes into RD_DATA with its result. -/
  | logReadDone (ok : Bool)
  /-- INTOSC_RETRIM (R400): The hub steps the INTOSC trim code by one at a window boundary and clears the DT_INC history. -/
  | intoscRetrim (up : Bool)
  /-- PMU_SNAP (R430): A write of SNAP.GO copies every counter of the block and records SNAP_DT. -/
  | pmuSnap (block : Fin 5) (by_ : WriteBy) (v : W32)
  /-- MEMORY_TRAINING_DONE (R391): A memory controller finishes leaving self-refresh or initialising and training its channels, sets MEMC.STATUS.READY, and, after a failed boot, lets the module become ACTIVE. -/
  | memoryTrainingDone (q : Fin 4)
  /-- CCI_IN_BAND_INTERRUPT (R71): A sensor on an I3C-mode CCI bus requests an in-band interrupt, and the controller NACKs it. -/
  | cciInBandInterrupt (ctl : Fin 16)
  /-- LOAD_RECEIVE_END (R42): Receiving of the image bytes ends and validation begins. -/
  | loadReceiveEnd
  /-- LOAD_VALIDATION_DONE (R42): Validation steps 1 to 13 complete; the first failing step ends the load with its code. -/
  | loadValidationDone
  /-- LOAD_INSTALL_DONE (R43): Installation has written the shared tables, the MXCMD and GCCODE contents and the per-plane tables, and sets the plane LOADED. -/
  | loadInstallDone
  /-- LOAD_NAND_STORE_DONE (R456): The NAND store of a load with DEST 1 or 2 completes. -/
  | loadNandStoreDone
  /-- I3C_PRIVATE_READ (R361): A private read returns the held response, status 0x0A, or a NACK while not ready. -/
  | i3cPrivateRead
  /-- RSTDAA (R356): RSTDAA clears the dynamic address. -/
  | rstdaa
  /-- TARGET_RESET_PATTERN (R358): The target reset pattern resets target logic, closes sessions and sets IBI_ON and HJ_ON. -/
  | targetResetPattern
  /-- ENTHDR0 (R356): ENTHDR0 enters HDR-DDR mode. -/
  | enthdr0
  /-- ENTHDR3 (R356): ENTHDR3 enters HDR-BT mode. -/
  | enthdr3
  /-- HDR_EXIT (R356): The HDR exit pattern returns the bus to SDR. -/
  | hdrExit
  /-- GETPID (R356): GETPID returns the fused PID. -/
  | getpid
  /-- GETBCR (R356): GETBCR returns BCR 0x26. -/
  | getbcr
  /-- GETDCR (R356): GETDCR returns DCR 0x00. -/
  | getdcr
  /-- GETSTATUS (R356): GETSTATUS returns the target status. -/
  | getstatus
  /-- GETMWL (R356): GETMWL reports the maximum write length. -/
  | getmwl
  /-- GETMRL (R356): GETMRL reports the maximum read length. -/
  | getmrl
  /-- GETCAPS (R356): GETCAPS returns the target capabilities. -/
  | getcaps
  /-- IBI_REQUEST (R367): The target requests an in-band interrupt naming the lowest enabled set EVSUM bit. -/
  | ibiRequest
  /-- IBI_ACK (R367): A controller acknowledges the IBI. -/
  | ibiAck
  /-- IBI_NACK (R367): A controller NACKs the IBI, which stays outstanding. -/
  | ibiNack
  /-- IBI_RETRY (R367): After IBI_RETRY DT a NACKed IBI is requested again at bus-free. -/
  | ibiRetry
  /-- HOT_JOIN_REQUEST (R356): The target requests hot-join while enabled and without a dynamic address. -/
  | hotJoinRequest
  /-- LOG_COMMIT (R368): A change's record enters the journal 125 DT after its request and the change takes effect. -/
  | logCommit
  /-- LOG_PAGE_FLUSH (R371): The flusher starts writing a page of unflushed records to NAND. -/
  | logPageFlush
  /-- HOLDOVER_END (R378): PLL holdover ends and PHYs lose lock; links go down. -/
  | holdoverEnd
  /-- ROOT_PLL_LOCK (R383): The root PLL locks to a stable REFCLK and the return record is requested. -/
  | rootPllLock
  /-- DT_TICK (R384): Device time advances by 1 per TBCLK edge or by DT_INC per INTOSC cycle. -/
  | dtTick
  /-- IDLE_ENTRY (R388): After IDLE_DELAY of quiet the module enters IDLE and gates compute clocks. -/
  | idleEntry
  /-- FALLOW_ENTRY (R389): 125,000 DT later sessions close, the journal flushes, DRAM enters self-refresh and dies power off. -/
  | fallowEntry
  /-- WAKE_TIMER (R390): DT reaches WAKE_DT and starts a wake. -/
  | wakeTimer
  /-- STANDBY_POWER_VALID (R392): 3V3_SB becomes valid; the standby domain starts on INTOSC with DT = 0. -/
  | standbyPowerValid
  /-- DIE_GATING (R393): By t0 + 1,250 compute and base dies are gated. -/
  | dieGating
  /-- HOLD_UP_END (R393): The hold-up store ends after at least 625,000 DT and the module powers off. -/
  | holdUpEnd
  /-- WATCHDOG_EXPIRY (R396): The firmware watchdog unserved for 1 s restarts the management core. -/
  | watchdogExpiry
  /-- FIRMWARE_RESTART_DONE (R406): The management core restart completes and commits a record of origin class 2. -/
  | firmwareRestartDone
  /-- FUSE_BIT_PROGRAMMED (R412): One fuse bit finishes programming after 1,250 DT. -/
  | fuseBitProgrammed
  /-- FW_VERIFY_DONE (R416): The received firmware bank is read back and verified, setting FW_VALID with a kind 0x0015 record or failing. -/
  | fwVerifyDone
  /-- UNLOCK_EXPIRY (R424): The unlock duration elapses and the debug port relocks with a kind 0x0012 record. -/
  | unlockExpiry
  /-- CHALLENGE_EXPIRY (R424): An unlock challenge expires after 125,000,000 DT. -/
  | challengeExpiry
  /-- ATT_REPORT_READY (R426): The signed attestation report is placed in ATT_BUF and BUSY clears. -/
  | attReportReady
  /-- REFCLK_STOP (R378): REFCLK stops and the root PLL and every PHY PLL enter holdover at their last frequency for at least 25,000 DT. -/
  | refclkStop
  /-- HOLD_UP_STORE_FULL (R451): The hold-up store finishes charging from 48V, within 1,250,000 DT of 48V reaching 44.0 V, and the hub firmware may then make its first commit. -/
  | holdUpStoreFull
  deriving DecidableEq, Repr

end Sys2Proof
end

