-- ==== Sys2Proof/Decode.lean ====
section
/-! DEFINITION. Words that spell commands. The module takes commands from the outside and has no instruction encoding: every row of
spec/opcode_table.json has an empty list of fields, so no word spells a command. -/

namespace Sys2Proof

/-- The command that a word spells by the bits of spec/opcode_table.json: none, since no row of the table gives bits. (DESIGN CHOICE, log 7.) -/
def decodeTableWord (_nbits _w : Nat) : Option Instr := none

end Sys2Proof
end

