-- ==== Sys2Proof/Config.lean ====
section
/-! DEFINITION. What an implementation fixes and the spec does not say: free values, each a constant without a body, so that
no statement can rest on the value it has. -/

namespace Sys2Proof

/-- The n-th 32-byte random value that the hardware draws: target nonces (R363) and unlock challenges (R424). (DESIGN CHOICE, log 2.) -/
opaque Config.randomByte : Nat → Nat → Byte

/-- The origin class and origin ID of a record for a write by a general core outside any instance (R370 names none). (DEDUCED, log 14.) -/
opaque Config.coreOriginClass : Nat
/-- (DEDUCED, log 14.) -/
opaque Config.coreOriginId : Nat → Nat

/-- Stage-1 values whose conversion R82 does not give: a pixel of a RAW stream whose data type is no RAW type (type, value), and
a channel of a developed stream whose data type is a RAW type. (DESIGN CHOICE, log 35.) -/
opaque Config.mixedRaw : Nat → Nat → BitVec 16
/-- (DESIGN CHOICE, log 35.) -/
opaque Config.mixedDeveloped : Nat → Nat → BitVec 24

/-- The spatial noise filter of stage 5 (R88): range weights from the noise parameters A and B, over nine same-colour values. (DESIGN CHOICE, log 34.) -/
opaque Config.bilateral : Nat → Nat → List Nat → BitVec 24

/-- The demosaic of stage 9 (R90): channel, 4 * CFA + position in the pattern, and 25 values line by line. (DESIGN CHOICE, log 34.) -/
opaque Config.demosaic : Nat → Nat → List Nat → BitVec 24

/-- The polyphase filter of stage 13 (R91): channel, input and output size and output position in one list, and the channel's
input lines. (DESIGN CHOICE, log 34.) -/
opaque Config.scaled : List Nat → List (List Nat) → BitVec 16

/-- The chroma sample of the 4:2:0 formats (R91): format, channel, and the four values it covers. (DESIGN CHOICE, log 34.) -/
opaque Config.chroma : Nat → Nat → List Nat → BitVec 16

/-- The constant lag of Frame Start stamps behind the wires (R62), by PHY, width and rate; the spec bounds it. (DEDUCED, log 29.) -/
opaque Config.tsLag : Bool → Nat → Nat → Nat

/-- The members of a sync group that a graph reads (R63, R64), by image generation, graph ID and stream: the image format has no
place that says so. (DESIGN CHOICE, log 28.) -/
opaque Config.graphReads : Nat → Nat → Nat → Bool

/-- What a search gives that has no candidate (R125, R131, R132): 0 the code of a stereo pixel, 1 and 2 a block's vector, 3 and 4 a
backward block's vector, 5 and 6 a flow pixel's vector, 7 the code of a coarse stereo pixel; with the place in the plane. (DESIGN CHOICE, log 42.) -/
opaque Config.noCandidate : Nat → List Nat → BitVec 16

/-- The backward vector of a block whose row the block datapath has not reached (R133): component, block x, block y. (DESIGN CHOICE, log 43.) -/
opaque Config.backVector : Nat → Nat → Nat → BitVec 16

/-- Slot bytes and slot count of the far ring of an outbound RING window (R347, R348), and whether a segment of a window at an offset
is flagged NOTIFY (R346): a WINDOW entry says neither on the sending side. (DESIGN CHOICE, log 64.) -/
opaque Config.farSlotBytes : Nat → Nat
/-- (DESIGN CHOICE, log 64.) -/
opaque Config.farSlots : Nat → Nat
/-- (DESIGN CHOICE, log 64.) -/
opaque Config.segmentNotify : Nat → Nat → Bool

/-- The frame number of a drain frame (R330, R334): it has no frame index. (DESIGN CHOICE, log 85.) -/
opaque Config.drainFrame : Nat → BitVec 16

/-- A byte read from a peer window (R230): no flit of R344 carries a read. (DESIGN CHOICE, log 63.) -/
opaque Config.windowByte : Nat → Nat → BitVec 8

/-- A graph of an image generation carries a job ID (R295): the image's windows name job IDs, but no graph. (DESIGN CHOICE, log 54.) -/
opaque Config.graphJob : Nat → Nat → Nat → Bool

/-- A byte that a Drover reads from an uncorrectable quarter for a register image or an event template (R200 gives no effect): by
quadrant and address. (DESIGN CHOICE, log 53.) -/
opaque Config.poisonByte : Nat → Nat → BitVec 8

/-- What SPOST returns for a post of type 0, which is dropped (R310, R314): neither of its two results is given for it. (DESIGN CHOICE, log 81.) -/
opaque Config.badPost : BitVec 64

/-- The payload and the sign of a NaN that a matrix engine produces, by format code (R257-R264 say only that it is a NaN). (DESIGN CHOICE, log 72.) -/
opaque Config.nanPayload : Nat → Nat
/-- (DESIGN CHOICE, log 72.) -/
opaque Config.nanSign : Nat → Bool

/-- Fields of a change-log record that the spec names for its kind without a value, or not at all (R370, R413, R419-R424, R406): kind;
0 kind itself, 1 target, 2 old, 3 new, 4 extra; and what the event is about. (DEDUCED, log 15.) -/
opaque Config.recordField : Nat → Nat → Nat → Nat

/-- The signatures of an attestation report (R426) over its signed bytes: byte i of the 8,240. (DESIGN CHOICE, log 106.) -/
opaque Config.attSignature : List Byte → Nat → Byte

/-- The measurement of the boot ROM (R426), byte by byte. (DESIGN CHOICE, log 106.) -/
opaque Config.romMeasurement : Nat → Byte

/-- The public identity keys derived from the device secret (R425), byte by byte. (DESIGN CHOICE, log 106.) -/
opaque Config.identityByte : List Byte → Nat → Byte

/-- mtval of a general core's illegal-instruction and breakpoint exceptions, which the spec does not state (R298): cause, instruction. (DESIGN CHOICE, log 75.) -/
opaque Config.trapValue : Nat → Nat → W64

/-- mvendorid, marchid and mimpid (0, 1, 2) of the general cores. (DESIGN CHOICE, log 75.) -/
opaque Config.coreIdent : Nat → W64

/-- Bytes of the answers to GETSTATUS and GETCAPS, whose content the spec does not state (R356): code, draw, byte. (DESIGN CHOICE, log 92.) -/
opaque Config.cccByte : Nat → Nat → Nat → Byte

end Sys2Proof
end

