-- ==== Sys2Proof/Machine/Bits.lean ====
section
/-! DEFINITION. Bit fields, little-endian byte strings and signed narrowing, shared by every unit (R5, R6). -/

namespace Sys2Proof.Machine

/-- Bits [lo + len - 1 : lo] of a number (R6). -/
def bits (n lo len : Nat) : Nat := n / 2 ^ lo % 2 ^ len

/-- Bit i of a number (R6). -/
def bit (n i : Nat) : Bool := n / 2 ^ i % 2 == 1

/-- The number n with bits [lo + len - 1 : lo] replaced by v. -/
def putBits (n lo len v : Nat) : Nat :=
  n - bits n lo len * 2 ^ lo + v % 2 ^ len * 2 ^ lo

/-- A truth value as a number, 1 for true. -/
def b2n (b : Bool) : Nat := if b then 1 else 0

/-- A field of a register. -/
def fld (w : W32) (lo len : Nat) : Nat := bits w.toNat lo len

/-- The k bytes of a number, least significant first (R5). -/
def leBytes (k n : Nat) : List Byte :=
  match k with
  | 0 => []
  | k + 1 => BitVec.ofNat 8 n :: leBytes k (n / 256)

/-- The number whose bytes, least significant first, are given (R5). -/
def leNat : List Byte → Nat
  | [] => 0
  | b :: r => b.toNat + 256 * leNat r

/-- The size bytes of a structure at an offset, as a number (R5); bytes beyond the structure's end count as 0. -/
def field (bs : List Byte) (off size : Nat) : Nat := leNat ((bs.drop off).take size)

/-- One byte of a structure, 0 beyond its end. -/
def byteAt (bs : List Byte) (off : Nat) : Nat := (bs.getD off 0#8).toNat

/-- Entry i of a table of entries of a given size. -/
def tableEntry (bs : List Byte) (size i : Nat) : List Byte := (bs.drop (i * size)).take size

/-- The list cut into entries of a given size, at most fuel of them. -/
def chunks {α : Type} (size : Nat) : Nat → List α → List (List α)
  | 0, _ => []
  | fuel + 1, l => if l.isEmpty then [] else l.take size :: chunks size fuel (l.drop size)

/-- The number read as a signed number of w bits. -/
def toSigned (w n : Nat) : Int :=
  let m := n % 2 ^ w
  if 2 * m < 2 ^ w then (m : Int) else (m : Int) - (2 ^ w : Nat)

/-- The w-bit pattern of a signed number, modulo 2^w. -/
def ofSigned (w : Nat) (x : Int) : Nat := (x % ((2 ^ w : Nat) : Int)).toNat

/-- A number kept within a range. -/
def clampInt (lo hi x : Int) : Int := if x < lo then lo else if hi < x then hi else x

/-- A number kept within a range of naturals. -/
def clampNat (lo hi x : Nat) : Nat := if x < lo then lo else if hi < x then hi else x

/-- Division rounded up. -/
def ceilDiv (a b : Nat) : Nat := (a + b - 1) / b

/-- The quotient rounded to nearest, ties to even. -/
def roundDiv (a b : Nat) : Nat :=
  let q := a / b
  let r := 2 * (a % b)
  if r < b then q else if b < r then q + 1 else q + q % 2

/-- The quotient of a signed number rounded to nearest, ties to even. -/
def roundDivInt (a : Int) (b : Nat) : Int :=
  let q := a / (b : Int)
  let r := 2 * (a - q * b)
  if r < b then q else if (b : Int) < r then q + 1 else q + q % 2

/-- The integer square root, by bits from 2^n downwards. -/
def isqrtFrom : Nat → Nat → Nat → Nat
  | 0, r, _ => r
  | n + 1, r, x => if (r + 2 ^ n) * (r + 2 ^ n) ≤ x then isqrtFrom n (r + 2 ^ n) x else isqrtFrom n r x

/-- The integer square root of a number below 2^128. -/
def isqrt (x : Nat) : Nat := isqrtFrom 64 0 x

/-- Absolute difference of two naturals. -/
def absDiff (a b : Nat) : Nat := if a ≤ b then b - a else a - b

/-- Number of ones among the low len bits. -/
def popCount (len n : Nat) : Nat :=
  match len with
  | 0 => 0
  | len + 1 => n % 2 + popCount len (n / 2)

/-- Index of the lowest one among the bits from position i, when there is one below i + len. -/
def lowestBit (n i : Nat) : Nat → Option Nat
  | 0 => none
  | len + 1 => if bit n i then some i else lowestBit n (i + 1) len

/-- The elements at which a test holds, by index, from position i. -/
def indicesFrom {α : Type} (p : α → Bool) (i : Nat) : List α → List Nat
  | [] => []
  | a :: r => if p a then i :: indicesFrom p (i + 1) r else indicesFrom p (i + 1) r

/-- The first element that passes a test, taken out of the list. -/
def takeFirst {α : Type} (p : α → Bool) : List α → Option (α × List α)
  | [] => none
  | a :: r =>
    if p a then some (a, r)
    else match takeFirst p r with
      | some (x, r') => some (x, a :: r')
      | none => none

/-- The list with element i changed by f. -/
def updAt {α : Type} (f : α → α) (i : Nat) (l : List α) : List α := l.modify i f

/-- The list with element i replaced. -/
def setAt {α : Type} (i : Nat) (a : α) (l : List α) : List α := l.set i a

/-- A saturating count of the given width. -/
def satTo (w n : Nat) : Nat := min n (2 ^ w - 1)

end Sys2Proof.Machine
end

