-- ==== Sys2Proof/Machine/RegMap.lean ====
section
/-! DEFINITION. The control space (R22) and the register tables of the spec: where each register lies, which of its bits
follow which access code (R10), and its reset value. Written from the tables of R51, R79-R81, R99, R117, R148, R170, R198,
R227, R229, R250-R252, R281, R312, R327, R353-R355, R375, R376, R394, R395, R409, R428, R441 and R442. -/

namespace Sys2Proof.Machine

/-- The blocks of the control space that hold registers (R22). -/
inductive Blk where
  | hub | clk | pwr | sec | log | i3c | cci | rxp | txp | peer | pl | cfg | tel | pmuHub
  | drv | flk | shp | ch | dmac | spd | isp | ispCtx | pym | wrp | ste | flw | fea | me | gcx | gcCore | xlt | memc | pmu
  deriving DecidableEq, Repr

/-- One line of a register table: an array of count1 x count2 registers at off + i * stride1 + j * stride2, with the masks
of its fields by access code and its reset value; register i of the array resets to reset + i * step. -/
structure RegEntry where
  off : Nat
  stride1 : Nat
  count1 : Nat
  stride2 : Nat
  count2 : Nat
  rw : Nat
  ro : Nat
  w1c : Nat
  wo : Nat
  rws : Nat
  reset : Nat
  step : Nat
  /-- The register counts (it wraps, and may be read at 48 bits through the PMU). -/
  counter : Bool
  deriving DecidableEq, Repr

/-- Registers of the CFG block (R51). -/
def cfgRegs : List RegEntry := [
  ⟨0x0, 0x0, 1, 0x0, 1, 0x0, 0x77F, 0x3000, 0x0, 0x0, 0x0, 0, false⟩, -- STATUS
  ⟨0x4, 0x0, 1, 0x0, 1, 0x3FFF370, 0x0, 0x0, 0x7, 0x0, 0x0, 0, false⟩, -- LOAD_CTL
  ⟨0x8, 0x0, 1, 0x0, 1, 0x0, 0xFF03FF, 0x0, 0x0, 0x0, 0x0, 0, false⟩, -- LOAD_ERR
  ⟨0xC, 0x0, 1, 0x0, 1, 0x0, 0xFFFFFFFF, 0x0, 0x0, 0x0, 0x0, 0, false⟩, -- LOAD_BYTES
  ⟨0x10, 0x0, 1, 0x0, 1, 0x0, 0xFFFFFFFF, 0x0, 0x0, 0x0, 0x0, 0, false⟩, -- GEN_A
  ⟨0x14, 0x0, 1, 0x0, 1, 0x0, 0xFFFFFFFF, 0x0, 0x0, 0x0, 0x0, 0, false⟩, -- GEN_B
  ⟨0x18, 0x0, 1, 0x0, 1, 0xE, 0x0, 0x0, 0x1, 0x0, 0x0, 0, false⟩, -- SWITCH_CTL
  ⟨0x20, 0x0, 1, 0x0, 1, 0x0, 0xFFFFFFFF, 0x0, 0x0, 0x0, 0x0, 0, false⟩, -- SWITCH_DT_LO
  ⟨0x24, 0x0, 1, 0x0, 1, 0x0, 0xFFFFFFFF, 0x0, 0x0, 0x0, 0x0, 0, false⟩, -- SWITCH_DT_HI
  ⟨0x28, 0x0, 1, 0x0, 1, 0x1, 0x0, 0x0, 0x0, 0x0, 0x0, 0, false⟩, -- BOOT
  ⟨0x2C, 0x0, 1, 0x0, 1, 0x0, 0xFFFF, 0x0, 0x0, 0x0, 0x0, 0, false⟩, -- OLD_LIVE
  ⟨0x40, 0x4, 16, 0x0, 1, 0x3FFFF, 0x0, 0x0, 0x0, 0x0, 0x0, 0, false⟩ -- SWITCH_SELn, n = 0-15
  ]

/-- Registers of the RXP block (R79). -/
def rxpRegs : List RegEntry := [
  ⟨0x0, 0x0, 1, 0x0, 1, 0xF3F, 0x0, 0x0, 0x0, 0x0, 0x8, 0, false⟩, -- PORT_CTL
  ⟨0x4, 0x0, 1, 0x0, 1, 0x1FFFF, 0x0, 0x0, 0x0, 0x0, 0x688, 0, false⟩, -- LANE_MAP
  ⟨0x8, 0x0, 1, 0x0, 1, 0xFFFF, 0x0, 0x0, 0x0, 0x0, 0x5DC, 0, false⟩, -- RATE
  ⟨0xC, 0x0, 1, 0x0, 1, 0x0, 0x3, 0x0, 0x0, 0x0, 0x0, 0, false⟩, -- STATUS
  ⟨0x10, 0x0, 1, 0x0, 1, 0x0, 0xFF, 0x0, 0x0, 0x0, 0x0, 0, false⟩, -- TS_LAG
  ⟨0x14, 0x0, 1, 0x0, 1, 0x0, 0x0, 0xFF, 0x0, 0x0, 0x0, 0, false⟩, -- ERR
  ⟨0x20, 0x4, 8, 0x0, 1, 0x0, 0xFFFFFFFF, 0x0, 0x0, 0x0, 0x0, 0, true⟩, -- CNTi
  ⟨0x40, 0x0, 1, 0x0, 1, 0x0, 0xFFFFFFFF, 0x0, 0x0, 0x0, 0x0, 0, true⟩, -- SHORT_CNT
  ⟨0x100, 0x40, 16, 0x0, 1, 0x3FFFF, 0x0, 0x0, 0x0, 0x0, 0x0, 2, false⟩, -- SLOTk.SLOT_CTL
  ⟨0x104, 0x40, 16, 0x0, 1, 0x0, 0xFFFF0001, 0x2, 0x0, 0x0, 0x0, 0, false⟩, -- SLOTk.SLOT_STATUS
  ⟨0x108, 0x40, 16, 0x0, 1, 0x0, 0xFFFFFFFF, 0x0, 0x0, 0x0, 0x0, 0, false⟩, -- SLOTk.FRAME_INDEX
  ⟨0x10C, 0x40, 16, 0x0, 1, 0x0, 0xFFFFFFFF, 0x0, 0x0, 0x0, 0x0, 0, false⟩, -- SLOTk.SENSOR_FN
  ⟨0x110, 0x40, 16, 0x0, 1, 0x0, 0xFFFFFFFF, 0x0, 0x0, 0x0, 0x0, 0, false⟩, -- SLOTk.FS_DT_LO, FS_DT_HI [0]
  ⟨0x114, 0x40, 16, 0x0, 1, 0x0, 0xFFFFFFFF, 0x0, 0x0, 0x0, 0x0, 0, false⟩, -- SLOTk.FS_DT_LO, FS_DT_HI [1]
  ⟨0x118, 0x40, 16, 0x0, 1, 0x0, 0xFFFFFFFF, 0x0, 0x0, 0x0, 0x0, 0, false⟩, -- SLOTk.FE_DT_LO, FE_DT_HI [0]
  ⟨0x11C, 0x40, 16, 0x0, 1, 0x0, 0xFFFFFFFF, 0x0, 0x0, 0x0, 0x0, 0, false⟩, -- SLOTk.FE_DT_LO, FE_DT_HI [1]
  ⟨0x120, 0x40, 16, 0x0, 1, 0x0, 0xFFFFFFFF, 0x0, 0x0, 0x0, 0x0, 0, false⟩, -- SLOTk.EMB_EXPO
  ⟨0x124, 0x40, 16, 0x0, 1, 0x0, 0xFFFFFFFF, 0x0, 0x0, 0x0, 0x0, 0, false⟩, -- SLOTk.EMB_GAIN
  ⟨0x128, 0x40, 16, 0x0, 1, 0x0, 0xFFFFFFFF, 0x0, 0x0, 0x0, 0x0, 0, false⟩ -- SLOTk.BULK_BYTES
  ]

/-- Registers of the HUB block (R80). -/
def hubRegs : List RegEntry := [
  ⟨0x1000, 0x4, 64, 0x0, 1, 0xFFFF, 0x0, 0x0, 0x0, 0x0, 0x0, 0, false⟩, -- SYNCn
  ⟨0x1100, 0x4, 64, 0x0, 1, 0x0, 0xFFFFFFFF, 0x0, 0x0, 0x0, 0x0, 0, true⟩, -- SYNC_SHORTn
  ⟨0x2000, 0x20, 16, 0x0, 1, 0x7, 0x0, 0x8, 0x0, 0x0, 0x0, 0, false⟩, -- FSOm.CTL
  ⟨0x2004, 0x20, 16, 0x0, 1, 0xFFFFFFFF, 0x0, 0x0, 0x0, 0x0, 0x40B0B, 0, false⟩, -- FSOm.PERIOD
  ⟨0x2008, 0x20, 16, 0x0, 1, 0xFFFFFF, 0x0, 0x0, 0x0, 0x0, 0x7D, 0, false⟩, -- FSOm.WIDTH
  ⟨0x200C, 0x20, 16, 0x0, 1, 0xFFFFFFFF, 0x0, 0x0, 0x0, 0x0, 0x0, 0, false⟩, -- FSOm.OFFSET
  ⟨0x2010, 0x20, 16, 0x0, 1, 0xFFFFFFFF, 0x0, 0x0, 0x0, 0x0, 0x0, 0, false⟩, -- FSOm.START_LO, START_HI [0]
  ⟨0x2014, 0x20, 16, 0x0, 1, 0xFFFFFFFF, 0x0, 0x0, 0x0, 0x0, 0x0, 0, false⟩, -- FSOm.START_LO, START_HI [1]
  ⟨0x2200, 0x0, 1, 0x0, 1, 0xF3, 0x0, 0x0, 0x0, 0x0, 0x40, 0, false⟩, -- FSYNC_IN_CTL
  ⟨0x2204, 0x0, 1, 0x0, 1, 0x0, 0xFFFFFFFF, 0x0, 0x0, 0x0, 0x0, 0, false⟩, -- FSYNC_IN_DT_LO, HI [0]
  ⟨0x2208, 0x0, 1, 0x0, 1, 0x0, 0xFFFFFFFF, 0x0, 0x0, 0x0, 0x0, 0, false⟩, -- FSYNC_IN_DT_LO, HI [1]
  ⟨0x220C, 0x0, 1, 0x0, 1, 0x0, 0xFFFFFFFF, 0x0, 0x0, 0x0, 0x0, 0, true⟩ -- FSYNC_IN_COUNT
  ]

/-- Registers of the CCI block (R81). -/
def cciRegs : List RegEntry := [
  ⟨0x0, 0x0, 1, 0x0, 1, 0xF7, 0x0, 0x0, 0x0, 0x0, 0x22, 0, false⟩, -- CTL
  ⟨0x4, 0x0, 1, 0x0, 1, 0x0, 0x13F, 0xE00, 0x0, 0x0, 0x0, 0, false⟩, -- STATUS
  ⟨0x8, 0x0, 1, 0x0, 1, 0xFFFFFFFF, 0x0, 0x0, 0x0, 0x0, 0x0, 0, false⟩, -- TX_LO, TX_HI [0]
  ⟨0xC, 0x0, 1, 0x0, 1, 0xFFFFFFFF, 0x0, 0x0, 0x0, 0x0, 0x0, 0, false⟩, -- TX_LO, TX_HI [1]
  ⟨0x10, 0x0, 1, 0x0, 1, 0x1FFFF, 0x0, 0x0, 0x0, 0x0, 0x0, 0, false⟩, -- REG
  ⟨0x14, 0x0, 1, 0x0, 1, 0x0, 0x0, 0x0, 0x80FF1FFF, 0x0, 0x0, 0, false⟩, -- CMD
  ⟨0x18, 0x0, 1, 0x0, 1, 0x0, 0xFFFFFFFF, 0x0, 0x0, 0x0, 0x0, 0, false⟩, -- RX_LO, RX_HI [0]
  ⟨0x1C, 0x0, 1, 0x0, 1, 0x0, 0xFFFFFFFF, 0x0, 0x0, 0x0, 0x0, 0, false⟩, -- RX_LO, RX_HI [1]
  ⟨0x20, 0x0, 1, 0x0, 1, 0x0, 0xFFFFFFFF, 0x0, 0x0, 0x0, 0x0, 0, false⟩, -- DONE_DT_LO, HI [0]
  ⟨0x24, 0x0, 1, 0x0, 1, 0x0, 0xFFFFFFFF, 0x0, 0x0, 0x0, 0x0, 0, false⟩, -- DONE_DT_LO, HI [1]
  ⟨0x28, 0x0, 1, 0x0, 1, 0x0, 0xFFFFFFFF, 0x0, 0x0, 0x0, 0x0, 0, false⟩ -- CNT
  ]

/-- Registers of the ISP block (R99). -/
def ispRegs : List RegEntry := [
  ⟨0x0, 0x0, 1, 0x0, 1, 0x1, 0x0, 0x0, 0x0, 0x0, 0x0, 0, false⟩, -- CTL
  ⟨0x4, 0x0, 1, 0x0, 1, 0x0, 0x1FFFF, 0x0, 0x0, 0x0, 0x0, 0, false⟩, -- STATUS
  ⟨0x10, 0x4, 6, 0x0, 1, 0x0, 0xFFFFFFFF, 0x0, 0x0, 0x0, 0x0, 0, true⟩ -- CNTi
  ]

/-- Registers of the ISPCTX block (R99). -/
def ispCtxRegs : List RegEntry := [
  ⟨0x0, 0x0, 1, 0x0, 1, 0x0, 0xFFFFF, 0x0, 0x0, 0x0, 0x0, 0, false⟩, -- STATE
  ⟨0x4, 0x0, 1, 0x0, 1, 0x0, 0x0, 0x0, 0x1, 0x0, 0x0, 0, false⟩, -- COMMIT
  ⟨0x8, 0x0, 1, 0x0, 1, 0x0, 0x0, 0x0, 0x0, 0x7FF, 0x0, 0, false⟩, -- FORMAT
  ⟨0xC, 0x8, 3, 0x0, 1, 0x0, 0x0, 0x0, 0x0, 0xFFFFFFFF, 0x0, 0, false⟩, -- BLACKe_A
  ⟨0x10, 0x8, 3, 0x0, 1, 0x0, 0x0, 0x0, 0x0, 0xFFFFFFFF, 0x0, 0, false⟩, -- BLACKe_B
  ⟨0x24, 0x0, 1, 0x0, 1, 0x0, 0x0, 0x0, 0x0, 0xFFFFFFFF, 0x800, 0, false⟩, -- DPC
  ⟨0x28, 0x0, 1, 0x0, 1, 0x0, 0x0, 0x0, 0x0, 0xFFFFFFFF, 0x1000100, 0, false⟩, -- HDR_RATIO
  ⟨0x2C, 0x0, 1, 0x0, 1, 0x0, 0x0, 0x0, 0x0, 0xFFFFFFFF, 0xFF00F000, 0, false⟩, -- HDR_TH
  ⟨0x30, 0x4, 3, 0x0, 1, 0x0, 0x0, 0x0, 0x0, 0xFFFFFFFF, 0x100, 0, false⟩, -- NOISEe
  ⟨0x3C, 0x0, 1, 0x0, 1, 0x0, 0x0, 0x0, 0x0, 0xFFFFFF, 0x201020, 0, false⟩, -- TNR
  ⟨0x40, 0x0, 1, 0x0, 1, 0x0, 0x0, 0x0, 0x0, 0xFFFFFFFF, 0x10001000, 0, false⟩, -- WB_A
  ⟨0x44, 0x0, 1, 0x0, 1, 0x0, 0x0, 0x0, 0x0, 0xFFFFFFFF, 0x10001000, 0, false⟩, -- WB_B
  ⟨0x48, 0x8, 2, 0x0, 1, 0x0, 0x0, 0x0, 0x0, 0xFFFFFFFF, 0x1000, 0, false⟩, -- CCMi, i = 0, 2
  ⟨0x58, 0x0, 1, 0x0, 1, 0x0, 0x0, 0x0, 0x0, 0xFFFF, 0x1000, 0, false⟩, -- CCM4
  ⟨0x4C, 0x8, 2, 0x0, 1, 0x0, 0x0, 0x0, 0x0, 0xFFFFFFFF, 0x0, 0, false⟩, -- CCMi, i odd
  ⟨0x5C, 0x0, 1, 0x0, 1, 0x0, 0x0, 0x0, 0x0, 0x3, 0x0, 0, false⟩, -- CSC
  ⟨0x60, 0x8, 8, 0x0, 1, 0x0, 0x0, 0x0, 0x0, 0xFFFFFFFF, 0x0, 0, false⟩, -- TABj_LO
  ⟨0x64, 0x8, 8, 0x0, 1, 0x0, 0x0, 0x0, 0x0, 0xFFFF, 0x0, 0, false⟩, -- TABj_HI
  ⟨0xA0, 0x0, 1, 0x0, 1, 0x0, 0x0, 0x0, 0x0, 0xFFFFFFFF, 0x0, 0, false⟩, -- FLOW_STRIDE
  ⟨0xA4, 0x0, 1, 0x0, 1, 0x0, 0x0, 0x0, 0x0, 0xF1, 0x10, 0, false⟩, -- STATS
  ⟨0xB0, 0x10, 2, 0x0, 1, 0x0, 0x0, 0x0, 0x0, 0xFFFF3F, 0x0, 0, false⟩, -- OUTo.CTL
  ⟨0xB4, 0x10, 2, 0x0, 1, 0x0, 0x0, 0x0, 0x0, 0xFFFFFFFF, 0x0, 0, false⟩ -- OUTo.SIZE
  ]

/-- Registers of the PYM block (R117). -/
def pymRegs : List RegEntry := [
  ⟨0x0, 0x0, 1, 0x0, 1, 0x1, 0x0, 0x0, 0x0, 0x0, 0x0, 0, false⟩, -- CTL
  ⟨0x4, 0x0, 1, 0x0, 1, 0x0, 0x33F, 0x0, 0x0, 0x0, 0x0, 0, false⟩, -- STATUS
  ⟨0x8, 0x0, 1, 0x0, 1, 0x0, 0x0, 0x0, 0x807FFFFF, 0x0, 0x0, 0, false⟩, -- START
  ⟨0xC, 0x0, 1, 0x0, 1, 0x0, 0x0, 0x3, 0x0, 0x0, 0x0, 0, false⟩, -- ERR
  ⟨0x10, 0x0, 1, 0x0, 1, 0xFFFFFFFF, 0x0, 0x0, 0x0, 0x0, 0xFFFFFFFF, 0, false⟩, -- START_DL_LO, HI [0]
  ⟨0x14, 0x0, 1, 0x0, 1, 0xFFFFFFFF, 0x0, 0x0, 0x0, 0x0, 0xFFFFFFFF, 0, false⟩, -- START_DL_LO, HI [1]
  ⟨0x20, 0x4, 6, 0x0, 1, 0x0, 0xFFFFFFFF, 0x0, 0x0, 0x0, 0x0, 0, true⟩, -- CNTi
  ⟨0x100, 0x8, 32, 0x0, 1, 0x0, 0x807FFFFF, 0x0, 0x0, 0x0, 0x0, 0, false⟩, -- CTXc.STATE
  ⟨0x104, 0x8, 32, 0x0, 1, 0x0, 0xFFFF, 0x0, 0x0, 0x0, 0x0, 0, false⟩ -- CTXc.ROW
  ]

/-- Registers of the STE block (R148). -/
def steRegs : List RegEntry := [
  ⟨0x0, 0x0, 1, 0x0, 1, 0x1, 0x0, 0x0, 0x0, 0x0, 0x0, 0, false⟩, -- CTL
  ⟨0x4, 0x0, 1, 0x0, 1, 0x0, 0xF7F, 0x0, 0x0, 0x0, 0x0, 0, false⟩, -- STATUS
  ⟨0x8, 0x0, 1, 0x0, 1, 0x0, 0x0, 0x0, 0x807FFFFF, 0x0, 0x0, 0, false⟩, -- START
  ⟨0xC, 0x0, 1, 0x0, 1, 0x0, 0x0, 0x7, 0x0, 0x0, 0x0, 0, false⟩, -- ERR
  ⟨0x10, 0x0, 1, 0x0, 1, 0xFFFFFFFF, 0x0, 0x0, 0x0, 0x0, 0xFFFFFFFF, 0, false⟩, -- START_DL_LO, HI [0]
  ⟨0x14, 0x0, 1, 0x0, 1, 0xFFFFFFFF, 0x0, 0x0, 0x0, 0x0, 0xFFFFFFFF, 0, false⟩, -- START_DL_LO, HI [1]
  ⟨0x18, 0x0, 1, 0x0, 1, 0x0, 0x0, 0x0, 0x8000003F, 0x0, 0x0, 0, false⟩, -- TRUNC
  ⟨0x20, 0x4, 8, 0x0, 1, 0x0, 0xFFFFFFFF, 0x0, 0x0, 0x0, 0x0, 0, true⟩, -- CNTi
  ⟨0x100, 0x8, 64, 0x0, 1, 0x0, 0x837FFFFF, 0x0, 0x0, 0x0, 0x0, 0, false⟩, -- CTXc.STATE
  ⟨0x104, 0x8, 64, 0x0, 1, 0x0, 0xFFFFFFFF, 0x0, 0x0, 0x0, 0x0, 0, false⟩ -- CTXc.ROW
  ]

/-- Registers of the FEA block (R170). -/
def feaRegs : List RegEntry := [
  ⟨0x0, 0x0, 1, 0x0, 1, 0x1, 0x0, 0x0, 0x0, 0x0, 0x0, 0, false⟩, -- CTL
  ⟨0x4, 0x0, 1, 0x0, 1, 0x0, 0xF3F, 0x0, 0x0, 0x0, 0x0, 0, false⟩, -- STATUS
  ⟨0x8, 0x0, 1, 0x0, 1, 0x0, 0x0, 0x0, 0x807FFFFF, 0x0, 0x0, 0, false⟩, -- START
  ⟨0xC, 0x0, 1, 0x0, 1, 0x0, 0x0, 0x7, 0x0, 0x0, 0x0, 0, false⟩, -- ERR
  ⟨0x10, 0x0, 1, 0x0, 1, 0xFFFFFFFF, 0x0, 0x0, 0x0, 0x0, 0xFFFFFFFF, 0, false⟩, -- START_DL_LO, HI [0]
  ⟨0x14, 0x0, 1, 0x0, 1, 0xFFFFFFFF, 0x0, 0x0, 0x0, 0x0, 0xFFFFFFFF, 0, false⟩, -- START_DL_LO, HI [1]
  ⟨0x18, 0x0, 1, 0x0, 1, 0x0, 0x0, 0x0, 0x8000001F, 0x0, 0x0, 0, false⟩, -- TRUNC
  ⟨0x20, 0x4, 8, 0x0, 1, 0x0, 0xFFFFFFFF, 0x0, 0x0, 0x0, 0x0, 0, true⟩, -- CNTi
  ⟨0x100, 0x8, 32, 0x0, 1, 0x0, 0x837FFFFF, 0x0, 0x0, 0x0, 0x0, 0, false⟩, -- CTXc.STATE
  ⟨0x104, 0x8, 32, 0x0, 1, 0x0, 0xFFFFFFFF, 0x0, 0x0, 0x0, 0x0, 0, false⟩ -- CTXc.ROW
  ]

/-- Registers of the DRV block (R198). -/
def drvRegs : List RegEntry := [
  ⟨0x0, 0x0, 1, 0x0, 1, 0x0, 0x17F7F, 0x0, 0x0, 0x0, 0x0, 0, false⟩, -- STATUS
  ⟨0x4, 0x0, 1, 0x0, 1, 0x1FF, 0x0, 0x0, 0x0, 0x0, 0x0, 0, false⟩, -- OUT_CTL
  ⟨0x8, 0x0, 1, 0x0, 1, 0x0, 0xFFFFFFFF, 0x0, 0x0, 0x0, 0x0, 0, false⟩, -- OUT_HEAD
  ⟨0xC, 0x0, 1, 0x0, 1, 0xFFFFFFFF, 0x0, 0x0, 0x0, 0x0, 0x0, 0, false⟩, -- OUT_TAIL
  ⟨0x10, 0x0, 1, 0x0, 1, 0x0, 0x0, 0x7, 0x0, 0x0, 0x0, 0, false⟩, -- ERR
  ⟨0x14, 0x0, 1, 0x0, 1, 0x0, 0x0, 0x0, 0x8000003F, 0x0, 0x0, 0, false⟩, -- ABORT
  ⟨0x20, 0x4, 8, 0x0, 1, 0x0, 0xFFFFFFFF, 0x0, 0x0, 0x0, 0x0, 0, true⟩, -- CNTi
  ⟨0x100, 0x10, 64, 0x0, 1, 0x0, 0x3FFFFFFF, 0x0, 0x0, 0x0, 0x0, 0, false⟩, -- CTXc.STATE
  ⟨0x104, 0x10, 64, 0x0, 1, 0x0, 0xFFFFFFFF, 0x0, 0x0, 0x0, 0x0, 0, false⟩, -- CTXc.EV
  ⟨0x108, 0x10, 64, 0x0, 1, 0x0, 0xFFFFFFFF, 0x0, 0x0, 0x0, 0x0, 0, false⟩, -- CTXc.TSTOP
  ⟨0x10C, 0x10, 64, 0x0, 1, 0x0, 0xFFFFFFFF, 0x0, 0x0, 0x0, 0x0, 0, false⟩, -- CTXc.DL
  ⟨0x800, 0x4, 256, 0x0, 1, 0x0, 0x1FFFFFF, 0x0, 0x0, 0x0, 0x0, 0, false⟩, -- USEDr
  ⟨0xC00, 0x4, 256, 0x0, 1, 0x0, 0x1FFFFFF, 0x0, 0x0, 0x0, 0x0, 0, false⟩ -- SHAREr
  ]

/-- Registers of the SPD block (R227). -/
def spdRegs : List RegEntry := [
  ⟨0x0, 0x0, 1, 0x0, 1, 0x1, 0x0, 0x0, 0x0, 0x0, 0x0, 0, false⟩, -- CTL
  ⟨0x4, 0x0, 1, 0x0, 1, 0x0, 0x3FF0001, 0x0, 0x0, 0x0, 0x0, 0, false⟩, -- STATUS
  ⟨0x8, 0x0, 1, 0x0, 1, 0x0, 0x0, 0xF, 0x0, 0x0, 0x0, 0, false⟩, -- ERR
  ⟨0xC, 0x0, 1, 0x0, 1, 0x0, 0x7FFFFF, 0x0, 0x0, 0x0, 0x0, 0, false⟩, -- CE_ADDR
  ⟨0x10, 0x0, 1, 0x0, 1, 0x0, 0x7FFFFF, 0x0, 0x0, 0x0, 0x0, 0, false⟩, -- UE_ADDR
  ⟨0x14, 0x0, 1, 0x0, 1, 0x0, 0xFFFFFF, 0x0, 0x0, 0x0, 0x0, 0, false⟩, -- AUDIT_FIRST
  ⟨0x18, 0x0, 1, 0x0, 1, 0x0, 0xFFFFFF1F, 0x0, 0x0, 0x0, 0x0, 0, false⟩, -- AUDIT_SRC
  ⟨0x1C, 0x0, 1, 0x0, 1, 0x0, 0x0, 0x0, 0x837FFFFF, 0x0, 0x0, 0, false⟩, -- INJECT
  ⟨0x20, 0x4, 8, 0x0, 1, 0x0, 0xFFFFFFFF, 0x0, 0x0, 0x0, 0x0, 0, true⟩, -- CNTi
  ⟨0x80, 0x0, 1, 0x0, 1, 0x0, 0xFFFFFFFF, 0x0, 0x0, 0x0, 0x0, 0, false⟩, -- WHEEL
  ⟨0x400, 0x40, 16, 0x0, 1, 0x0, 0x0, 0x0, 0x1, 0x0, 0x0, 0, false⟩, -- FOLDf.CTL
  ⟨0x404, 0x40, 16, 0x0, 1, 0x0, 0x0, 0x0, 0x807FFFFF, 0x0, 0x0, 0, false⟩, -- FOLDf.START
  ⟨0x408, 0x40, 16, 0x0, 1, 0xFFFFFFFF, 0x0, 0x0, 0x0, 0x0, 0xFFFFFFFF, 0, false⟩, -- FOLDf.START_DL_LO, HI [0]
  ⟨0x40C, 0x40, 16, 0x0, 1, 0xFFFFFFFF, 0x0, 0x0, 0x0, 0x0, 0xFFFFFFFF, 0, false⟩, -- FOLDf.START_DL_LO, HI [1]
  ⟨0x410, 0x40, 16, 0x0, 1, 0x0, 0x7FF, 0x0, 0x0, 0x0, 0x0, 0, false⟩, -- FOLDf.STATE
  ⟨0x414, 0x40, 16, 0x0, 1, 0x0, 0xFFFFFFFF, 0x0, 0x0, 0x0, 0x0, 0, false⟩, -- FOLDf.CYCLE
  ⟨0x418, 0x40, 16, 0x0, 1, 0x0, 0xFFFFFFFF, 0x0, 0x0, 0x0, 0x0, 0, true⟩, -- FOLDf.HOLD_CYC
  ⟨0x41C, 0x40, 16, 0x0, 1, 0x0, 0xFFFFFFFF, 0x0, 0x0, 0x0, 0x0, 0, true⟩, -- FOLDf.CONFLICTS
  ⟨0x420, 0x40, 16, 0x0, 1, 0x0, 0xFFFFFFFF, 0x0, 0x0, 0x0, 0x0, 0, true⟩, -- FOLDf.GATE_CYC
  ⟨0x424, 0x40, 16, 0x0, 1, 0x0, 0xFFFFFFFF, 0x0, 0x0, 0x0, 0x0, 0, true⟩, -- FOLDf.RUNS
  ⟨0x1000, 0x10, 256, 0x0, 1, 0x0, 0xFFFF, 0x0, 0x0, 0x0, 0x0, 0, false⟩, -- REGr.HEAD
  ⟨0x1004, 0x10, 256, 0x0, 1, 0x0, 0xFFFF, 0x0, 0x0, 0x0, 0x0, 0, false⟩, -- REGr.TAIL
  ⟨0x1008, 0x10, 256, 0x0, 1, 0x0, 0xFFFF, 0x0, 0x0, 0x0, 0x0, 0, false⟩, -- REGr.FILL
  ⟨0x100C, 0x10, 256, 0x0, 1, 0x0, 0x0, 0x0, 0x1, 0x0, 0x0, 0, false⟩ -- REGr.CTL
  ]

/-- Registers of the CH block (R229). -/
def chRegs : List RegEntry := [
  ⟨0x0, 0x0, 1, 0x0, 1, 0xFFFFFFFF, 0x0, 0x0, 0x0, 0x0, 0x0, 0, false⟩, -- SRC_LO, SRC_HI [0]
  ⟨0x4, 0x0, 1, 0x0, 1, 0xFFFF, 0x0, 0x0, 0x0, 0x0, 0x0, 0, false⟩, -- SRC_LO, SRC_HI [1]
  ⟨0x8, 0x0, 1, 0x0, 1, 0xFFFFFFFF, 0x0, 0x0, 0x0, 0x0, 0x0, 0, false⟩, -- DST_LO, DST_HI [0]
  ⟨0xC, 0x0, 1, 0x0, 1, 0xFFFF, 0x0, 0x0, 0x0, 0x0, 0x0, 0, false⟩, -- DST_LO, DST_HI [1]
  ⟨0x10, 0x0, 1, 0x0, 1, 0xFFFFFF, 0x0, 0x0, 0x0, 0x0, 0x0, 0, false⟩, -- SRC_LEN
  ⟨0x14, 0x0, 1, 0x0, 1, 0xFFFFFFFF, 0x0, 0x0, 0x0, 0x0, 0x0, 0, false⟩, -- SRC_STRIDE
  ⟨0x18, 0x0, 1, 0x0, 1, 0xFFFFFF, 0x0, 0x0, 0x0, 0x0, 0x0, 0, false⟩, -- SRC_COUNT
  ⟨0x1C, 0x0, 1, 0x0, 1, 0xFFFFFF, 0x0, 0x0, 0x0, 0x0, 0x0, 0, false⟩, -- DST_LEN, DST_STRIDE, DST_COUNT [0]
  ⟨0x20, 0x0, 1, 0x0, 1, 0xFFFFFFFF, 0x0, 0x0, 0x0, 0x0, 0x0, 0, false⟩, -- DST_LEN, DST_STRIDE, DST_COUNT [1]
  ⟨0x24, 0x0, 1, 0x0, 1, 0xFFFFFF, 0x0, 0x0, 0x0, 0x0, 0x0, 0, false⟩, -- DST_LEN, DST_STRIDE, DST_COUNT [2]
  ⟨0x28, 0x0, 1, 0x0, 1, 0x3F373F37, 0x0, 0x0, 0x0, 0x0, 0x0, 0, false⟩, -- ENDS
  ⟨0x2C, 0x0, 1, 0x0, 1, 0xF37, 0x0, 0x0, 0x0, 0x0, 0x0, 0, false⟩, -- SHUF
  ⟨0x30, 0x0, 1, 0x0, 1, 0xFFFFFFFF, 0x0, 0x0, 0x0, 0x0, 0x0, 0, false⟩, -- PLANE_STRIDE
  ⟨0x34, 0x0, 1, 0x0, 1, 0x1FF01FF, 0x0, 0x0, 0x0, 0x0, 0x0, 0, false⟩, -- RING
  ⟨0x38, 0x0, 1, 0x0, 1, 0xFFFFFFFF, 0x0, 0x0, 0x0, 0x0, 0x0, 0, false⟩, -- SLOT
  ⟨0x3C, 0x0, 1, 0x0, 1, 0xFFFFFF, 0x0, 0x0, 0x0, 0x0, 0x0, 0, false⟩, -- NEED
  ⟨0x40, 0x0, 1, 0x0, 1, 0x807FFFFF, 0x0, 0x0, 0x0, 0x0, 0x0, 0, false⟩, -- STAT_ADDR
  ⟨0x44, 0x0, 1, 0x0, 1, 0x9FFFFFFF, 0x0, 0x0, 0x0, 0x0, 0x0, 0, false⟩, -- EVENT
  ⟨0x48, 0x0, 1, 0x0, 1, 0xFFFFFFFF, 0x0, 0x0, 0x0, 0x0, 0xFFFFFFFF, 0, false⟩, -- DL_LO, DL_HI [0]
  ⟨0x4C, 0x0, 1, 0x0, 1, 0xFFFFFFFF, 0x0, 0x0, 0x0, 0x0, 0xFFFFFFFF, 0, false⟩, -- DL_LO, DL_HI [1]
  ⟨0x50, 0x0, 1, 0x0, 1, 0x73, 0x0, 0x0, 0x0, 0x0, 0x0, 0, false⟩, -- FLAGS
  ⟨0x80, 0x0, 1, 0x0, 1, 0x0, 0x0, 0x0, 0x7, 0x0, 0x0, 0, false⟩, -- CTL
  ⟨0x84, 0x0, 1, 0x0, 1, 0x0, 0xFF0F, 0x0, 0x0, 0x0, 0x0, 0, false⟩, -- STATE
  ⟨0x88, 0x0, 1, 0x0, 1, 0x0, 0xFFFFFF, 0x0, 0x0, 0x0, 0x0, 0, false⟩, -- LINES_LEFT
  ⟨0x8C, 0x0, 1, 0x0, 1, 0x0, 0xFFFFFF, 0x0, 0x0, 0x0, 0x0, 0, false⟩, -- BYTES_LEFT
  ⟨0x90, 0x0, 1, 0x0, 1, 0x0, 0xFFFFFFFF, 0x0, 0x0, 0x0, 0x0, 0, false⟩, -- NEED_LO, NEED_HI [0]
  ⟨0x94, 0x0, 1, 0x0, 1, 0x0, 0xFFFFFFFF, 0x0, 0x0, 0x0, 0x0, 0, false⟩, -- NEED_LO, NEED_HI [1]
  ⟨0x98, 0x0, 1, 0x0, 1, 0x0, 0xFFFFFFFF, 0x0, 0x0, 0x0, 0x0, 0, false⟩ -- MOVED
  ]

/-- Registers of the DMAC block (R250). -/
def dmacRegs : List RegEntry := [
  ⟨0x0, 0x0, 1, 0x0, 1, 0x0, 0xFFFFFFFF, 0x0, 0x0, 0x0, 0x0, 0, false⟩, -- BUSY_LO, BUSY_HI [0]
  ⟨0x4, 0x0, 1, 0x0, 1, 0x0, 0xFFFFFFFF, 0x0, 0x0, 0x0, 0x0, 0, false⟩, -- BUSY_LO, BUSY_HI [1]
  ⟨0x8, 0x0, 1, 0x0, 1, 0x0, 0x0, 0x3, 0x0, 0x0, 0x0, 0, false⟩, -- ERR
  ⟨0x10, 0x4, 8, 0x0, 1, 0x0, 0xFFFFFFFF, 0x0, 0x0, 0x0, 0x0, 0, true⟩ -- CNTi
  ]

/-- Registers of the XLT block (R251). -/
def xltRegs : List RegEntry := [
  ⟨0x0, 0x0, 1, 0x0, 1, 0xFFFFFF, 0x0, 0x0, 0x0, 0x0, 0x0, 0, false⟩, -- INV_PAGE
  ⟨0x4, 0x0, 1, 0x0, 1, 0x1FFFFFF, 0x0, 0x0, 0x0, 0x0, 0x0, 0, false⟩, -- INV_COUNT
  ⟨0x8, 0x0, 1, 0x0, 1, 0x0, 0x0, 0x0, 0x1, 0x0, 0x0, 0, false⟩, -- INV_CTL
  ⟨0xC, 0x0, 1, 0x0, 1, 0x0, 0x3, 0x0, 0x0, 0x0, 0x0, 0, false⟩, -- STATUS
  ⟨0x10, 0x0, 1, 0x0, 1, 0xFFFFFF, 0x0, 0x0, 0x0, 0x0, 0x0, 0, false⟩, -- PTE_IDX
  ⟨0x14, 0x0, 1, 0x0, 1, 0xFFFFFFFF, 0x0, 0x0, 0x0, 0x0, 0x0, 0, false⟩, -- PTE_LO, PTE_HI [0]
  ⟨0x18, 0x0, 1, 0x0, 1, 0xFFFFFFFF, 0x0, 0x0, 0x0, 0x0, 0x0, 0, false⟩, -- PTE_LO, PTE_HI [1]
  ⟨0x1C, 0x0, 1, 0x0, 1, 0x0, 0x0, 0x0, 0x3, 0x0, 0x0, 0, false⟩, -- PTE_CTL
  ⟨0x20, 0x0, 1, 0x0, 1, 0x0, 0xFFFFFFFF, 0x0, 0x0, 0x0, 0x0, 0, false⟩, -- FAULT_LO, FAULT_HI [0]
  ⟨0x24, 0x0, 1, 0x0, 1, 0x0, 0xFFFF, 0x0, 0x0, 0x0, 0x0, 0, false⟩, -- FAULT_LO, FAULT_HI [1]
  ⟨0x28, 0x0, 1, 0x0, 1, 0x0, 0xFF07, 0x0, 0x0, 0x0, 0x0, 0, false⟩, -- FAULT_INFO
  ⟨0x30, 0x0, 1, 0x0, 1, 0x0, 0x0, 0x1, 0x0, 0x0, 0x0, 0, false⟩, -- ERR
  ⟨0x40, 0x4, 6, 0x0, 1, 0x0, 0xFFFFFFFF, 0x0, 0x0, 0x0, 0x0, 0, true⟩ -- CNTi
  ]

/-- Registers of the MEMC block (R252). -/
def memcRegs : List RegEntry := [
  ⟨0x0, 0x0, 1, 0x0, 1, 0x0, 0xD, 0x0, 0x0, 0x0, 0x0, 0, false⟩, -- STATUS
  ⟨0x4, 0x0, 1, 0x0, 1, 0x0, 0x0, 0x7, 0x0, 0x0, 0x0, 0, false⟩, -- ERR
  ⟨0x8, 0x0, 1, 0x0, 1, 0x0, 0xFFFFFFFF, 0x0, 0x0, 0x0, 0x0, 0, false⟩, -- CE_ADDR_LO, HI [0]
  ⟨0xC, 0x0, 1, 0x0, 1, 0x0, 0xF, 0x0, 0x0, 0x0, 0x0, 0, false⟩, -- CE_ADDR_LO, HI [1]
  ⟨0x10, 0x0, 1, 0x0, 1, 0x0, 0xFFFFFFFF, 0x0, 0x0, 0x0, 0x0, 0, false⟩, -- UE_ADDR_LO, HI [0]
  ⟨0x14, 0x0, 1, 0x0, 1, 0x0, 0xF, 0x0, 0x0, 0x0, 0x0, 0, false⟩, -- UE_ADDR_LO, HI [1]
  ⟨0x18, 0x0, 1, 0x0, 1, 0xFFFFFFFF, 0x0, 0x0, 0x0, 0x0, 0x0, 0, false⟩, -- HASH_IN_LO, HI [0]
  ⟨0x1C, 0x0, 1, 0x0, 1, 0xF, 0x0, 0x0, 0x0, 0x0, 0x0, 0, false⟩, -- HASH_IN_LO, HI [1]
  ⟨0x20, 0x0, 1, 0x0, 1, 0x0, 0xFFFFF, 0x0, 0x0, 0x0, 0x0, 0, false⟩, -- HASH_OUT
  ⟨0x24, 0x0, 1, 0x0, 1, 0x0, 0xF1, 0x0, 0x0, 0x0, 0x0, 0, false⟩, -- IMB_STATE
  ⟨0x28, 0x0, 1, 0x0, 1, 0x0, 0xFFFFFFFF, 0x0, 0x0, 0x0, 0x0, 0, true⟩, -- IMB_MS
  ⟨0x2C, 0x0, 1, 0x0, 1, 0x7FFFFFF, 0x0, 0x0, 0x0, 0x0, 0x0, 0, false⟩, -- IMB_EVENT
  ⟨0x40, 0x4, 16, 0x0, 1, 0x0, 0x3F, 0x0, 0x0, 0x0, 0x0, 0, false⟩, -- QDEPTHc
  ⟨0x80, 0x4, 16, 0x0, 1, 0x0, 0xFFFFFFFF, 0x0, 0x0, 0x0, 0x0, 0, true⟩, -- BURSTSc
  ⟨0xC0, 0x4, 8, 0x0, 1, 0x0, 0xFFFFFFFF, 0x0, 0x0, 0x0, 0x0, 0, true⟩ -- CNTi
  ]

/-- Registers of the ME block (R281). -/
def meRegs : List RegEntry := [
  ⟨0x0, 0x0, 1, 0x0, 1, 0x1, 0x0, 0x0, 0x0, 0x0, 0x0, 0, false⟩, -- CTL
  ⟨0x4, 0x0, 1, 0x0, 1, 0x0, 0xF1F1F, 0x0, 0x0, 0x0, 0x0, 0, false⟩, -- STATUS
  ⟨0x8, 0x0, 1, 0x0, 1, 0x0, 0x0, 0x0, 0x807FFFFF, 0x0, 0x0, 0, false⟩, -- START
  ⟨0xC, 0x0, 1, 0x0, 1, 0x0, 0x0, 0xF, 0x0, 0x0, 0x0, 0, false⟩, -- ERR
  ⟨0x10, 0x0, 1, 0x0, 1, 0xFFFFFFFF, 0x0, 0x0, 0x0, 0x0, 0xFFFFFFFF, 0, false⟩, -- START_DL_LO, HI [0]
  ⟨0x14, 0x0, 1, 0x0, 1, 0xFFFFFFFF, 0x0, 0x0, 0x0, 0x0, 0xFFFFFFFF, 0, false⟩, -- START_DL_LO, HI [1]
  ⟨0x18, 0x0, 1, 0x0, 1, 0x0, 0x0, 0x0, 0x80000001, 0x0, 0x0, 0, false⟩, -- STOP
  ⟨0x1C, 0x0, 1, 0x0, 1, 0x0, 0xFFFF, 0x0, 0x0, 0x0, 0x1, 0, false⟩, -- RNG
  ⟨0x20, 0x4, 8, 0x0, 1, 0x0, 0xFFFFFFFF, 0x0, 0x0, 0x0, 0x0, 0, true⟩, -- CNTi
  ⟨0x100, 0x20, 2, 0x0, 1, 0x0, 0xF0FFFFFF, 0x0, 0x0, 0x0, 0x0, 0, false⟩, -- CTXc.STATE
  ⟨0x104, 0x20, 2, 0x0, 1, 0x0, 0x7FFFFF, 0x0, 0x0, 0x0, 0x0, 0, false⟩, -- CTXc.LAUNCH
  ⟨0x108, 0x20, 2, 0x0, 1, 0x0, 0xFFFFFFFF, 0x0, 0x0, 0x0, 0x0, 0, false⟩, -- CTXc.UNIT
  ⟨0x10C, 0x20, 2, 0x0, 1, 0x0, 0x1FFF, 0x0, 0x0, 0x0, 0x0, 0, false⟩ -- CTXc.FMT
  ]

/-- Registers of the GCX block (R312). -/
def gcxRegs : List RegEntry := [
  ⟨0x0, 0x0, 1, 0x0, 1, 0x7FFFFF, 0x0, 0x0, 0x0, 0x0, 0x0, 0, false⟩, -- SAVE_BASE
  ⟨0x4, 0x0, 1, 0x0, 1, 0x7FF, 0x0, 0x0, 0x0, 0x0, 0x0, 0, false⟩, -- SAVE_SLOTS
  ⟨0x8, 0x0, 1, 0x0, 1, 0x0, 0x7FF, 0x0, 0x0, 0x0, 0x0, 0, false⟩, -- SAVE_FREE
  ⟨0xC, 0x0, 1, 0x0, 1, 0x0, 0x0, 0x3, 0x0, 0x0, 0x0, 0, false⟩, -- ERR
  ⟨0x10, 0x0, 1, 0x0, 1, 0x0, 0xF3F, 0x0, 0x0, 0x0, 0x0, 0, false⟩, -- FAULT
  ⟨0x20, 0x4, 6, 0x0, 1, 0x0, 0xFFFFFFFF, 0x0, 0x0, 0x0, 0x0, 0, true⟩ -- CNTi
  ]

/-- Registers of the GCCORE block (R312). -/
def gcCoreRegs : List RegEntry := [
  ⟨0x0, 0x0, 1, 0x0, 1, 0x1, 0x0, 0x0, 0x2, 0x0, 0x0, 0, false⟩, -- CTL
  ⟨0x4, 0x0, 1, 0x0, 1, 0x0, 0xFFFFFFFF, 0x0, 0x0, 0x0, 0x0, 0, false⟩, -- STATUS
  ⟨0x8, 0x0, 1, 0x0, 1, 0x0, 0xFFFFFFFF, 0x0, 0x0, 0x0, 0x0, 0, true⟩ -- ISSUED
  ]

/-- Registers of the SHP block (R327). -/
def shpRegs : List RegEntry := [
  ⟨0x0, 0x0, 1, 0x0, 1, 0x1, 0x0, 0x0, 0x0, 0x0, 0x0, 0, false⟩, -- CTL
  ⟨0x4, 0x0, 1, 0x0, 1, 0x0, 0x3FF3FFF, 0x0, 0x0, 0x0, 0x0, 0, false⟩, -- STATUS
  ⟨0x8, 0x0, 1, 0x0, 1, 0x0, 0x1FFFFF, 0x0, 0x0, 0x0, 0x0, 0, false⟩, -- SPILL_DEPTH
  ⟨0xC, 0x0, 1, 0x0, 1, 0x0, 0x0, 0xF, 0x0, 0x0, 0x0, 0, false⟩, -- ERR
  ⟨0x10, 0x4, 4, 0x0, 1, 0x0, 0x7FFF, 0x0, 0x0, 0x0, 0x0, 0, false⟩, -- PADp.DEPTH
  ⟨0x20, 0x4, 4, 0x0, 1, 0x0, 0x1FFFFF, 0x0, 0x0, 0x0, 0x0, 0, false⟩, -- PADp.SPILL
  ⟨0x30, 0x4, 4, 0x0, 1, 0xFFFFFFFF, 0x0, 0x0, 0x0, 0x0, 0x0, 0, false⟩, -- HOST_EVi
  ⟨0x40, 0x0, 1, 0x0, 1, 0x0, 0x0, 0x0, 0x80000000, 0x0, 0x0, 0, false⟩, -- HOST_GO
  ⟨0x50, 0x0, 1, 0x0, 1, 0x3, 0x0, 0x0, 0x0, 0x0, 0x0, 0, false⟩, -- TRACE_CTL
  ⟨0x54, 0x0, 1, 0x0, 1, 0x7FFFFF, 0x0, 0x0, 0x0, 0x0, 0x0, 0, false⟩, -- TRACE_BASE
  ⟨0x58, 0x0, 1, 0x0, 1, 0x7F7F7F7F, 0x0, 0x0, 0x0, 0x0, 0x0, 0, false⟩, -- TRACE_SEL0, SEL1 [0]
  ⟨0x5C, 0x0, 1, 0x0, 1, 0x7F7F7F7F, 0x0, 0x0, 0x0, 0x0, 0x0, 0, false⟩, -- TRACE_SEL0, SEL1 [1]
  ⟨0x60, 0x0, 1, 0x0, 1, 0x0, 0xFFFFFFFF, 0x0, 0x0, 0x0, 0x0, 0, false⟩, -- TRACE_HEAD
  ⟨0x80, 0x4, 8, 0x0, 1, 0x0, 0xFFFFFFFF, 0x0, 0x0, 0x0, 0x0, 0, true⟩, -- CNTi
  ⟨0x200, 0x4, 64, 0x0, 1, 0x0, 0xFFFFFFFF, 0x0, 0x0, 0x0, 0x0, 0, true⟩, -- LOADk
  ⟨0x400, 0x40, 8, 0x4, 16, 0x0, 0xFFFFFFFF, 0x0, 0x0, 0x0, 0x0, 0, true⟩ -- HISTc.b
  ]

/-- Registers of the TXP block (R353). -/
def txpRegs : List RegEntry := [
  ⟨0x0, 0x0, 1, 0x0, 1, 0x1, 0x1E, 0x0, 0x0, 0x0, 0x8, 0, false⟩, -- CTL
  ⟨0x4, 0x0, 1, 0x0, 1, 0x1FFFF, 0x0, 0x0, 0x0, 0x0, 0x688, 0, false⟩, -- LANE_MAP
  ⟨0x8, 0x0, 1, 0x0, 1, 0x0, 0xFFFF, 0x0, 0x0, 0x0, 0x5DC, 0, false⟩, -- RATE
  ⟨0xC, 0x0, 1, 0x0, 1, 0x0, 0x7FFFF01, 0x0, 0x0, 0x0, 0x0, 0, false⟩, -- STATUS
  ⟨0x10, 0x0, 1, 0x0, 1, 0x0, 0xFFFFFFFF, 0x0, 0x0, 0x0, 0x0, 0, false⟩, -- OPEN_VC
  ⟨0x14, 0x0, 1, 0x0, 1, 0x0, 0x0, 0x1, 0x0, 0x0, 0x0, 0, false⟩, -- ERR
  ⟨0x20, 0x4, 6, 0x0, 1, 0x0, 0xFFFFFFFF, 0x0, 0x0, 0x0, 0x0, 0, true⟩ -- CNTi
  ]

/-- Registers of the PEER block (R354). -/
def peerRegs : List RegEntry := [
  ⟨0x0, 0x0, 1, 0x0, 1, 0xFF, 0x0, 0x0, 0x0, 0x0, 0x0, 0, false⟩, -- ID
  ⟨0x4, 0x0, 1, 0x0, 1, 0xFFFFFF, 0x0, 0x0, 0x0, 0x0, 0x1E848, 0, false⟩ -- DOWN_DT
  ]

/-- Registers of the PL block (R354). -/
def plRegs : List RegEntry := [
  ⟨0x0, 0x0, 1, 0x0, 1, 0x1, 0x0, 0x0, 0x2, 0x0, 0x0, 0, false⟩, -- CTL
  ⟨0x4, 0x0, 1, 0x0, 1, 0x0, 0xFFFFF03, 0x0, 0x0, 0x0, 0x0, 0, false⟩, -- STATUS
  ⟨0x8, 0x0, 1, 0x0, 1, 0x0, 0x3F00, 0x3, 0x0, 0x0, 0x0, 0, false⟩, -- ERR
  ⟨0x20, 0x4, 8, 0x0, 1, 0x0, 0xFFFFFFFF, 0x0, 0x0, 0x0, 0x0, 0, true⟩ -- CNTi
  ]

/-- Registers of the FLK block (R355). -/
def flkRegs : List RegEntry := [
  ⟨0x0, 0x0, 1, 0x0, 1, 0x0, 0xFFF, 0x0, 0x0, 0x0, 0x0, 0, false⟩, -- FLKi.STATE
  ⟨0x4, 0x0, 1, 0x0, 1, 0xF, 0x0, 0x0, 0x0, 0x0, 0x0, 0, false⟩, -- FLKi.SEL
  ⟨0x8, 0x0, 1, 0x0, 1, 0x0, 0xFFFF, 0x0, 0x0, 0x0, 0x0, 0, false⟩, -- FLKi.TAIL
  ⟨0xC, 0x0, 1, 0x0, 1, 0x0, 0xFFFFFFFF, 0x0, 0x0, 0x0, 0x0, 0, true⟩, -- FLKi.CUTS
  ⟨0x10, 0x0, 1, 0x0, 1, 0x0, 0xFFFFFFFF, 0x0, 0x0, 0x0, 0x0, 0, true⟩, -- FLKi.SHED
  ⟨0x14, 0x0, 1, 0x0, 1, 0x0, 0xFFFFFFFF, 0x0, 0x0, 0x0, 0x0, 0, true⟩, -- FLKi.REJOINS
  ⟨0x18, 0x0, 1, 0x0, 1, 0x0, 0xFFFFFFFF, 0x0, 0x0, 0x0, 0x0, 0, true⟩ -- FLKi.STRAYS
  ]

/-- Registers of the I3C block (R375). -/
def i3cRegs : List RegEntry := [
  ⟨0x0, 0x0, 1, 0x0, 1, 0xF, 0x0, 0x0, 0x0, 0x0, 0xF, 0, false⟩, -- CTL
  ⟨0x4, 0x0, 1, 0x0, 1, 0x0, 0x1FFFFF, 0x0, 0x0, 0x0, 0x108000, 0, false⟩, -- STATUS
  ⟨0x8, 0x0, 1, 0x0, 1, 0x0, 0xFFFFFFFF, 0x0, 0x0, 0x0, 0x0, 0, false⟩, -- PID_LO
  ⟨0xC, 0x0, 1, 0x0, 1, 0x0, 0xFFFFFFFF, 0x0, 0x0, 0x0, 0x260000, 0, false⟩, -- PID_HI
  ⟨0x10, 0x0, 1, 0x0, 1, 0x0, 0x0, 0x1FFF, 0x0, 0x0, 0x0, 0, false⟩, -- EVSUM
  ⟨0x14, 0x0, 1, 0x0, 1, 0x1FFF, 0x0, 0x0, 0x0, 0x0, 0x1FFF, 0, false⟩, -- IBI_EN
  ⟨0x18, 0x0, 1, 0x0, 1, 0x1FFF, 0x0, 0x0, 0x0, 0x0, 0x1FFF, 0, false⟩, -- ALERT_EN
  ⟨0x1C, 0x0, 1, 0x0, 1, 0xFFFFFF, 0x0, 0x0, 0x0, 0x0, 0x4E2, 0, false⟩, -- IBI_RETRY
  ⟨0x20, 0x4, 8, 0x0, 1, 0x0, 0xFFFFFFFF, 0x0, 0x0, 0x0, 0x0, 0, true⟩, -- CNTi
  ⟨0x40, 0x10, 4, 0x0, 1, 0x0, 0x7F1F, 0x0, 0x0, 0x0, 0x0, 0, false⟩, -- SESSs.STATE
  ⟨0x44, 0x10, 4, 0x0, 1, 0x0, 0xFFFFFFFF, 0x0, 0x0, 0x0, 0x0, 0, false⟩, -- SESSs.COUNT
  ⟨0x48, 0x10, 4, 0x0, 1, 0x0, 0x0, 0x0, 0x1, 0x0, 0x0, 0, false⟩ -- SESSs.CLOSE
  ]

/-- Registers of the LOG block (R376). -/
def logRegs : List RegEntry := [
  ⟨0x0, 0x0, 1, 0x0, 1, 0x0, 0x7FF0005, 0xA, 0x0, 0x0, 0x0, 0, false⟩, -- STATUS
  ⟨0x4, 0x0, 1, 0x0, 1, 0x0, 0xFFFFFFFF, 0x0, 0x0, 0x0, 0x0, 0, false⟩, -- HEAD_LO, HI [0]
  ⟨0x8, 0x0, 1, 0x0, 1, 0x0, 0xFFFFFFFF, 0x0, 0x0, 0x0, 0x0, 0, false⟩, -- HEAD_LO, HI [1]
  ⟨0xC, 0x0, 1, 0x0, 1, 0x0, 0xFFFFFFFF, 0x0, 0x0, 0x0, 0x0, 0, false⟩, -- FLUSHED_LO, HI [0]
  ⟨0x10, 0x0, 1, 0x0, 1, 0x0, 0xFFFFFFFF, 0x0, 0x0, 0x0, 0x0, 0, false⟩, -- FLUSHED_LO, HI [1]
  ⟨0x14, 0x0, 1, 0x0, 1, 0x0, 0xFFFFFFFF, 0x0, 0x0, 0x0, 0x0, 0, false⟩, -- OLDEST_LO, HI [0]
  ⟨0x18, 0x0, 1, 0x0, 1, 0x0, 0xFFFFFFFF, 0x0, 0x0, 0x0, 0x0, 0, false⟩, -- OLDEST_LO, HI [1]
  ⟨0x20, 0x4, 4, 0x0, 1, 0x0, 0xFFFFFFFF, 0x0, 0x0, 0x0, 0x0, 0, false⟩, -- HASHi
  ⟨0x40, 0x0, 1, 0x0, 1, 0xFFFFFFFF, 0x0, 0x0, 0x0, 0x0, 0x0, 0, false⟩, -- RD_SEQ_LO, HI [0]
  ⟨0x44, 0x0, 1, 0x0, 1, 0xFFFFFFFF, 0x0, 0x0, 0x0, 0x0, 0x0, 0, false⟩, -- RD_SEQ_LO, HI [1]
  ⟨0x48, 0x0, 1, 0x0, 1, 0x0, 0x0, 0x0, 0x1, 0x0, 0x0, 0, false⟩, -- RD_CTL
  ⟨0x4C, 0x0, 1, 0x0, 1, 0x0, 0x7, 0x0, 0x0, 0x0, 0x0, 0, false⟩, -- RD_STATE
  ⟨0x80, 0x4, 16, 0x0, 1, 0x0, 0xFFFFFFFF, 0x0, 0x0, 0x0, 0x0, 0, false⟩, -- RD_DATAi
  ⟨0x100, 0x0, 1, 0x0, 1, 0xFFFFFFFF, 0x0, 0x0, 0x0, 0x0, 0x0, 0, false⟩, -- MIRROR_LO, HI [0]
  ⟨0x104, 0x0, 1, 0x0, 1, 0xFFFF, 0x0, 0x0, 0x0, 0x0, 0x0, 0, false⟩, -- MIRROR_LO, HI [1]
  ⟨0x108, 0x0, 1, 0x0, 1, 0x3FFFFF, 0x0, 0x0, 0x0, 0x0, 0x0, 0, false⟩, -- MIRROR_SLOTS
  ⟨0x10C, 0x0, 1, 0x0, 1, 0x1, 0x0, 0x0, 0x0, 0x0, 0x0, 0, false⟩, -- MIRROR_CTL
  ⟨0x110, 0x0, 1, 0x0, 1, 0x0, 0xFFFFFFFF, 0x0, 0x0, 0x0, 0x0, 0, false⟩, -- MIRROR_HEAD_LO, HI [0]
  ⟨0x114, 0x0, 1, 0x0, 1, 0x0, 0xFFFFFFFF, 0x0, 0x0, 0x0, 0x0, 0, false⟩, -- MIRROR_HEAD_LO, HI [1]
  ⟨0x120, 0x4, 5, 0x0, 1, 0x0, 0xFFFFFFFF, 0x0, 0x0, 0x0, 0x0, 0, true⟩ -- CNTi
  ]

/-- Registers of the CLK block (R394). -/
def clkRegs : List RegEntry := [
  ⟨0x0, 0x0, 1, 0x0, 1, 0x1, 0x0, 0x0, 0x0, 0x0, 0x0, 0, false⟩, -- CTL
  ⟨0x4, 0x0, 1, 0x0, 1, 0x0, 0xF, 0x0, 0x0, 0x0, 0x2, 0, false⟩, -- STATUS
  ⟨0x8, 0x0, 1, 0x0, 1, 0x0, 0x0, 0x3, 0x0, 0x0, 0x0, 0, false⟩, -- ERR
  ⟨0xC, 0x0, 1, 0x0, 1, 0x0, 0x1FFF, 0x0, 0x0, 0x0, 0x0, 0, false⟩, -- MON_COUNT
  ⟨0x10, 0x0, 1, 0x0, 1, 0x0, 0xFFFF, 0x0, 0x0, 0x0, 0x0, 0, false⟩, -- STABLE_RUN
  ⟨0x14, 0x0, 1, 0x0, 1, 0x0, 0x3FF, 0x0, 0x0, 0x0, 0x0, 0, false⟩, -- TRIM
  ⟨0x18, 0x0, 1, 0x0, 1, 0x0, 0xFFFFFFFF, 0x0, 0x0, 0x0, 0x1400000, 0, false⟩, -- DT_INC
  ⟨0x20, 0x0, 1, 0x0, 1, 0x0, 0xFFFFFFFF, 0x0, 0x0, 0x0, 0x0, 0, false⟩, -- DT_LO, DT_HI [0]
  ⟨0x24, 0x0, 1, 0x0, 1, 0x0, 0xFFFFFFFF, 0x0, 0x0, 0x0, 0x0, 0, false⟩, -- DT_LO, DT_HI [1]
  ⟨0x28, 0x0, 1, 0x0, 1, 0x0, 0xFFFFFFFF, 0x0, 0x0, 0x0, 0x0, 0, false⟩, -- FAIL_DT_LO, HI [0]
  ⟨0x2C, 0x0, 1, 0x0, 1, 0x0, 0xFFFFFFFF, 0x0, 0x0, 0x0, 0x0, 0, false⟩, -- FAIL_DT_LO, HI [1]
  ⟨0x30, 0x0, 1, 0x0, 1, 0x0, 0xFFFFFFFF, 0x0, 0x0, 0x0, 0x0, 0, false⟩, -- RETURN_DT_LO, HI [0]
  ⟨0x34, 0x0, 1, 0x0, 1, 0x0, 0xFFFFFFFF, 0x0, 0x0, 0x0, 0x0, 0, false⟩, -- RETURN_DT_LO, HI [1]
  ⟨0x40, 0x4, 4, 0x0, 1, 0x0, 0xFFFFFFFF, 0x0, 0x0, 0x0, 0x0, 0, true⟩ -- CNTi
  ]

/-- Registers of the PWR block (R395). -/
def pwrRegs : List RegEntry := [
  ⟨0x0, 0x0, 1, 0x0, 1, 0x0, 0x7, 0x0, 0x0, 0x0, 0x2, 0, false⟩, -- STATE
  ⟨0x4, 0x0, 1, 0x0, 1, 0x17, 0x0, 0x0, 0x0, 0x0, 0x4, 0, false⟩, -- CTL
  ⟨0x8, 0x0, 1, 0x0, 1, 0xFFFFFF, 0x0, 0x0, 0x0, 0x0, 0x4E2, 0, false⟩, -- IDLE_DELAY
  ⟨0xC, 0x0, 1, 0x0, 1, 0xF, 0x0, 0x0, 0x0, 0x0, 0x1, 0, false⟩, -- WAKE_EN
  ⟨0x10, 0x0, 1, 0x0, 1, 0xFFFFFFFF, 0x0, 0x0, 0x0, 0x0, 0x0, 0, false⟩, -- WAKE_DT_LO, HI [0]
  ⟨0x14, 0x0, 1, 0x0, 1, 0xFFFFFFFF, 0x0, 0x0, 0x0, 0x0, 0x0, 0, false⟩, -- WAKE_DT_LO, HI [1]
  ⟨0x18, 0x0, 1, 0x0, 1, 0x0, 0x3F, 0x0, 0x0, 0x0, 0x0, 0, false⟩, -- WAKE_CAUSE
  ⟨0x1C, 0x0, 1, 0x0, 1, 0x0, 0x1F, 0x0, 0x0, 0x0, 0x0, 0, false⟩, -- MON
  ⟨0x20, 0x0, 1, 0x0, 1, 0x0, 0xFFFF, 0x0, 0x0, 0x0, 0x0, 0, false⟩, -- INLET_TEMP
  ⟨0x24, 0x0, 1, 0x0, 1, 0x0, 0xFFFF, 0x0, 0x0, 0x0, 0x0, 0, false⟩, -- HUB_TEMP
  ⟨0x28, 0x0, 1, 0x0, 1, 0x0, 0xFFFF, 0x0, 0x0, 0x0, 0x0, 0, false⟩, -- V48
  ⟨0x30, 0x0, 1, 0x0, 1, 0x0, 0xFFFFFFFF, 0x0, 0x0, 0x0, 0x0, 0, false⟩, -- PF_DT_LO, HI [0]
  ⟨0x34, 0x0, 1, 0x0, 1, 0x0, 0xFFFFFFFF, 0x0, 0x0, 0x0, 0x0, 0, false⟩, -- PF_DT_LO, HI [1]
  ⟨0x40, 0x4, 5, 0x0, 1, 0x0, 0xFFFFFFFF, 0x0, 0x0, 0x0, 0x0, 0, true⟩ -- CNTi
  ]

/-- Registers of the TEL block (R409). -/
def telRegs : List RegEntry := [
  ⟨0x0, 0x0, 1, 0x0, 1, 0x0, 0x1B, 0x64, 0x0, 0x0, 0x0, 0, false⟩, -- STATUS
  ⟨0x4, 0x0, 1, 0x0, 1, 0x0, 0xFFFFFFFF, 0x0, 0x0, 0x0, 0x0, 0, false⟩, -- SEQ_LO, HI [0]
  ⟨0x8, 0x0, 1, 0x0, 1, 0x0, 0xFFFFFFFF, 0x0, 0x0, 0x0, 0x0, 0, false⟩, -- SEQ_LO, HI [1]
  ⟨0x10, 0x0, 1, 0x0, 1, 0xFFFF, 0x0, 0x0, 0x0, 0x0, 0x2D00, 0, false⟩, -- INLET_WARN
  ⟨0x14, 0x0, 1, 0x0, 1, 0xFFFF, 0x0, 0x0, 0x0, 0x0, 0x5F00, 0, false⟩, -- DIE_WARN
  ⟨0x18, 0x0, 1, 0x0, 1, 0xFFFF, 0x0, 0x0, 0x0, 0x0, 0x6E00, 0, false⟩, -- DIE_TRIP
  ⟨0x20, 0x4, 4, 0x0, 1, 0x0, 0xFFFF, 0x0, 0x0, 0x0, 0x0, 0, false⟩, -- DIE_TEMPq
  ⟨0x30, 0x4, 4, 0x0, 1, 0xFFFF, 0x0, 0x0, 0x0, 0x0, 0x0, 0, false⟩, -- VSETq
  ⟨0x40, 0x4, 4, 0x0, 1, 0x0, 0xFFFF, 0x0, 0x0, 0x0, 0x0, 0, false⟩, -- MARGINq
  ⟨0x60, 0x0, 1, 0x0, 1, 0x0, 0xFFFFFFFF, 0x0, 0x0, 0x0, 0x0, 0, false⟩, -- NAND_WEAR
  ⟨0x64, 0x0, 1, 0x0, 1, 0x0, 0xFFFFFFFF, 0x0, 0x0, 0x0, 0x0, 0, false⟩, -- NAND_BLOCKS
  ⟨0x70, 0x0, 1, 0x0, 1, 0xFFFFFFFF, 0x0, 0x0, 0x0, 0x0, 0x0, 0, false⟩, -- MIRROR_LO, HI [0]
  ⟨0x74, 0x0, 1, 0x0, 1, 0xFFFF, 0x0, 0x0, 0x0, 0x0, 0x0, 0, false⟩, -- MIRROR_LO, HI [1]
  ⟨0x78, 0x0, 1, 0x0, 1, 0x3FFFFF, 0x0, 0x0, 0x0, 0x0, 0x0, 0, false⟩, -- MIRROR_SLOTS
  ⟨0x7C, 0x0, 1, 0x0, 1, 0x1, 0x0, 0x0, 0x0, 0x0, 0x0, 0, false⟩, -- MIRROR_CTL
  ⟨0x80, 0x4, 8, 0x0, 1, 0x0, 0xFFFFFFFF, 0x0, 0x0, 0x0, 0x0, 0, true⟩ -- CNTi
  ]

/-- Registers of the SEC block (R428). -/
def secRegs : List RegEntry := [
  ⟨0x0, 0x0, 1, 0x0, 1, 0x0, 0x1FFF, 0x0, 0x0, 0x0, 0x0, 0, false⟩, -- STATUS
  ⟨0x4, 0x0, 1, 0x0, 1, 0x0, 0x3F, 0x0, 0x0, 0x0, 0x0, 0, false⟩, -- ROLLBACK
  ⟨0x8, 0x0, 1, 0x0, 1, 0x0, 0xFFFF000F, 0x0, 0x0, 0x0, 0x0, 0, false⟩, -- REVOKED
  ⟨0x10, 0x0, 1, 0x0, 1, 0x0, 0xFFFFFFFF, 0x0, 0x0, 0x0, 0x0, 0, false⟩, -- INSTALL_LO, HI [0]
  ⟨0x14, 0x0, 1, 0x0, 1, 0x0, 0xFFFFFFFF, 0x0, 0x0, 0x0, 0x0, 0, false⟩, -- INSTALL_LO, HI [1]
  ⟨0x18, 0x0, 1, 0x0, 1, 0x0, 0xFFFFFF, 0x0, 0x0, 0x0, 0xFFFFFF, 0, false⟩, -- SLOT
  ⟨0x20, 0x0, 1, 0x0, 1, 0x1FF00, 0x0, 0x0, 0x7, 0x0, 0x0, 0, false⟩, -- FW_CTL
  ⟨0x24, 0x0, 1, 0x0, 1, 0x0, 0xFF07, 0x0, 0x0, 0x0, 0x0, 0, false⟩, -- FW_STATE
  ⟨0x28, 0x0, 1, 0x0, 1, 0x0, 0x1, 0x0, 0x0, 0x0, 0x0, 0, false⟩, -- FW_BOOT
  ⟨0x2C, 0x0, 1, 0x0, 1, 0x0, 0xFFFFFFFF, 0x0, 0x0, 0x0, 0x0, 0, false⟩, -- FW_GEN0, FW_GEN1 [0]
  ⟨0x30, 0x0, 1, 0x0, 1, 0x0, 0xFFFFFFFF, 0x0, 0x0, 0x0, 0x0, 0, false⟩, -- FW_GEN0, FW_GEN1 [1]
  ⟨0x40, 0x0, 1, 0x0, 1, 0x0, 0x0, 0x0, 0x8000003F, 0x0, 0x0, 0, false⟩, -- ADV
  ⟨0x44, 0x0, 1, 0x0, 1, 0x0, 0x0, 0x0, 0x8000010F, 0x0, 0x0, 0, false⟩, -- REVOKE
  ⟨0x48, 0x0, 1, 0x0, 1, 0x0, 0xFF, 0x0, 0x0, 0x0, 0x0, 0, false⟩, -- OP_STATUS
  ⟨0x50, 0x0, 1, 0x0, 1, 0x0, 0x0, 0x0, 0x1F, 0x0, 0x0, 0, false⟩, -- DBG_CTL
  ⟨0x54, 0x0, 1, 0x0, 1, 0x0, 0xFFFFFF1F, 0x0, 0x0, 0x0, 0x0, 0, false⟩, -- DBG_STATE
  ⟨0x60, 0x4, 8, 0x0, 1, 0x0, 0xFFFFFFFF, 0x0, 0x0, 0x0, 0x0, 0, false⟩, -- DBG_CHALi
  ⟨0x80, 0x0, 1, 0x0, 1, 0x0, 0x0, 0x0, 0x1, 0x0, 0x0, 0, false⟩, -- ATT_CTL
  ⟨0x84, 0x0, 1, 0x0, 1, 0x0, 0xFFFFFF01, 0x0, 0x0, 0x0, 0x0, 0, false⟩, -- ATT_STATE
  ⟨0xA0, 0x4, 8, 0x0, 1, 0xFFFFFFFF, 0x0, 0x0, 0x0, 0x0, 0x0, 0, false⟩, -- ATT_NONCEi
  ⟨0x100, 0x0, 1, 0x0, 1, 0x0, 0x0, 0x0, 0x800007FF, 0x0, 0x0, 0, false⟩, -- PROG
  ⟨0x104, 0x0, 1, 0x0, 1, 0x0, 0x0, 0x0, 0xFFFFFFFF, 0x0, 0x0, 0, false⟩, -- PROG_DATA
  ⟨0x400, 0x4, 512, 0x0, 1, 0x0, 0xFFFFFFFF, 0x0, 0x0, 0x0, 0x0, 0, false⟩, -- FUSEi
  ⟨0x1000, 0x4, 2080, 0x0, 1, 0x0, 0x0, 0x0, 0xFFFFFFFF, 0x0, 0x0, 0, false⟩, -- DBG_RESP
  ⟨0x4000, 0x4, 2188, 0x0, 1, 0x0, 0xFFFFFFFF, 0x0, 0x0, 0x0, 0x0, 0, false⟩, -- ATT_BUF
  ⟨0x7000, 0x4, 105, 0x0, 1, 0x0, 0xFFFFFFFF, 0x0, 0x0, 0x0, 0x0, 0, false⟩ -- ID_PUB
  ]

/-- Registers of the PMU block (R441). -/
def pmuRegs : List RegEntry := [
  ⟨0x0, 0x0, 1, 0x0, 1, 0x0, 0xF, 0x0, 0x0, 0x0, 0x0, 0, false⟩, -- STATUS
  ⟨0x4, 0x0, 1, 0x0, 1, 0x0, 0x0, 0x3, 0x0, 0x0, 0x0, 0, false⟩, -- ERR
  ⟨0x8, 0x0, 1, 0x0, 1, 0x0, 0x0, 0x0, 0x1, 0x0, 0x0, 0, false⟩, -- SNAP
  ⟨0xC, 0x0, 1, 0x0, 1, 0x0, 0xFFFFFFFF, 0x0, 0x0, 0x0, 0x0, 0, false⟩, -- SNAP_DT_LO, HI [0]
  ⟨0x10, 0x0, 1, 0x0, 1, 0x0, 0xFFFFFFFF, 0x0, 0x0, 0x0, 0x0, 0, false⟩, -- SNAP_DT_LO, HI [1]
  ⟨0x40, 0x10, 8, 0x0, 1, 0x37F7F77, 0x0, 0x0, 0x0, 0x0, 0x7F0007, 0, false⟩, -- FSf.CTL
  ⟨0x44, 0x10, 8, 0x0, 1, 0xFF, 0x0, 0x0, 0x0, 0x0, 0xFF, 0, false⟩, -- FSf.CLASS
  ⟨0x48, 0x10, 8, 0x0, 1, 0xFFFFFF, 0x0, 0x0, 0x0, 0x0, 0x0, 0, false⟩, -- FSf.ALO
  ⟨0x4C, 0x10, 8, 0x0, 1, 0xFFFFFF, 0x0, 0x0, 0x0, 0x0, 0xFFFFFF, 0, false⟩, -- FSf.AHI
  ⟨0x100, 0x0, 1, 0x0, 1, 0xFF0F, 0x0, 0x0, 0x0, 0x0, 0x0, 0, false⟩, -- SAMPLE_CTL
  ⟨0x104, 0x4, 4, 0x0, 1, 0xFFFFFF, 0x0, 0x0, 0x0, 0x0, 0x1000, 0, false⟩, -- SAMPLE_PERIODs
  ⟨0x120, 0x4, 4, 0x0, 1, 0x0, 0xFFFFFF, 0x0, 0x0, 0x0, 0x1, 1, false⟩, -- SAMPLE_LFSRs
  ⟨0x130, 0x4, 4, 0x0, 1, 0x0, 0xFFFFFFFF, 0x0, 0x0, 0x0, 0x0, 0, true⟩, -- CNTi
  ⟨0x1000, 0x8, 640, 0x0, 1, 0x0, 0xFFFFFFFF, 0x0, 0x0, 0x0, 0x0, 0, false⟩, -- UCi_LO, HI [0]
  ⟨0x1004, 0x8, 640, 0x0, 1, 0x0, 0xFFFF, 0x0, 0x0, 0x0, 0x0, 0, false⟩, -- UCi_LO, HI [1]
  ⟨0x2400, 0x8, 512, 0x0, 1, 0x0, 0xFFFFFFFF, 0x0, 0x0, 0x0, 0x0, 0, false⟩, -- FCi_LO, HI [0]
  ⟨0x2404, 0x8, 512, 0x0, 1, 0x0, 0xFFFF, 0x0, 0x0, 0x0, 0x0, 0, false⟩, -- FCi_LO, HI [1]
  ⟨0x4000, 0x4, 2304, 0x0, 1, 0x0, 0xFFFFFFFF, 0x0, 0x0, 0x0, 0x0, 0, false⟩ -- snapshots
  ]

/-- Registers of the hub PMU (R442). -/
def pmuHubRegs : List RegEntry := [
  ⟨0x8, 0x0, 1, 0x0, 1, 0x0, 0x0, 0x0, 0x1, 0x0, 0x0, 0, false⟩, -- SNAP
  ⟨0xC, 0x0, 1, 0x0, 1, 0x0, 0xFFFFFFFF, 0x0, 0x0, 0x0, 0x0, 0, false⟩, -- SNAP_DT_LO
  ⟨0x10, 0x0, 1, 0x0, 1, 0x0, 0xFFFFFFFF, 0x0, 0x0, 0x0, 0x0, 0, false⟩, -- SNAP_DT_HI
  ⟨0x1000, 0x8, 256, 0x0, 1, 0x0, 0xFFFFFFFF, 0x0, 0x0, 0x0, 0x0, 0, false⟩, -- UCi_LO
  ⟨0x1004, 0x8, 256, 0x0, 1, 0x0, 0xFFFF, 0x0, 0x0, 0x0, 0x0, 0, false⟩, -- UCi_HI
  ⟨0x4000, 0x4, 512, 0x0, 1, 0x0, 0xFFFFFFFF, 0x0, 0x0, 0x0, 0x0, 0, false⟩] -- snapshots

/-- The register table of a block. PYM and WRP share one table (R117), and so do STE and FLW (R148). -/
def regsOf : Blk → List RegEntry
  | .hub => hubRegs
  | .clk => clkRegs
  | .pwr => pwrRegs
  | .sec => secRegs
  | .log => logRegs
  | .i3c => i3cRegs
  | .cci => cciRegs
  | .rxp => rxpRegs
  | .txp => txpRegs
  | .peer => peerRegs
  | .pl => plRegs
  | .cfg => cfgRegs
  | .tel => telRegs
  | .pmuHub => pmuHubRegs
  | .drv => drvRegs
  | .flk => flkRegs
  | .shp => shpRegs
  | .ch => chRegs
  | .dmac => dmacRegs
  | .spd => spdRegs
  | .isp => ispRegs
  | .ispCtx => ispCtxRegs
  | .pym => pymRegs
  | .wrp => pymRegs
  | .ste => steRegs
  | .flw => steRegs
  | .fea => feaRegs
  | .me => meRegs
  | .gcx => gcxRegs
  | .gcCore => gcCoreRegs
  | .xlt => xltRegs
  | .memc => memcRegs
  | .pmu => pmuRegs

/-- The control address of register off of unit i of a block (R11, R22). Units replicated per quadrant carry their global
index; a context of an image pipe is numbered 16 * pipe + context, a flock 256 * quadrant + flock. -/
def addrOf (b : Blk) (i off : Nat) : Nat :=
  let q (n : Nat) := 0x100000 * (i / n + 1)
  off + match b with
  | .hub => 0x00000
  | .clk => 0x10000
  | .pwr => 0x20000
  | .sec => 0x30000
  | .log => 0x40000
  | .i3c => 0x50000
  | .cci => 0x50800 + 0x800 * i
  | .rxp => 0x60000 + 0x1000 * i
  | .txp => 0x70000 + 0x1000 * i
  | .peer => 0x80000
  | .pl => 0x80000 + 0x1000 * (i + 1)
  | .cfg => 0x90000
  | .tel => 0xA0000
  | .pmuHub => 0xB0000
  | .drv => q 1 + 0x10000
  | .flk => q 256 + 0x12000 + 0x20 * (i % 256)
  | .shp => q 1 + 0x20000
  | .ch => q 64 + 0x30000 + 0x100 * (i % 64)
  | .dmac => q 1 + 0x38000
  | .spd => q 1 + 0x40000
  | .isp => q 4 + 0x50000 + 0x4000 * (i % 4)
  | .ispCtx => q 64 + 0x50000 + 0x4000 * (i / 16 % 4) + 0x400 + 0x200 * (i % 16)
  | .pym => q 2 + 0x60000 + 0x2000 * (i % 2)
  | .wrp => q 2 + 0x64000 + 0x2000 * (i % 2)
  | .ste => q 1 + 0x68000
  | .flw => q 1 + 0x6A000
  | .fea => q 2 + 0x6C000 + 0x2000 * (i % 2)
  | .me => q 8 + 0x70000 + 0x1000 * (i % 8)
  | .gcx => q 1 + 0x80000
  | .gcCore => q 64 + 0x81000 + 0x100 * (i % 64)
  | .xlt => q 1 + 0x90000
  | .memc => q 1 + 0xA0000
  | .pmu => q 1 + 0xB0000

/-- A place in the control space: block, unit and offset. -/
structure RegRef where
  blk : Blk
  idx : Nat
  off : Nat
  deriving DecidableEq, Repr

/-- The place of an address within a quadrant, by its offset from the quadrant's base (R22). -/
def locateQuad (q o : Nat) : Option RegRef :=
  let w := o % 0x10000
  match o / 0x10000 with
  | 1 => if w < 0x2000 then some ⟨.drv, q, w⟩
         else if w < 0x4000 then some ⟨.flk, 256 * q + (w - 0x2000) / 0x20, w % 0x20⟩ else none
  | 2 => some ⟨.shp, q, w⟩
  | 3 => if w < 0x4000 then some ⟨.ch, 64 * q + w / 0x100, w % 0x100⟩
         else if 0x8000 ≤ w then some ⟨.dmac, q, w - 0x8000⟩ else none
  | 4 => some ⟨.spd, q, w⟩
  | 5 =>
    let p := 4 * q + w / 0x4000
    let v := w % 0x4000
    if v < 0x400 then some ⟨.isp, p, v⟩
    else if v < 0x2400 then some ⟨.ispCtx, 16 * p + (v - 0x400) / 0x200, (v - 0x400) % 0x200⟩ else none
  | 6 =>
    let v := w % 0x2000
    match w / 0x2000 with
    | 0 => some ⟨.pym, 2 * q, v⟩
    | 1 => some ⟨.pym, 2 * q + 1, v⟩
    | 2 => some ⟨.wrp, 2 * q, v⟩
    | 3 => some ⟨.wrp, 2 * q + 1, v⟩
    | 4 => some ⟨.ste, q, v⟩
    | 5 => some ⟨.flw, q, v⟩
    | 6 => some ⟨.fea, 2 * q, v⟩
    | _ => some ⟨.fea, 2 * q + 1, v⟩
  | 7 => if w < 0x8000 then some ⟨.me, 8 * q + w / 0x1000, w % 0x1000⟩ else none
  | 8 => if w < 0x1000 then some ⟨.gcx, q, w⟩
         else if w < 0x5000 then some ⟨.gcCore, 64 * q + (w - 0x1000) / 0x100, w % 0x100⟩ else none
  | 9 => some ⟨.xlt, q, w⟩
  | 10 => some ⟨.memc, q, w⟩
  | 11 => some ⟨.pmu, q, w⟩
  | _ => none

/-- The place of an address in the control space; none where R22 assigns no block. -/
def locate (a : Nat) : Option RegRef :=
  let w := a % 0x10000
  if a % 4 ≠ 0 then none
  else if a < 0x100000 then
    match a / 0x10000 with
    | 0 => some ⟨.hub, 0, w⟩
    | 1 => some ⟨.clk, 0, w⟩
    | 2 => some ⟨.pwr, 0, w⟩
    | 3 => some ⟨.sec, 0, w⟩
    | 4 => some ⟨.log, 0, w⟩
    | 5 => if w < 0x800 then some ⟨.i3c, 0, w⟩
           else if w < 0x8800 then some ⟨.cci, (w - 0x800) / 0x800, w % 0x800⟩ else none
    | 6 => some ⟨.rxp, w / 0x1000, w % 0x1000⟩
    | 7 => if w < 0x8000 then some ⟨.txp, w / 0x1000, w % 0x1000⟩ else none
    | 8 => if w < 0x1000 then some ⟨.peer, 0, w⟩
           else if w < 0x7000 then some ⟨.pl, w / 0x1000 - 1, w % 0x1000⟩ else none
    | 9 => some ⟨.cfg, 0, w⟩
    | 10 => some ⟨.tel, 0, w⟩
    | 11 => some ⟨.pmuHub, 0, w⟩
    | _ => none
  else if a < 0x500000 then locateQuad (a / 0x100000 - 1) (a % 0x100000)
  else none

/-- The array index of an offset in a table line, when the line holds it. -/
def RegEntry.index (e : RegEntry) (off : Nat) : Option Nat :=
  if off < e.off then none
  else
    let d := off - e.off
    let i := if e.stride1 = 0 then 0 else min (d / e.stride1) (e.count1 - 1)
    let d2 := d - i * e.stride1
    let j := if e.stride2 = 0 then 0 else min (d2 / e.stride2) (e.count2 - 1)
    if d2 - j * e.stride2 = 0 then some (i * e.count2 + j) else none

/-- The table line of an offset, with the register's index in its array. -/
def findEntry (off : Nat) : List RegEntry → Option (RegEntry × Nat)
  | [] => none
  | e :: r => match e.index off with
    | some i => some (e, i)
    | none => findEntry off r

/-- The table line of an address; none where the address is unassigned (R8, R22). -/
def entryAt (a : Nat) : Option (RegEntry × Nat) :=
  match locate a with
  | some r => findEntry r.off (regsOf r.blk)
  | none => none

/-- What a stored register reads as before anything wrote it: its reset value. -/
def regReset (a : Nat) : Nat :=
  match entryAt a with
  | some (e, i) => e.reset + i * e.step
  | none => 0

end Sys2Proof.Machine
end

