-- ==== Sys2Proof/Machine/Map.lean ====
section
/-! DEFINITION. Sparse maps held as plain data: lists of (key, value) pairs in one canonical form, keys strictly rising
and no entry equal to what an unlisted key reads as. Memories, register values and unit contexts are such maps. -/

namespace Sys2Proof.Machine

/-- A sparse map with natural keys. -/
abbrev SMap (α : Type) := List (Nat × α)

/-- The value at a key; d is what an unlisted key reads as. -/
def mapGet {α : Type} (d : α) (k : Nat) : SMap α → α
  | [] => d
  | (k', v) :: r => if k' = k then v else mapGet d k r

/-- The entry put in its place by key. -/
def mapIns {α : Type} (k : Nat) (v : α) : SMap α → SMap α
  | [] => [(k, v)]
  | (k', v') :: r => if k < k' then (k, v) :: (k', v') :: r else (k', v') :: mapIns k v r

/-- The map without any entry at the key. -/
def mapDel {α : Type} (k : Nat) (m : SMap α) : SMap α := m.filter (fun e => decide (e.1 ≠ k))

/-- The map with v at key k, in canonical form: writing what an unlisted key reads as removes the entry. -/
def mapSet {α : Type} [DecidableEq α] (d : α) (k : Nat) (v : α) (m : SMap α) : SMap α :=
  if v = d then mapDel k m else mapIns k v (mapDel k m)

/-- The map with the value at a key changed by f. -/
def mapUpd {α : Type} [DecidableEq α] (d : α) (k : Nat) (f : α → α) (m : SMap α) : SMap α :=
  mapSet d k (f (mapGet d k m)) m

/-- Keys strictly rising from a bound. -/
def mapRising {α : Type} (lo : Nat) : SMap α → Bool
  | [] => true
  | (k, _) :: r => decide (lo ≤ k) && mapRising (k + 1) r

/-- The canonical form: keys strictly rising, no entry equal to what its key would read as unlisted. -/
def mapWf {α : Type} [DecidableEq α] (d : Nat → α) (m : SMap α) : Bool :=
  mapRising 0 m && m.all (fun e => decide (e.2 ≠ d e.1))

end Sys2Proof.Machine
end

