-- ==== Sys2Proof/Machine/State.lean ====
section
/-! DEFINITION. The state of the module as plain data: every register, queue, context, table and memory the spec gives it,
the queue of commands waiting, and the reset state. INVENTORY.md lists each item with the rule that names it. -/

namespace Sys2Proof.Machine

/-- Why a step could stop with a fault. The spec lets no step of the module stop: every fault it describes is an effect on
state (R396), so no meaning raises one. Raised by nobody; safe. -/
inductive Fault where
  /-- Kept for a step that the spec would end without an effect; raised by no meaning; safe. -/
  | noEffectGiven
  deriving DecidableEq, Repr

/-- Why a command could be refused. -/
inductive Refusal where
  /-- The command has no meaning in this model; raised by an arm of exec that rejects its command by name; safe. -/
  | notModelled (mnemonic : String)
  deriving DecidableEq, Repr

/-- What a meaning answers. -/
abbrev Out (α : Type) := Host.Outcome α Fault Refusal

/-- A graph instance (R171): its home quadrant, its Drover context, and a serial number of the model that tells an
instance from a later one in the same context. -/
structure InstRef where
  q : Nat
  ctx : Nat
  serial : Nat
  deriving DecidableEq, Repr

/-- Who started a unit: nobody, a register write, or a Drover context with a tag (R181, R183). -/
inductive Starter where
  | none
  | write
  | drover (inst : InstRef) (tag : Nat) (tiles : Bool)
  deriving DecidableEq, Repr

/-- A 16-byte Shepherd event (R313), with its flag byte 5. -/
structure Event where
  typ : Nat := 0
  cls : Nat := 0
  order : Nat := 0
  key : Nat := 0
  flags : Nat := 0
  dl32 : Nat := 0
  payload : Nat := 0
  deriving DecidableEq, Repr

/-- A post on its way to a Shepherd (R313-R315, R323, R325). -/
structure Post where
  q : Nat
  src : Nat
  ev : Event
  dl : Nat
  attach : Option InstRef := .none
  tag : Option (InstRef × Nat) := .none
  /-- Paddock and due time of a post to a paddock (R325). -/
  pad : Option (Nat × Nat) := .none
  /-- Core, thread and destination register of an SPOST that waits for its result (R310). -/
  ret : Option (Nat × Nat × Nat) := .none
  deriving DecidableEq, Repr

/-- A start on its way to a unit (R16, R183): unit is 64 * quadrant + code of R183. -/
structure StartMsg where
  unit : Nat
  desc : Nat
  dl : Nat
  starter : Starter
  plane : Option Nat := .none
  /-- Its place in the order in which control messages were sent (R17); and so in the messages below. -/
  seq : Nat := 0
  deriving DecidableEq, Repr

/-- The kinds of unit that a void stops (R194). -/
inductive StopKind where
  | engine | fold | dma | me | shepherd
  deriving DecidableEq, Repr

/-- A void stop on its way to a unit (R194). -/
structure StopMsg where
  kind : StopKind
  unit : Nat
  inst : InstRef
  /-- The stop to a Shepherd also posts INSTANCE_VOID there (R194): the event of the instance's void. -/
  event : Option Event := .none
  dl : Nat := 0
  seq : Nat := 0
  deriving DecidableEq, Repr

/-- A grant on its way to a refining context (R138, R185); T_stop 0 withdraws. -/
structure GrantMsg where
  unit : Nat
  inst : InstRef
  tag : Nat
  tstop : Nat
  /-- VX cycle from which it has arrived (R15). -/
  due : Nat := 0
  seq : Nat := 0
  deriving DecidableEq, Repr

/-- A truncation on its way to a context (R145, R182). -/
structure TruncMsg where
  unit : Nat
  inst : InstRef
  tag : Nat
  seq : Nat := 0
  deriving DecidableEq, Repr

/-- A STARTDMA on its way to a channel of another quadrant (R21, R180, R228): the register image, the deadline and the starter. -/
structure DmaStartMsg where
  ch : Nat
  image : List Byte
  dl : Nat
  starter : Starter
  seq : Nat := 0
  deriving DecidableEq, Repr

/-- A report on its way to a home Drover (R181): the status code, the status words and tile count of a dense context
(R183, R189), the hold cycles of a fold run (R189), the void it causes (R195), and whether the unit is done with. -/
structure TagReport where
  inst : InstRef
  tag : Nat
  code : Nat
  final : Bool := true
  setsEv : Bool := true
  first : Option W64 := .none
  refined : Option W64 := .none
  tiles : Nat := 0
  hold : Nat := 0
  void : Option Nat := .none
  /-- Flags of R190 that the report carries. -/
  flags : Nat := 0
  remote : Bool := false
  deriving DecidableEq, Repr

/-- A Frame Start notice on its way to, waiting at, or in test at its home Drover (R62, R178). -/
structure FsNotice where
  q : Nat
  stream : Nat
  index : Nat
  fs : Nat
  plane : Nat
  gid : Nat
  /-- The image configures the stream and gives it a graph; otherwise the notice ends in reason 33 (R197). -/
  hasGraph : Bool
  deriving DecidableEq, Repr

/-- A group notice on its way to a home Drover (R63, R64). -/
structure GroupNotice where
  q : Nat
  group : Nat
  start : Nat
  present : List (Nat × Nat)
  absent : List Nat
  /-- A member's frame whose instance has ended REFUSED or VOID (R64): the notice is of that alone. -/
  ended : Option (Nat × Nat) := .none
  deriving DecidableEq, Repr

/-- Control messages in flight on the package fabric (R16, R17), each list oldest first. -/
structure Fabric where
  starts : List StartMsg := []
  stops : List StopMsg := []
  grants : List GrantMsg := []
  truncs : List TruncMsg := []
  reports : List TagReport := []
  notices : List FsNotice := []
  groups : List GroupNotice := []
  posts : List Post := []
  dmaStarts : List DmaStartMsg := []
  /-- Starts, stops, grants and truncations sent so far. -/
  sent : Nat := 0
  deriving DecidableEq, Repr

/-- The memories (R25, R26). Scratchpad bytes are keyed by quadrant * 2^26 + byte address, DRAM bytes by physical address;
the marks say which stored bits differ from what was written (R200), which 128-bit quarters hold a poison pattern (R201),
and which 32-byte DRAM blocks are uncorrectable (R247). -/
structure Mem where
  spad : List Host.Cell := []
  flips : SMap W64 := []
  poison : SMap Bool := []
  dram : List Host.Cell := []
  dramBad : SMap Nat := []
  deriving DecidableEq, Repr

/-- Who makes a change (R369, R370). The last two are writes on behalf of a graph instance (R74, R94, R302), which are not
logged, and writes of a general core outside any instance. -/
inductive Origin where
  | powerOn
  | i3c (warrant session ctl : Nat)
  | firmware
  | peer (module : Nat)
  | debug
  | image
  | autonomous
  | core (gc : Nat)
  | drover (inst : InstRef)
  | attachedCore (gc : Nat) (inst : InstRef)
  deriving DecidableEq, Repr

/-- What a record of the security block puts in force (R413, R419-R424): an anti-rollback advance, a revocation, fuse bits of a PROG
write by byte offset and data, the debug lock and seal, an unlock for a slot and seconds, a firmware bank verified with its
generation, and the bank that the management core restarts on. -/
inductive SecOp where
  | advance (e : Nat)
  | revokeKey (slot : Nat)
  | revokeWarrant (w : Nat)
  | program (off data : Nat)
  | provision
  | lock
  | seal
  | unlock (slot seconds : Nat)
  | fwValid (bank : Nat)
  | activate (bank : Nat)
  deriving DecidableEq, Repr

/-- A session as an OPEN is to bind it (R363). -/
structure OpenSess where
  s : Nat
  warrant : Nat
  ctl : Nat
  count : Nat
  key : List Byte
  deriving DecidableEq, Repr

/-- What takes effect when a change-log record commits (R368). -/
inductive Change where
  /-- The record alone. -/
  | none
  /-- A register write of one value, with the transmit registers of a CCI push (kinds 0x0001, 0x0009, 0x000C, 0x0012). -/
  | write (origin : Origin) (addr : Nat) (value : W32) (extra : W64)
  /-- A plane release (R49). -/
  | release (plane : Nat)
  /-- Installation of the validated image begins (R43). -/
  | install
  /-- Clock failover and return (R381, R383). -/
  | failover
  | clockReturn
  /-- A session opened, or ended (R363). -/
  | openSession (o : OpenSess)
  | closeSession (s : Nat)
  | security (op : SecOp)
  deriving DecidableEq, Repr

/-- A request to the change log that has not committed (R368, R371). -/
structure ChangeReq where
  /-- DT of the request. -/
  at_ : Nat
  cls : Nat
  oid : Nat
  target : Nat
  kind : Nat
  len : Nat := 0
  old : W32 := 0
  new : W32 := 0
  extra : W64 := 0
  act : Change := .none
  /-- It holds a journal slot; otherwise it waits for one (R371). -/
  slot : Bool := true
  /-- I3C frame serial whose response waits for this record (R362). -/
  frame : Option Nat := .none
  deriving DecidableEq, Repr

/-- A committed change-log record (R370). -/
structure LogRecord where
  seq : Nat
  dt : Nat
  cls : Nat
  oid : Nat
  target : Nat
  kind : Nat
  len : Nat
  old : W32
  new : W32
  extra : W64
  hash : List Byte
  deriving DecidableEq, Repr

/-- The change log (R368-R376): the sequence of the next record, the chain hash, the journal's unflushed records oldest
first, the NAND log ring by slot, the page being written, the waiting requests, a record read in progress, and whether the
seal of the run has been requested. -/
structure LogSt where
  next : Nat := 0
  hash : List Byte := List.replicate 16 0#8
  journal : List LogRecord := []
  nand : List (Nat × LogRecord) := []
  /-- First sequence and number of records of the page write in progress (R371). -/
  page : Option (Nat × Nat) := .none
  reqs : List ChangeReq := []
  sealing : Bool := false
  /-- DT from which the journal accepts its next request: one every 2 DT (R368). -/
  nextAt : Nat := 0
  /-- Sequence being read and DT of the request (R373). -/
  read : Option (Nat × Nat) := .none
  /-- Next sequence to mirror (R374). -/
  mirror : Nat := 0
  deriving DecidableEq, Repr

/-- One I3C session (R363): its bound warrant and controller, its counter, its key K_s, the number of its last executed frame, and
that frame's response without CRC and MAC. -/
structure Session where
  isOpen : Bool := false
  warrant : Nat := 0
  ctl : Nat := 0
  count : Nat := 0
  key : List Byte := []
  lastFrame : Nat := 0
  cached : List Byte := []
  deriving DecidableEq, Repr

/-- A frame whose response waits (R362, R363, R373): its serial number, session, key, counter, sequence byte, status and data; the
records still to commit and the sequence of the last that did; whether its session ends with it; and a READ put off by RD_STATE.BUSY,
as its address and length. -/
structure FrameWait where
  serial : Nat
  session : Nat
  key : List Byte
  counter : Nat
  seq : Nat
  status : Nat := 0
  data : List Byte := []
  left : Nat := 0
  last : Nat := 0
  closes : Bool := false
  read : Option (Nat × Nat) := .none
  deriving DecidableEq, Repr

/-- What the target holds for the next private read (R361): nothing, a response, or the number of the frame whose response it waits
for, with whether that frame was a retry. -/
inductive Response where
  | empty
  | ready (bytes : List Byte)
  | waiting (serial : Nat) (retry : Bool)
  deriving DecidableEq, Repr

/-- HDR mode of the bus as the target follows it (R356). -/
inductive HdrMode where
  | sdr | ddr | bt | other
  deriving DecidableEq, Repr

/-- The I3C target (R356-R367). -/
structure I3cSt where
  da : Option Nat := .none
  activeCtl : Nat := 0
  ibiOn : Bool := true
  hjOn : Bool := true
  sess : SMap Session := []
  resp : Response := .empty
  /-- Action named by the last RSTACT, until the next target reset pattern (R358). -/
  rstact : Option Nat := .none
  hdr : HdrMode := .sdr
  mwl : Nat := 270
  mrl : Nat := 270
  waits : List FrameWait := []
  /-- An IBI is to be requested; one is outstanding, with the bit that its last request named; the DT from which a NACKed one is
  requested again; the bit that the last acknowledged one named, until the host clears it (R367). -/
  ibiDue : Bool := false
  ibiOut : Option Nat := .none
  ibiRetryAt : Option Nat := .none
  ibiAcked : Option Nat := .none
  /-- Mandatory bytes of the IBIs requested, newest first, kept as what left the target. -/
  ibiSent : List Nat := []
  /-- Hot-join requests made. -/
  hotJoins : Nat := 0
  /-- Requests in a row that failed a MAC or sequence check (R366, bit 10). -/
  authFails : Nat := 0
  /-- Serial number of the last command frame, of the model. -/
  frames : Nat := 0
  /-- Answers given to CCCs and private reads, newest first, kept as what left the target. -/
  sent : List (List Byte) := []
  deriving DecidableEq, Repr

/-- A section of an installed image (R35, R36): kind, scope and bytes. -/
structure Sect where
  kind : Nat
  scope : Nat
  data : List Byte
  deriving DecidableEq, Repr

/-- A configuration plane (R39): whether it is LOADED and in use, and what the installed image gave it. -/
structure Plane where
  loaded : Bool := false
  inUse : Bool := false
  gen : Nat := 0
  pred : Nat := 0
  epoch : Nat := 0
  salt : Nat := 0
  /-- Key slot under which the image verified; 0xFF where none did (R428, SLOT). -/
  slot : Nat := 0xFF
  /-- SHA-384 of the image (R43). -/
  digest : List Byte := []
  sections : List Sect := []
  /-- A release has freed the shared entries that the image used alone (R44, R49). -/
  freed : Bool := false
  deriving DecidableEq, Repr

/-- The image load in progress or last ended (R40-R43, R456). -/
structure LoadSt where
  /-- LOAD_STATE: 0 idle, 1 receiving, 2 validating, 3 installing, 4 done, 5 failed. -/
  state : Nat := 0
  src : Nat := 0
  dest : Nat := 0
  bank : Nat := 0
  rxp : Nat := 0
  vc : Nat := 0
  win : Nat := 0
  target : Option Nat := .none
  bytes : List Byte := []
  /-- A CSI-2 transfer is between its Frame Start and Frame End. -/
  open_ : Bool := false
  /-- The source has ended the byte stream: a Frame End, or a write of DONE (R40). -/
  ended : Bool := false
  /-- The verdict's key slot, kept until installation. -/
  slot : Nat := 0xFF
  /-- Installation is complete, and only the NAND store is outstanding (R456). -/
  installed : Bool := false
  /-- The NAND store of DEST 1 or 2 has yet to complete: the bank and the image. -/
  store : Option (Nat × List Byte) := .none
  /-- The load is the boot load of R44 and has tried this many banks. -/
  boot : Option Nat := .none
  deriving DecidableEq, Repr

/-- Which plane a graph or fold runs on: the plane before and after its last switch and the commit DT (R46, R47). -/
structure UnitPlane where
  before : Nat
  now : Nat
  since : Nat
  deriving DecidableEq, Repr

/-- The configuration block (R33-R51). -/
structure CfgSt where
  planes : List Plane := [{}, {}]
  load : LoadSt := {}
  nandImages : List (List Byte) := [[], []]
  lastTarget : Option Nat := .none
  everInUse : Bool := false
  salt : Nat := 0
  graphs : List (Nat × UnitPlane) := []
  folds : List (Nat × UnitPlane) := []
  /-- Graph IDs selected by the last switch and the plane they leave (R51). -/
  leaving : Option (Nat × List Nat) := .none
  /-- Planes whose release record has been requested (R49). -/
  releasing : List Nat := []
  /-- Pipe contexts whose ISPINIT pairs of an image generation wait for the first instance admitted on it (R97). -/
  ispInit : List (Nat × Nat) := []
  /-- Page-table indices that each plane's image seeded (R44). -/
  seeded : List (List (Nat × Nat)) := [[], []]
  deriving DecidableEq, Repr

/-- What a Drover context waits for (R180, R182). -/
inductive DrvWait where
  | run
  | join (mask : W32)
  | waitAny (n : Nat) (mask : W32)
  | waitDt (at_ : Nat)
  | emit (graphFlags : Nat)
  deriving DecidableEq, Repr

/-- The kinds of unit that a context has started (R171, R194). -/
inductive UnitKind where
  | engine | me | fold | dma | post
  deriving DecidableEq, Repr

/-- A unit started for an instance that has not reported its end: its kind, its index (engines and folds 64 * quadrant +
code of R183, channels their global number, posts their quadrant) and its tag. -/
structure UnitRef where
  kind : UnitKind
  idx : Nat
  tag : Nat
  deriving DecidableEq, Repr

/-- An item of the control digest (R191). -/
structure DigestItem where
  addr : Nat
  value : W32
  source : Nat
  status : Nat
  deriving DecidableEq, Repr

/-- An outcome record (R188), before it is laid out as bytes. -/
structure Outcome where
  kind : Nat
  stream : Nat
  index : Nat
  fs : Nat
  deadline : Nat
  done : Nat
  gid : Nat
  epoch : Nat
  gen : Nat
  reason : Nat
  flags : Nat
  extra : Nat
  coarse : Nat
  refined : Nat
  digest : W32
  deriving DecidableEq, Repr

/-- A Drover graph context (R171, R172, R181). -/
structure DrvCtx where
  live : Bool := false
  held : Bool := false
  serial : Nat := 0
  pc : Nat := 0
  v : List W32 := List.replicate 16 0#32
  ev : W32 := 0
  tagCode : List Nat := List.replicate 24 0
  tStop : Nat := 0
  dl : Nat := 0
  fs : Nat := 0
  index : Nat := 0
  stream : Nat := 0
  gid : Nat := 0
  plane : Nat := 0
  gen : Nat := 0
  wait : DrvWait := .run
  units : List UnitRef := []
  /-- Quadrants to which the instance posted (R194). -/
  posted : List Nat := []
  flags : Nat := 0
  digest : List DigestItem := []
  hold : Nat := 0
  /-- Tiles refined and coarse-only, summed over TILES contexts (R189). -/
  refined : Nat := 0
  coarse : Nat := 0
  /-- Tags to which a grant was sent and not withdrawn (R185, R194). -/
  granted : List Nat := []
  /-- Settings epoch E(N) once fixed (R96). -/
  epoch : Option Nat := .none
  /-- Chain mode (R186): indices of the action words issued. -/
  chainDone : List Nat := []
  chain : Bool := false
  /-- Members' frames that its graph reads, by stream and frame index (R64). -/
  deps : List (Nat × Nat) := []
  /-- The VOID record of the sealed instance, which a cause of the same DT may still change (R193). -/
  sealed : Option Outcome := .none
  deriving DecidableEq, Repr

/-- A reservation (R176): its stream, the graph, plane and image generation of the last admitted instance, that instance's Frame
Start, its graph's P_min and densities by resource, and those of the graphs before it, by generation and graph, which count
while instances of them live. -/
structure Reservation where
  stream : Nat
  plane : Nat
  gid : Nat
  gen : Nat
  lastFs : Nat
  pMin : Nat
  dens : List (Nat × Nat)
  olds : List (Nat × Nat × List (Nat × Nat)) := []
  deriving DecidableEq, Repr

/-- A quadrant's Drover beside its contexts: reservations, notices waiting in arrival order, and the notice in test with the
VX cycle count (5 per DT) at which its test completes (R178). -/
structure DrvSt where
  resv : List Reservation := []
  waiting : List FsNotice := []
  /-- Group notices for frames whose instances are not admitted yet (R64). -/
  groups : List GroupNotice := []
  test : Option (FsNotice × Nat) := .none
  /-- VX cycle from which it may issue again: it issues at most one instruction per VX cycle (R180). -/
  issueAt : Nat := 0
  deriving DecidableEq, Repr

/-- A region of the scratchpad (R208, R209): its table entry, and its pointers H and T. Slot count 0 marks an unused index. -/
structure Region where
  base : Nat := 0
  slot : Nat := 0
  n : Nat := 0
  kind : Nat := 0
  flags : Nat := 0
  h : Nat := 0
  t : Nat := 0
  /-- Fills since installation, the source of audit epochs (R223). -/
  fills : Nat := 0
  /-- The MX cycle in which H or T last moved, plus 1, and what they were when that cycle began (R211). -/
  movedAt : Nat := 0
  h0 : Nat := 0
  t0 : Nat := 0
  deriving DecidableEq, Repr

/-- The audit tag of a slot (R223); the producer is numbered as an open-pool requester (R29). -/
structure AuditTag where
  filled : Bool := false
  epoch : Nat := 0
  producer : Nat := 0
  deriving DecidableEq, Repr

/-- A flock in operation (R339-R343): cut receivers, each receiver's tail, the instance whose commit opened the current
frame, and the instances shed for each receiver that its queues may still hold. -/
structure FlockSt where
  cut : Nat := 0
  tails : List Nat := List.replicate 12 0
  last : Option InstRef := .none
  shed : List (Nat × InstRef) := []
  deriving DecidableEq, Repr

/-- Why a fold does not advance (R218, R220, R227): nothing, a CHECK step that is not ready, or its gate. -/
inductive FoldHold where
  | none | check | gate
  deriving DecidableEq, Repr

/-- A commit of a fold that is not yet visible in H (R211), with the MX cycle from which it is and the run's instance. -/
structure FoldCommit where
  region : Nat
  due : Nat
  inst : Option InstRef := .none
  deriving DecidableEq, Repr

/-- A start that a fold has accepted (R216, R217): its run descriptor and, by member bit, member descriptors, copied then, its
plane, and whether a copied word was uncorrectable. -/
structure FoldStartRec where
  desc : List Byte
  members : List (Nat × List Byte)
  dl : Nat
  starter : Starter
  plane : Nat
  bad : Bool := false
  deriving DecidableEq, Repr

/-- A fold (R212-R226): its run in progress with counts p_r and c_r, the start chosen to run next, and its pending starts. -/
structure FoldSt where
  run : Option FoldStartRec := .none
  next : Option FoldStartRec := .none
  /-- 0 prologue, 1 body, 2 epilogue, 3 past the last step, with the iteration and the step index within the group. -/
  phase : Nat := 0
  iter : Nat := 0
  step : Nat := 0
  /-- The body iteration has begun, its gate being open where it has one (R218). -/
  entered : Bool := false
  /-- Fold cycle 0's MX cycle, the frozen MX cycles since, and the hold and conflict counts of the run. -/
  start : Nat := 0
  frozen : Nat := 0
  holds : Nat := 0
  conflicts : Nat := 0
  hold : FoldHold := .none
  /-- The fold cycle that the fold does not pass: that of its next step, of a CHECK that is not ready, before its gate, or its end. -/
  cap : Option Nat := .none
  /-- CHECK steps of the held cycle that are not ready (R220): whether it is a CHECK_OUT, region and argument. -/
  checks : List (Bool × Nat × Nat) := []
  /-- MX cycle at which the hold step of the last conflict ends (R221). -/
  conflictEnd : Nat := 0
  /-- Counts p_r and c_r by region (R214), and what they were when the run began. -/
  prod : SMap Nat := []
  cons : SMap Nat := []
  prod0 : SMap Nat := []
  cons0 : SMap Nat := []
  commits : List FoldCommit := []
  /-- Members whose UNIT step waits for the unit in progress (R214). -/
  waiting : List Nat := []
  /-- Stop code to report once the members have ended: 1 void, 2 uncorrectable, 3 STOP. -/
  stop : Option Nat := .none
  /-- Pending starts by slot (R29), and the starts beyond them in order of arrival. -/
  pending : SMap (Option FoldStartRec) := []
  overflow : List StartMsg := []
  deriving DecidableEq, Repr

/-- A memory access of a general core's thread (R303-R305): destination register, byte address, size, and what it does: 0 signed
load, 1 unsigned load, 2 float load, 3 store, 4 LR, 5 SC, 6 to 14 the AMOs in the order swap, add, xor, and, or, min, max, minu,
maxu, 15 the read and 16 the write of SRMV, 17 the template of SPOST, 18 the old value of an AMO that the memory controller has made;
with the value it stores or combines, the PC of its instruction, and SRMV's destination or SPOST's second operand. -/
structure GcAcc where
  rd : Nat
  addr : Nat
  size : Nat
  op : Nat
  val : Nat := 0
  pc : Nat := 0
  aux : Nat := 0
  deriving DecidableEq, Repr

/-- An access waiting for the open pool (R206): a general core's and thread's, or that of another requester of R29, with its rank; the
deadline, and the MX cycle of its request. -/
structure PoolReq where
  gc : Nat
  thread : Nat
  dl : Nat
  at_ : Nat
  acc : GcAcc
  unit : Option (Nat × Nat) := .none
  deriving DecidableEq, Repr

/-- The scratchpad control of a quadrant: initialised, and the DT at which the initialisation pass ends (R203); next scrub row of
each bank, and the turn of the bank's last scrub cycle, one in 1,024 MX cycles (R202); pending error injection; open-pool requests,
with the MX cycle last served and the banks that it has served (R206). -/
structure SpdSt where
  initDone : Bool := false
  initEnd : Option Nat := .none
  scrub : SMap Nat := []
  scrubbed : SMap Nat := []
  inject : List (Nat × Nat) := []
  pool : List PoolReq := []
  cycle : Nat := 0
  served : List Nat := []
  auditSeen : Bool := false
  deriving DecidableEq, Repr

/-- A part of a result frame (R331-R333): its table entry's data, the bytes accepted and not yet sent, and how many have gone. -/
structure TxPart where
  part : Nat
  typ : Nat
  line : Nat
  off : Nat := 0
  buf : List Byte := []
  deriving DecidableEq, Repr

/-- A frame of a result stream, or a drain frame (R332, R334, R337). -/
structure TxFrame where
  vc : Nat
  inst : Option InstRef
  frameNo : Nat
  dl : Nat
  header : List Byte := []
  parts : List TxPart := []
  record : Option (List Byte) := .none
  /-- The record is VOID or REFUSED, so the frame counts as closed (R337). -/
  closed : Bool := false
  fsSent : Bool := false
  headerSent : Bool := false
  recordSent : Bool := false
  /-- A drain frame whose DMA set has ended. -/
  ended : Bool := false
  deriving DecidableEq, Repr

/-- A packet that a transmit port sent (R330): virtual channel, data type, payload. -/
structure TxPacket where
  vc : Nat
  typ : Nat
  payload : List Byte
  deriving DecidableEq, Repr

/-- A transmit port (R330-R337): what its TXMAP entries set, the open frames of its result streams in opening order, and
the packets that have left the connector, oldest first. -/
structure TxPort where
  setup : Nat := 0x04
  rate : Nat := 1500
  ready : Bool := false
  /-- DT of the last skew calibration, and calibrations sent since reset. -/
  lastCal : Nat := 0
  cals : Nat := 0
  frames : List TxFrame := []
  wire : List TxPacket := []
  deriving DecidableEq, Repr

/-- A flit without sequence numbers and CRC (R344): its type and body. -/
structure FlitBody where
  typ : Nat
  body : List Byte
  /-- The channel whose burst it carries and its outbound window, or none. -/
  ch : Option Nat := .none
  win : Option Nat := .none
  inst : Option InstRef := .none
  deriving DecidableEq, Repr

/-- A segment being received (R346): transport header and the bytes so far. -/
structure RxSegment where
  header : List Byte
  data : List Byte
  deriving DecidableEq, Repr

/-- A peer link (R344-R352). -/
structure Link where
  up : Bool := false
  foreign : Bool := false
  peer : Nat := 0
  trained : Bool := false
  txSeq : Nat := 0
  rxSeq : Nat := 0
  /-- Flits sent and not acknowledged, oldest first, with their sequence numbers (R345). -/
  retry : List (Nat × FlitBody) := []
  /-- Flits of retry that need no sending; those after them are to be sent again after a NAK. -/
  sent : Nat := 0
  /-- Flits waiting for a slot. -/
  queue : List FlitBody := []
  progress : Nat := 0
  lastNak : Option Nat := .none
  nakDue : Bool := false
  seg : Option RxSegment := .none
  /-- Flits sent, newest first, kept as what left the connector: type, sequence, acknowledgement, body. -/
  wire : List (Nat × Nat × Nat × List Byte) := []
  deriving DecidableEq, Repr

/-- A peer window in operation (R347-R350): outbound, slots of the far ring opened and not credited back and the last one opened;
inbound, records received, and the link over which its last segment arrived. -/
structure WindowSt where
  used : Nat := 0
  opened : Option Nat := .none
  records : Nat := 0
  link : Option Nat := .none
  deriving DecidableEq, Repr

/-- The peer block (R344-R354): links, windows, the shared window table, and the last 16 job aborts received. -/
structure PeerSt where
  links : SMap Link := []
  windows : SMap WindowSt := []
  table : SMap (List Byte) := []
  aborts : List (Nat × Nat) := []
  deriving DecidableEq, Repr

/-- A ready-list, spill or paddock entry (R313, R315, R318, R325). -/
structure ReadyEnt where
  ev : Event
  dl : Nat
  attach : Option InstRef := .none
  tag : Option (InstRef × Nat) := .none
  /-- Arrival number, VX cycle of first arrival (5 per DT), and the VX cycle from which it can be dispatched. -/
  arr : Nat := 0
  vx : Nat := 0
  avail : Nat := 0
  /-- Entry index in the on-chip list (R29). -/
  idx : Nat := 0
  /-- Paddock due time d and release time r. -/
  due : Nat := 0
  rel : Nat := 0
  deriving DecidableEq, Repr

/-- A key held by an ATOMIC event (R316): the thread that serves it, or the mailbox thread. -/
structure KeyHold where
  key : Nat
  thread : Nat
  mailbox : Bool
  deriving DecidableEq, Repr

/-- A preempted thread's event (R321) with the save-pool slot that holds the thread's state. -/
structure ResumeEnt where
  ent : ReadyEnt
  slot : Nat
  deriving DecidableEq, Repr

/-- A spill ring in DRAM (R318, R319): the entries in it, oldest first, then those still in the write buffer, with the VX cycle of
the last one's arrival; and how many entries have ever been read from it and written to it. -/
structure SpillSt where
  ring : List ReadyEnt := []
  wbuf : List ReadyEnt := []
  last : Nat := 0
  head : Nat := 0
  tail : Nat := 0
  deriving DecidableEq, Repr

/-- A Shepherd (R313-R329): configuration section, number of the next arrival, ready list, the spill rings of the ready list and of
paddocks 0 to 3, paddocks in order of due time, resume entries, keys held and those released with the VX cycle of their release, and
the VX cycle from which it may decide again. -/
structure ShpSt where
  cfg : List Byte := []
  nextArr : Nat := 0
  ready : List ReadyEnt := []
  spills : List SpillSt := [{}, {}, {}, {}, {}]
  pads : List (List ReadyEnt) := [[], [], [], []]
  resume : List ResumeEnt := []
  keys : List KeyHold := []
  freed : List (Nat × Nat) := []
  decideAt : Nat := 0
  /-- Trace entries that wait for the open pool (R329): the MX cycle of the decision, the event's class, the 16 bytes. -/
  traces : List (Nat × Nat × List Byte) := []
  deriving DecidableEq, Repr

/-- A fault or error found at the translation or read of a burst (R237-R239): code, side, translation cause, address. -/
structure DmaFault where
  code : Nat
  side : Nat := 0
  cause : Nat := 0
  addr : Nat := 0
  deriving DecidableEq, Repr

/-- A burst of a set (R233): its place in the destination's byte order and length; the physical addresses of its source bytes
and the granules still to come, where its source is DRAM; and its data once it is in the channel's buffer. -/
structure DmaBurst where
  pos : Nat
  len : Nat
  src : List Nat := []
  pend : List Nat := []
  data : Option (List Byte) := .none
  deriving DecidableEq, Repr

/-- A register set that moves or waits to move data (R228): a number of the model's, the 32 staging words, deadline and starter, the
counts of the bound sides at its start, and its progress in destination bytes. -/
structure DmaSet where
  no : Nat := 0
  regs : List W32
  dl : Nat
  starter : Starter
  begun : Bool := false
  /-- Place of the last burst that became ready, plus 1 (R437). -/
  noted : Nat := 0
  srcFrom : Nat := 0
  dstFrom : Nat := 0
  /-- Destination bytes issued and written, slots released and committed. -/
  issued : Nat := 0
  written : Nat := 0
  released : Nat := 0
  committed : Nat := 0
  bursts : List DmaBurst := []
  /-- A fault or error found at a translation or read, which ends the set (R239). -/
  fault : Option DmaFault := .none
  /-- Bulk source: bytes received and not yet written, whether the transfer is open and carried an error (R235). -/
  bulk : List Byte := []
  bulkOpen : Bool := false
  bulkBad : Bool := false
  /-- Frame Ends that wait for the bytes received before them to be written: bytes still to issue, code of the record (R235). -/
  bulkEnds : List (Nat × Nat) := []
  /-- Bytes written since the last status record. -/
  moved : Nat := 0
  /-- VX cycle from which it waits on a ring (R229, R236). -/
  waitAt : Option Nat := .none
  /-- Outbound window: the segment being packed, by window offset (R346). -/
  seg : Option (Nat × List Byte) := .none
  deriving DecidableEq, Repr

/-- A DMA channel (R228, R229); its staging set is its registers. -/
structure DmaCh where
  active : Option DmaSet := .none
  next : Option DmaSet := .none
  lastCode : Nat := 0
  /-- Bytes written to destinations (R229 MOVED). -/
  moved : Nat := 0
  /-- The status record of an ended set has been written, and NEXT has still to become ACTIVE (R236). -/
  ended : Bool := false
  /-- VX cycle from which its next burst may complete: one in 4 VX cycles (R233). -/
  nextAt : Nat := 0
  deriving DecidableEq, Repr

/-- Whose access a translation or a DRAM read serves (R243, R244, R251): a DMA channel's burst, read or write side, with the number of
its set; a general core's access of a thread, or its instruction fetch, with the serial number of its wait; a matrix engine's command
fetch of a context, with the number of its run; an image pipe needs none. -/
inductive MemWho where
  | dmaRead (ch no pos : Nat)
  | dmaWrite (ch no : Nat)
  | gcData (gc thread no : Nat)
  | gcFetch (gc thread no : Nat)
  | meFetch (me ctx no : Nat)
  | posted
  deriving DecidableEq, Repr

/-- What came back for an access: a fault with its cause and address, or the bytes read at a physical address and whether some are
poisoned (R247); it reaches its reader from a VX cycle on. -/
structure MemReturn where
  who : MemWho
  fault : Option (Nat × Nat) := .none
  pa : Nat := 0
  bytes : List Byte := []
  bad : Bool := false
  due : Nat := 0
  deriving DecidableEq, Repr

/-- Who caused an event (R432): privilege 0 U, 1 M, 2 device; master kind and index; class, none for an idle thread. -/
structure EvBy where
  priv : Nat := 2
  kind : Nat := 0
  idx : Nat := 0
  cls : Option Nat := some 0
  deriving DecidableEq, Repr

/-- The address that an event carries (R433): none, a scratchpad word, or a DVA. -/
inductive EvAddr where
  | none
  | word (a : Nat)
  | dva (a : Nat)
  deriving DecidableEq, Repr

/-- For whom a request to DRAM is made, as its events carry it (R432, R436): the requester's quadrant, 4 where none counts it; its
attributes; its DVA; and, for a write, the address that its data come from. -/
structure ReqFor where
  q : Nat := 4
  by_ : EvBy := {}
  dva : Nat := 0
  src : EvAddr := .none
  deriving DecidableEq, Repr

/-- A request in a memory channel's queue (R241): its deadline, physical address, length, and whether it writes. -/
structure DramReq where
  dl : Nat
  pa : Nat
  len : Nat
  write : Bool := false
  who : MemWho := .posted
  for_ : ReqFor := {}
  deriving DecidableEq, Repr

/-- A memory channel (R241, R246, R399): its queue by entry index; burst slots since the last block of 200 began, and how many of
them were reserved ones; its check-line cache with the line used last first; blocks to rewrite; its patrol's next place and the DT
of its last granule; the DT of its last ZQ calibration; its last oscillator reading; and whether it is
retraining. -/
structure MemChan where
  queue : SMap (Option DramReq) := []
  slot : Nat := 0
  reserved : Nat := 0
  check : List Nat := []
  rewrite : List Nat := []
  patrol : Nat := 0
  patrolAt : Nat := 0
  zqAt : Nat := 0
  oscAt : Nat := 0
  retrain : Bool := false
  deriving DecidableEq, Repr

/-- A page-table walk in flight (R244): the cache it fills, the address wanted and its use (0 read, 1 write, 2 fetch), its
deadline, whom it serves, the FAULT_INFO source number, and the VX cycle at which it returns. -/
structure Walk where
  cache : Nat
  dva : Nat
  use : Nat
  dl : Nat
  who : MemWho
  source : Nat
  /-- Bytes to read once translated; none where the reader goes on by itself. -/
  len : Nat := 0
  due : Nat
  for_ : ReqFor := {}
  deriving DecidableEq, Repr

/-- The memory controllers and the translation hardware (R241-R252, R399). A cache is a list of (page index, entry), used last
first; its number is 0 to 31 for a group of 8 DMA channels, 32 to 63 for a matrix engine, 64 to 67 for a quadrant's image
pipes, 128 to 383 for a general core. -/
structure MemSys where
  chans : SMap MemChan := []
  caches : SMap (List (Nat × Nat)) := []
  walks : SMap (List Walk) := []
  returns : List MemReturn := []
  /-- Requests that wait for a free queue entry. -/
  stalled : List DramReq := []
  /-- DT for which each quadrant's imbalance condition has held, and the whole milliseconds of it that have been counted (R249). -/
  imb : SMap Nat := []
  imbMs : SMap Nat := []
  /-- Quadrants whose channels are in self-refresh (R381, R389). -/
  selfRefresh : List Nat := []
  /-- Channels of each quadrant whose patrol has finished the quadrant's pass (R399). -/
  passes : SMap Nat := []
  /-- VX cycle from which each quadrant's DMA issuer decides again (R240). -/
  issueAt : SMap Nat := []
  deriving DecidableEq, Repr

/-- A dense tile that the first pass counted (R135, R136): its place, badness, RANGE pixels, and the two 16-bit values of its list
entry: window centre, or the flow medians. -/
structure VisTile where
  tx : Nat
  ty : Nat
  bad : Nat
  ranges : Nat
  a : Nat
  b : Nat
  deriving DecidableEq, Repr

/-- Path costs of one pixel of a line (R126): the low end of its window, and the sums L of the paths from the upper left, above
and the upper right. -/
structure PathPx where
  lo : Nat
  ul : List Nat
  up : List Nat
  ur : List Nat
  deriving DecidableEq, Repr

/-- A flow block (R131): its vector 4g, whether its best lies on the window's edge, its confidence, and the backward vector. -/
structure FlowBlk where
  x : Int
  y : Int
  range : Bool
  conf : Nat
  bx : Int := 0
  by_ : Int := 0
  deriving DecidableEq, Repr

/-- A feature as the cell store and the list hold it (R157, R160): descriptor bits as a number. -/
structure Feat where
  x : Nat
  y : Nat
  score : Nat
  level : Nat
  flags : Nat := 0
  orient : Nat := 0
  dist : Nat := 0xFFFF
  id : Nat := 0
  age : Nat := 0
  desc : Nat := 0
  deriving DecidableEq, Repr

/-- A unit of work in a datapath (R102, R118, R149): its context, what it is, and when it began and ends: VX cycles, or fold
cycles in a fold run. -/
structure VisWork where
  ctx : Nat
  /-- FEA match datapath: 0 list, 1 index, 2 feature. FEA detect datapath: the level. -/
  unit : Nat := 0
  began : Nat
  due : Nat
  /-- The cycle in which it began, and the cycle up to which CNT1 has counted it (R117, R148). -/
  start : Nat := 0
  counted : Nat := 0
  /-- A stop ends it after this many tiles (R105). -/
  cut : Option Nat := .none
  deriving DecidableEq, Repr

/-- A tile row for an output ring: which row of its plane, its bytes, and the bytes of one tile. -/
structure VisOut where
  ring : Nat
  row : Nat
  bytes : List Byte
  tile : Nat := 0
  deriving DecidableEq, Repr

/-- A descriptor context of a vision engine (R101-R170). -/
structure VisCtx where
  live : Bool := false
  addr : Nat := 0
  desc : List Byte := []
  dl : Nat := 0
  starter : Starter := .none
  /-- Member of a run of this fold of its quadrant (R217). -/
  fold : Option Nat := .none
  /-- Next tile row: PYM input, WRP output, STE and FLW fine or pixel; and of the coarse or block datapath. -/
  row : Nat := 0
  rowA : Nat := 0
  /-- Next tile row by level: PYM output rows, FEA detected rows. -/
  rows : List Nat := [0, 0, 0, 0, 0, 0, 0, 0]
  /-- Input slots released so far, by ring, and rows below which they are to be released as they come (R114). -/
  rel : SMap Nat := []
  keep : SMap Nat := []
  /-- PYM: tile rows formed that wait for a second slot of their ring (R102). -/
  owed : List VisOut := []
  /-- A void stop has arrived: the context ends with the tiles in progress (R105). -/
  stop : Bool := false
  /-- STE, FLW: 0 first pass, 1 awaiting a grant, 2 refining. FEA: 0 detection, 1 selection and match, 2 awaiting, 3 retrying. -/
  phase : Nat := 0
  trunc : Bool := false
  /-- VX cycle from which the pass's end, or the next truncated row, is due. -/
  due : Nat := 0
  /-- WRP: pixels given a source-invalid value. -/
  invalid : Nat := 0
  /-- PYM: lines of each level so far. STE: the coarse lines. -/
  lines : List (List (List Nat)) := []
  /-- STE: path costs of the last coarse and of the last fine line. -/
  pathA : List PathPx := []
  pathB : List PathPx := []
  /-- FLW: rows of blocks. -/
  blocks : List (List FlowBlk) := []
  tiles : List VisTile := []
  /-- Tiles truncated, list entries, and how refinement went: patches consumed, tiles refined, of which level 2, abandoned. -/
  level3 : Nat := 0
  entries : Nat := 0
  tstop : Option Nat := .none
  consumed : Nat := 0
  refined : Nat := 0
  refined2 : Nat := 0
  abandoned : Nat := 0
  /-- FEA: the cell store, the list, the previous list's entries, features dropped by list length and otherwise. -/
  cells : List Feat := []
  list : List Feat := []
  prev : List Feat := []
  full : Nat := 0
  dropped : Nat := 0
  /-- FEA: 0 detection, 1 list written, 2 index built; the next feature; entries of the previous list claimed; counts. -/
  stage : Nat := 0
  next : Nat := 0
  claimed : List Nat := []
  matched : Nat := 0
  retried : Nat := 0
  retryHit : Nat := 0
  noFlow : Bool := false
  /-- FEA: flow vectors used so far, by place in the list. -/
  flows : List (Option (Int × Int)) := []
  deriving DecidableEq, Repr

/-- A vision engine beside its contexts: the starts that wait for a context (R101), and its three datapaths (R118, R149). -/
structure VisEng where
  waiting : List StartMsg := []
  work : List (Option VisWork) := [.none, .none, .none]
  deriving DecidableEq, Repr

/-- A weight tile (R253, R256): its format, rows and columns, element codes by row and, in an MX format, scale bytes by block row. -/
structure MeTile where
  fmt : Nat := 0
  elems : List (List Nat) := []
  scales : List (List Nat) := []
  deriving DecidableEq, Repr

/-- A weight buffer (R253, R272): its tile, the cycle from which it is usable, and the cycle from which it is free. -/
structure MeBuf where
  tile : MeTile := {}
  usable : Nat := 0
  free : Nat := 0
  deriving DecidableEq, Repr

/-- A table slot (R262): the 1,040 bytes loaded, and the cycle from which it is usable. -/
structure MeLut where
  bytes : List Byte := []
  usable : Nat := 0
  deriving DecidableEq, Repr

/-- A load in progress (R272): into a weight buffer or a table slot, and the cycle in which it is complete. -/
inductive MeLoad where
  | tile (buf : Nat) (t : MeTile) (due : Nat)
  | table (slot : Nat) (t : MeLut) (due : Nat)
  deriving DecidableEq, Repr

/-- What the post unit does with a row (R261): the POST word in force, the words of the scale-and-bias vector and of the row operand, the
row's reduction, RINIT, and its table where a later load has replaced that in the slot. -/
structure MePost where
  set : Nat
  sb : List Nat := []
  ro : Nat := 0
  row : Nat := 0
  rinit : Bool := false
  table : Option (List Byte) := .none
  deriving DecidableEq, Repr

/-- A row of a command in the cycle in which it enters the array, or is passed over because a mask skips it (R271, R276): the command's
key, the accumulator row, and what is counted as it enters (R258, R281, R436). -/
structure MeEnter where
  at_ : Nat
  key : Nat
  row : Nat
  skipped : Bool := false
  sat : Nat := 0
  macs : Nat := 0
  deriving DecidableEq, Repr

/-- An output row on its way to the scratchpad (R272): the cycle its row entered, the cycle it is visible, its word address, its
elements as they come to the post unit and what that does with them, output format and rounding, and the reductions that are written
with it, by word address, half and accumulator row, with FIN and EPS (R263). -/
structure MeOut where
  entered : Nat
  due : Nat
  word : Nat := 0
  vals : List Nat := []
  ofmt : Nat := 0
  sr : Bool := false
  post : Option MePost := .none
  emits : List (Nat × Bool × Nat) := []
  fins : Nat × Nat := (0, 0)
  /-- The command that the row belongs to, by run and index (R438). -/
  key : Nat := 0
  deriving DecidableEq, Repr

/-- An accepted launch (R268, R269): its block's word address, the block, deadline and starter. -/
structure MeLaunch where
  addr : Nat
  block : List Byte
  dl : Nat
  starter : Starter
  deriving DecidableEq, Repr

/-- A launch, or a member's part of a fold run, in progress: the commands fetched from the first on, whether a fetch is under way,
its last command and bases, what it has done, and how it has been stopped. -/
structure MeRun where
  no : Nat
  launch : MeLaunch
  /-- Fold of whose run this is a part. -/
  fold : Option Nat := .none
  cmds : List Nat := []
  /-- DT at which each of them was fetched (R438). -/
  fetchedAt : List Nat := []
  fetching : Bool := false
  index : Nat := 0
  bases : List Nat := [0, 0, 0, 0]
  completed : Nat := 0
  skipped : Nat := 0
  /-- END has ended it, or a stop with this code. -/
  ended : Bool := false
  stop : Option Nat := .none
  /-- In a fold: the setup commands have all issued; units started; a unit is in progress. -/
  setup : Bool := false
  unit : Nat := 0
  inUnit : Bool := false
  deriving DecidableEq, Repr

/-- A command context of a matrix engine (R253-R270, R276): queued launches by slot, the launch in progress and the fold run's part,
formats in force, the POST and MASK settings as their command words with the addresses they named, accumulators by row, reductions by row
(value and count), the accumulators before the command whose rows are entering, the rows that have not entered yet, weight buffers, tables,
loads and outputs under way, and the cycle from which it may issue. -/
structure MeCtx where
  queue : SMap (Option MeLaunch) := []
  run : Option MeRun := .none
  frun : Option MeRun := .none
  afmt : Nat := 0
  wfmt : Nat := 0
  ofmt : Nat := 0
  sr : Bool := false
  eps : Nat := 0
  post : Nat := 0
  postAt : List Nat := [0, 0, 0]
  mask : Nat := 0
  maskAt : Nat := 0
  acc : SMap (List Nat) := []
  red : SMap (Nat × Nat) := []
  was : Option (SMap (List Nat)) := .none
  entering : List MeEnter := []
  bufs : List MeBuf := [{}, {}]
  luts : List MeLut := [{}, {}]
  loads : List MeLoad := []
  outs : List MeOut := []
  issueAt : Nat := 0
  deriving DecidableEq, Repr

/-- A matrix engine (R253-R281): its contexts, the starts that wait for a queue entry, the load port, the array input of each context
and the rows that have entered since the clock last moved, the random lanes with the cycle from which a row draws from them (R266), and the fold in whose
run it is. -/
structure MeSt where
  ctxs : List MeCtx := [{}, {}]
  waiting : List StartMsg := []
  portUntil : Nat := 0
  inputUntil : List Nat := [0, 0]
  busy : Nat := 0
  lanes : List (Nat × List Nat) := [(0, (List.range 128).map (· + 1))]
  /-- MACs performed since the last whole unit of 16,384 was counted (R436). -/
  macs : Nat := 0
  fold : Option Nat := .none
  deriving DecidableEq, Repr

/-- A frame of a pixel slot (R57, R59, R65-R67), as its ROUTE entry was at its Frame Start. Lists hold one item for each of
the 1 + EXPOSURES exposures. -/
structure RxFrame where
  fs : Nat
  index : Nat
  /-- Plane of the stream at the Frame Start (R46). -/
  plane : Nat
  gid : Nat
  pipe : Nat
  sensor : Nat
  typ : Nat
  width : Nat
  height : Nat
  developed : Bool
  embedded : Bool
  exps : Nat
  lines : List Nat := [0, 0, 0]
  /-- Exposures whose Frame Start has opened or joined the frame, and those that have ended. -/
  joined : List Bool := [true, false, false]
  ended : List Bool := [false, false, false]
  /-- Last good line of each exposure, and bad lines at its start that wait for one (R66). -/
  good : List (Option (List Byte)) := [.none, .none, .none]
  lead : List Nat := [0, 0, 0]
  bad : Nat := 0
  deriving DecidableEq, Repr

/-- A bulk transfer of a slot (R69, R70). -/
structure BulkXfer where
  count : Nat := 0
  bad : Bool := false
  /-- It reached 2^32 bytes: the rest up to Frame End is discarded. -/
  past : Bool := false
  deriving DecidableEq, Repr

/-- A slot of a receive port: what its last enable took, its open frame, and its count of accepted Frame Starts (R56-R61). -/
structure RxSlot where
  en : Bool := false
  vc : Nat := 0
  kind : Nat := 0
  exposures : Nat := 0
  frame : Option RxFrame := .none
  /-- Packets are discarded until the next Frame Start (R67). -/
  discard : Bool := false
  bulk : Option BulkXfer := .none
  emb : List Byte := []
  embSeen : Bool := false
  deriving DecidableEq, Repr

/-- Bytes of a packet in a port's receive buffer: the hub link they go to, how many are left, and their deadline (R58). -/
structure RxBuf where
  q : Nat
  len : Nat
  dl : Nat
  deriving DecidableEq, Repr

/-- A receive port (R52-R58): what its last enable took, and its receive buffer. -/
structure RxPort where
  en : Bool := false
  cphy : Bool := false
  lanes : Nat := 0
  rate : Nat := 0
  laneMap : Nat := 0
  /-- The initial skew calibration has been received since the enable (R53). -/
  calibrated : Bool := false
  buf : List RxBuf := []
  deriving DecidableEq, Repr

/-- An open window of a sync group (R63): its start, the Frame Starts that joined it, by stream and frame index, and the home
quadrants of the graphs that they opened instances of. -/
structure SyncWin where
  start : Nat
  joined : List (Nat × Nat)
  homes : List Nat := []
  deriving DecidableEq, Repr

/-- A transfer pushed to a sensor controller (R73). -/
structure CciXfer where
  target : Nat
  read : Bool
  len : Nat
  group : Bool
  stream : Nat
  reg : Nat
  wide : Bool
  data : List Byte
  dl : Nat := 0
  inst : Option InstRef := .none
  /-- Instance in whose control digest the push is an item (R74). -/
  digest : Option InstRef := .none
  /-- Pushing origin's number (R29), and the CT cycle in which the push reached the queue (R74). -/
  origin : Nat := 0
  cycle : Nat := 0
  deriving DecidableEq, Repr

/-- What a sensor controller does on its bus (R73): a transfer, or the hold or release write of a profile. -/
inductive CciOp where
  | hold (sensor : List Byte)
  | xfer (x : CciXfer)
  | release (sensor : List Byte)
  deriving DecidableEq, Repr

/-- A sensor controller (R71-R76). -/
structure CciSt where
  queue : List CciXfer := []
  /-- Round-robin pointer before the pushes of the current CT cycle (R27, R74). -/
  base : Nat := 0
  op : Option CciOp := .none
  /-- Attempts of the operation that have failed, and the DT from which the next may begin. -/
  tries : Nat := 0
  retryAt : Option Nat := .none
  /-- Group hold in force with this profile, and the group's acknowledged writes that wait for the release's stamp. -/
  held : Option (List Byte) := .none
  acked : List CciXfer := []
  /-- Targets to which SETDASA gave their static address as dynamic address (R71), and in-band interrupts NACKed. -/
  dasa : List Nat := []
  ibiNacks : Nat := 0
  deriving DecidableEq, Repr

/-- A frame-sync generator (R77, R78): its next edge, its last active edge, edges due in locked mode, the end of its pulse,
and the level of its output. -/
structure FsoSt where
  on : Bool := false
  next : Option Nat := .none
  last : Option Nat := .none
  /-- Last accepted input edge (R78). -/
  heard : Option Nat := .none
  due : List Nat := []
  pulseEnd : Option Nat := .none
  active : Bool := false
  deriving DecidableEq, Repr

/-- A void of a frame that waits for the frame's admission (R193, R195). -/
structure EarlyVoid where
  stream : Nat
  index : Nat
  reason : Nat
  remote : Bool
  dt : Nat
  deriving DecidableEq, Repr

/-- Camera ingress and sensor control (R52-R81). Slots are keyed by stream ID, sync windows by group. -/
structure RxSt where
  ports : SMap RxPort := []
  slots : SMap RxSlot := []
  sync : SMap (Option SyncWin) := []
  cci : SMap CciSt := []
  fso : SMap FsoSt := []
  /-- Receive ports accept no packet (R381, R389). -/
  stopped : Bool := false
  /-- Voids of a frame whose instance has not been admitted yet: stream, frame index, reason. -/
  early : List EarlyVoid := []
  /-- Outcome flags of a frame whose instance has not been admitted yet: stream, frame index, mask. -/
  earlyFlags : List (Nat × Nat × Nat) := []
  deriving DecidableEq, Repr

/-- A line on its way through an image pipe: its exposure, its payload, whether a receive port repaired it, and its arrival
number among the pipe's lines (R65, R85). -/
structure IspLine where
  index : Nat
  exp : Nat
  data : List Byte
  repaired : Bool
  arr : Nat
  deriving DecidableEq, Repr

/-- Sensor values of a frame (R95): exposure, analogue gain, digital gain. -/
structure SensorVals where
  expo : Nat := 0
  again : Nat := 0
  dgain : Nat := 0
  deriving DecidableEq, Repr

/-- What the context keeps of the stream's previous frame (R89, R96). -/
structure PrevFrame where
  stream : Nat
  index : Nat
  /-- Its last line left stage 6. -/
  passed : Bool
  /-- Its instance has been voided. -/
  voided : Bool := false
  tab5 : Nat
  tnrEn : Bool
  vals : SensorVals
  deriving DecidableEq, Repr

/-- A tile row that waits for a free slot of its ring (R86, R91): ring, bytes, and its frame. -/
structure IspRow where
  ring : Nat
  bytes : List Byte
  stream : Nat := 0
  index : Nat := 0
  deriving DecidableEq, Repr

/-- Counts of a statistics block in progress (R92). -/
structure StatsAcc where
  ae : SMap Nat := []
  awbR : SMap Nat := []
  awbG : SMap Nat := []
  awbB : SMap Nat := []
  awbN : SMap Nat := []
  lumaSum : SMap Nat := []
  lumaMax : SMap Nat := []
  lumaN : SMap Nat := []
  flags : Nat := 0
  deriving DecidableEq, Repr

/-- The frame open in a context (R84-R92). -/
structure IspFrame where
  stream : Nat
  index : Nat
  fs : Nat
  plane : Nat
  gid : Nat
  width : Nat
  height : Nat
  typ : Nat
  developed : Bool
  embedded : Bool
  exps : Nat
  /-- Lines taken into stage 1 so far, by exposure, each with its payload and whether it was repaired. -/
  taken : List (List (List Byte × Bool)) := [[], [], []]
  /-- Exposures whose copy of a line waits in the HDR staging table, by line, in the order in which they came (R87). -/
  staged : SMap (List Nat) := []
  /-- Lines that have left stage 12: how many, and their pixels, three U16 channels and flags, for the scalers. -/
  done : Nat := 0
  out : List (List (Nat × Nat × Nat × Nat)) := []
  /-- Tile rows of each output that have been formed. -/
  rows : List Nat := [0, 0]
  /-- Context registers in force for the frame, by offset (R93). -/
  set : SMap W32 := []
  /-- TNR mode (R89): 0 compensated, 1 uncompensated, 2 reset. -/
  mode : Nat := 2
  /-- A set became active at its Frame Start (R96), and the stream had no accepted frame before. -/
  activated : Bool := false
  first : Bool := false
  fixed : Bool := false
  /-- E of the frame, once fixed (R96). -/
  epoch : Nat := 0
  scale : Nat := 256
  vals : SensorVals := {}
  /-- Sensor values that the embedded data of the frame reported (R95). -/
  report : Option SensorVals := .none
  stats : StatsAcc := {}
  statsDone : Bool := false
  deriving DecidableEq, Repr

/-- A stream context of an image pipe (R84, R86, R93, R95). Its shadow set is its registers; the active and the pending set
hold register values by offset. -/
structure IspCtx where
  frame : Option IspFrame := .none
  /-- The next frame of the stream, open while lines of the frame before are still in the pipe. -/
  next : Option IspFrame := .none
  buf : List IspLine := []
  stalled : Bool := false
  rows : List IspRow := []
  active : SMap W32 := []
  /-- The committed sets that await a Frame Start, with their commit DTs, oldest first: the last commit before this DT, and one of this
  DT, which a Frame Start of the same DT leaves pending (R10, R32). -/
  pending : List (Nat × SMap W32) := []
  prev : Option PrevFrame := .none
  /-- Predicted values: frame from which they hold, which value (0 exposure, 1 analogue, 2 digital gain), value. -/
  predict : List (Nat × Nat × Nat) := []
  vals : SensorVals := {}
  tnrLast : Nat := 0
  /-- A frame that ended before its first pixel line: its epoch is settled at the next Frame Start (R96). -/
  lost : Option IspFrame := .none
  deriving DecidableEq, Repr

/-- A pipe's line in work: its context, the line, and the VX cycle (5 per DT) at which it has passed (R85). -/
structure IspWork where
  ctx : Nat
  line : IspLine
  due : Nat
  deriving DecidableEq, Repr

/-- The image pipes (R82-R99): contexts by 16 * pipe + context, lines in work and arrival numbers by pipe. -/
structure IspSt where
  ctxs : SMap IspCtx := []
  work : SMap (Option IspWork) := []
  arr : SMap Nat := []
  deriving DecidableEq, Repr

/-- Why a thread is not ready (R304, R305, R309, R310): it waits for an access at the open pool, for a DRAM access or its translation,
for the refill of an instruction cache line, each of the two last also for room in the translation walker; for its earlier stores or room
in the store buffer, for a ring test (RSPACE or RFILL, region, k), for the result of a post, or for an event. -/
inductive GcPark where
  | none
  | pool
  | data (acc : GcAcc)
  | fetch (line : Nat)
  | walk (acc : GcAcc)
  | walkFetch (line : Nat)
  | stores
  | ring (space : Bool) (region k : Nat)
  | post (rd : Nat)
  | event (limit rd : Nat)
  deriving DecidableEq, Repr

/-- A thread of a general core (R298-R302): registers by number, program counter, mode (0 U, 3 M), its CSRs, the event it serves with
its full deadline, attachment and tag, its reservation, and when and for what it is not ready. -/
structure GcThread where
  x : SMap W64 := []
  f : SMap W32 := []
  pc : Nat := 0
  mode : Nat := 3
  fcsr : Nat := 0
  mie : Nat := 0
  meip : Bool := false
  mtvec : Nat := 0
  mscratch : Nat := 0
  mepc : Nat := 0
  mcause : Nat := 0
  mtval : Nat := 0
  /-- mstatus: MIE, MPIE, MPP, FS and MPRV at their places; other fields read as fixed. -/
  mstatus : Nat := 0x2000
  mcounteren : Nat := 0
  instret : Nat := 0
  /-- What mcycle adds to the core's cycle count. -/
  cycleOff : Nat := 0
  busy : Bool := false
  /-- A save under way (R321): the event it is for, that event's slot where it is a resume entry, and the slot that takes the state;
  a restore under way from a slot, with its end in MX cycles. -/
  save : Option (ReadyEnt × Option Nat × Nat) := .none
  restore : Option (ReadyEnt × Nat × Nat) := .none
  attach : Option InstRef := .none
  ev : Event := {}
  dl : Nat := 0
  tag : Option (InstRef × Nat) := .none
  /-- The event that a mailbox delivery brought, with its tag (R322, R323). -/
  mail : Option (Event × Option (InstRef × Nat)) := .none
  park : GcPark := .none
  /-- MX cycle from which it may issue, and the serial number of its last wait. -/
  readyAt : Nat := 0
  wait : Nat := 0
  resv : Option Nat := .none
  deriving DecidableEq, Repr

/-- A general core (R300, R304, R305): its instruction cache by set, a line as its DVA and bytes, used last first; and the MX cycle
from which it may issue again. -/
structure GcCore where
  icache : SMap (List (Nat × List Byte)) := []
  issueAt : Nat := 0
  deriving DecidableEq, Repr

/-- A sample record in the making (R438, R439): source, flags, unit, skip count, identity, detail, deadline, DT of stage 0, DT of the
stages 1 to 5 reached so far, stream and class. -/
structure SampleRec where
  source : Nat
  flags : Nat := 0
  unit : Nat
  skip : Nat := 0
  ident : Nat := 0
  detail : Nat := 0
  dl : Nat
  start : Nat := 0
  stamps : SMap Nat := []
  stream : Nat := 0xFF
  cls : Nat := 0xFF
  deriving DecidableEq, Repr

/-- A tracker's item (R438): a number of the model's that names the item within its source, and its record. -/
structure SampleTrack where
  key : Nat
  rec_ : SampleRec
  deriving DecidableEq, Repr

/-- The sampler and the snapshots of a quadrant's or the hub's PMU (R430, R437, R438): LFSRs, items since the last record, trackers,
records to be written with the VX cycle of their end, snapshot by live counter address. -/
structure PmuSt where
  lfsr : List Nat := [1, 2, 3, 4]
  skip : List Nat := [0, 0, 0, 0]
  track : List (Option SampleTrack) := [.none, .none, .none, .none]
  due : List (SampleRec × Nat) := []
  snap : SMap Nat := []
  deriving DecidableEq, Repr

/-- A firmware load in progress (R418): the bank it goes to, its source slot and the bytes received. -/
structure FwLoad where
  bank : Nat
  rxp : Nat
  slot : Nat
  bytes : List Byte := []
  open_ : Bool := false
  deriving DecidableEq, Repr

/-- The security block (R410-R428) but for the fuses: firmware banks, the bank that runs, challenge and unlock, attestation. -/
structure SecSt where
  banks : List (List Byte) := [[], []]
  valid : List Bool := [false, false]
  slots : List Nat := [0xFF, 0xFF]
  /-- Bank whose firmware runs; none in recovery or before power-up (R417). -/
  running : Option Nat := .none
  /-- FW_BOOT.BANK, held in NAND. -/
  boot : Nat := 0
  fallback : Bool := false
  recovery : Bool := false
  fwLoad : Option FwLoad := .none
  /-- A restart of the management core is under way (R396, R406, R419), with the bank that it starts. -/
  restarting : Option Nat := .none
  /-- The debug port's state (R423), as the fuses and the unlock make it. -/
  debug : Nat := 0
  /-- The challenge in force and the DT of its end; the unlock in force by its end (R424), and whether one has occurred since
  power-up. -/
  chal : Option (List Byte × Nat) := .none
  unlock : Option Nat := .none
  unlocked : Bool := false
  fails : Nat := 0
  /-- Fuse bits waiting to be programmed, each with whether it is the last of a revocation or an advance, and the DT at which the bit in
  progress is set (R412, R420, R422). -/
  queue : List (Nat × Bool) := []
  fuseDue : Nat := 0
  /-- PROG_DATA and DBG_RESP as last written. -/
  prog : Nat := 0
  resp : SMap Byte := []
  /-- A report being made, as its signed bytes; the report last ready; reports since power-up (R426). -/
  att : Option (List Byte) := .none
  attBuf : List Byte := []
  attCount : Nat := 0
  deriving DecidableEq, Repr

/-- The clock controller and monitor beside CLK's registers (R377-R386): the 24-bit fraction of DT, the last good counts, newest
first, whether the last window was bad, the DT at which REFCLK stopped, and for MXCLK, VXCLK, CTCLK and PKCLK the place in the
domain's sequence of dividers, its last being INTOSC, with the end of the dwell there in tenths of a DT. -/
structure ClkSt where
  frac : Nat := 0
  hist : List Nat := []
  bad : Bool := false
  stopAt : Option Nat := .none
  ramp : List Nat := [14, 17, 19, 21]
  due : List Nat := [0, 0, 0, 0]
  /-- DT of the last trim step of INTOSC (R400). -/
  trimAt : Option Nat := .none
  deriving DecidableEq, Repr

/-- What wakes the module (R390), or has it start its dies: the power-up (R392) and a write request. -/
inductive WakeCause where
  | i3c | fsync | timer | powerOn | write
  deriving DecidableEq, Repr

/-- Rails, pins and comparators (R390, R392, R395), and the power sequences (R387-R393, R451). -/
structure PowSt where
  /-- The standby domain runs; the comparator states of PWR.MON; RESET_N is high. -/
  standby : Bool := true
  v48 : Bool := true
  v3 : Bool := true
  inletOk : Bool := true
  hubOk : Bool := true
  pwrfailN : Bool := true
  resetN : Bool := true
  /-- The hub is powered, its firmware has started, the compute and base dies are powered, the hold-up store is full. -/
  hubUp : Bool := true
  booted : Bool := false
  computeUp : Bool := false
  storeFull : Bool := false
  /-- DT from which the I3C target answers (R391). -/
  i3cFrom : Nat := 0
  /-- DT t0 of the power fail whose sequence runs, and whether the dies are gated (R393). -/
  fail : Option Nat := .none
  gated : Bool := false
  /-- Entry to a fallow state: its code and the commit DT (R389). -/
  fallow : Option (Nat × Nat) := .none
  /-- DT for which the conditions of IDLE entry have held (R388). -/
  quiet : Nat := 0
  /-- MX cycles that the general cores have been clocked (R299, R387). -/
  coreCycles : Nat := 0
  /-- A blocked wake: its source and DT (R390). -/
  blocked : Option (WakeCause × Nat) := .none
  /-- DT has reached WAKE_DT in a fallow state (R390). -/
  timerDue : Bool := false
  deriving DecidableEq, Repr

/-- Telemetry, thermal and aging service (R400-R405): the next sequence and the NAND ring by slot; DT of the last record due, of the last
sample and of the last margin reading; samples in a row below the limits; the last sample was over a trip limit; a trip write that waits for the
management core; records missed since the last one; too few spare blocks (R402); half millivolts of each set-point; and what the second in
progress has shown: maxima of inlet, hub and die temperatures, minima of the margins, SRC other than 0, and the counts at the last record. -/
structure TelSt where
  seq : Nat := 0
  ring : SMap (List Byte) := []
  lastAt : Nat := 0
  sampleAt : Nat := 0
  marginAt : Nat := 0
  cool : Nat := 0
  tripping : Bool := false
  tripWaits : Bool := false
  gap : Bool := false
  spareLow : Bool := false
  half : List Nat := [0, 0, 0, 0]
  temps : List (Option Int) := [.none, .none, .none, .none, .none, .none]
  margins : List (Option Nat) := [.none, .none, .none, .none]
  src : Bool := false
  base : List Nat := []
  deriving DecidableEq, Repr
/-- The module but for its fuse array and the queue of commands: device time (R9), the counter from which free values are
drawn (the model's own), stored registers, counts, memories, messages in flight and every block. -/
structure Dev where
  dt : Nat := 0
  freeCount : Nat := 0
  /-- DT before which units that IDLE had gated begin nothing (R388). -/
  wakeAt : Nat := 0
  serial : Nat := 0
  regs : SMap W32 := []
  cnts : SMap (BitVec 48) := []
  mem : Mem := {}
  fab : Fabric := {}
  log : LogSt := {}
  i3c : I3cSt := {}
  cfg : CfgSt := {}
  ctxs : SMap DrvCtx := []
  drv : SMap DrvSt := []
  prog : SMap W64 := []

  /-- Settings epoch E of each stream, and the sensor values of its last frame (R96). -/
  epochs : SMap Nat := []
  lastVals : SMap SensorVals := []
  /-- Flow-complete signals of each stream, the last eight: frame index and DT (R89, R182). -/
  flowDone : SMap (List (Nat × Nat)) := []
  regions : SMap Region := []
  audit : SMap AuditTag := []
  flocks : SMap FlockSt := []
  folds : SMap FoldSt := []
  spd : SMap SpdSt := []
  sec : SecSt := {}
  clk : ClkSt := {}
  pow : PowSt := {}
  tel : TelSt := {}
  dma : SMap DmaCh := []
  tx : SMap TxPort := []
  peer : PeerSt := {}
  shp : SMap ShpSt := []
  memsys : MemSys := {}
  rx : RxSt := {}
  isp : IspSt := {}
  /-- Vision engines by 8 * quadrant + v (R432), their contexts by 128 * engine + context; 127 is a fold run's. -/
  eng : SMap VisEng := []
  vis : SMap VisCtx := []
  /-- Matrix engines. -/
  me : SMap MeSt := []
  /-- General cores, and their threads by 16 * core + thread. -/
  cores : SMap GcCore := []
  threads : SMap GcThread := []
  /-- PMUs of the quadrants, and of the hub as 4 (R429-R442). -/
  pmu : SMap PmuSt := []
  /-- Latched upper halves, by reading origin and address (R430). -/
  latch : SMap Nat := []
  /-- Round-robin pointer P of each arbiter, by arbiter number (R27, R29). -/
  rr : SMap Nat := []
  /-- Outcome records sealed, oldest first, and copies of reason 7 queued to shed receivers (R187, R342). -/
  outcomes : List Outcome := []
  deriving DecidableEq, Repr

/-- The fuse array, 2,048 bytes (R411). -/
structure FuseSt where
  bytes : SMap Byte := []
  deriving DecidableEq, Repr

/-- The state of the module and the queue of commands that wait, first in, first out. -/
structure State where
  dev : Dev := {}
  fuse : FuseSt := {}
  pending : List Instr := []
  deriving DecidableEq, Repr

/-- The module right after reset. (DESIGN CHOICE, log 7 and 9 and 10.) -/
def State.reset : State := {}

end Sys2Proof.Machine
end

