-- ==== Sys2Proof/Machine/Ops.lean ====
section
/-! DEFINITION. Named operations over registers, counters, the scratchpad with its error correction, DRAM, messages and the
arbiter rule, shared by every unit. -/

namespace Sys2Proof.Machine

/-- A meaning that acts on the module alone: fuses and the queue of commands stay as they are. (DESIGN CHOICE, log 3.) -/
def onDev (f : Dev → Dev) (s : State) : Out State := .next { s with dev := f s.dev }

/-- A step that happens only where the state allows it; otherwise nothing happens. (DESIGN CHOICE, log 3.) -/
def guardDev (g : Bool) (f : Dev → Dev) (d : Dev) : Dev := if g then f d else d

/-! ### Registers -/

/-- What the module stores for a register, reset value included. -/
def regRaw (d : Dev) (a : Nat) : W32 := mapGet (BitVec.ofNat 32 (regReset a)) a d.regs

/-- The module with a stored register replaced. -/
def setRaw (a : Nat) (v : W32) (d : Dev) : Dev :=
  { d with regs := mapSet (BitVec.ofNat 32 (regReset a)) a v d.regs }

/-- A stored register of a block's unit. -/
def getR (d : Dev) (b : Blk) (i off : Nat) : W32 := regRaw d (addrOf b i off)

/-- A field of a stored register. -/
def getF (d : Dev) (b : Blk) (i off lo len : Nat) : Nat := fld (getR d b i off) lo len

/-- A stored register replaced. -/
def setR (b : Blk) (i off v : Nat) (d : Dev) : Dev := setRaw (addrOf b i off) (BitVec.ofNat 32 v) d

/-- A field of a stored register replaced. -/
def setF (b : Blk) (i off lo len v : Nat) (d : Dev) : Dev :=
  setR b i off (putBits (getR d b i off).toNat lo len v) d

/-- Bits of a stored register set. -/
def orR (b : Blk) (i off m : Nat) (d : Dev) : Dev :=
  setR b i off ((getR d b i off).toNat ||| m) d

/-- A 64-bit value in a LO and HI register pair at two offsets. -/
def setPair (b : Blk) (i lo hi v : Nat) (d : Dev) : Dev := setR b i hi (v / 2 ^ 32) (setR b i lo v d)

/-- The 64-bit value of a LO and HI register pair. -/
def getPair (d : Dev) (b : Blk) (i lo hi : Nat) : Nat :=
  (getR d b i lo).toNat + 2 ^ 32 * (getR d b i hi).toNat

/-- A counter's 48-bit count; its register shows the low 32 bits. -/
def cntAt (d : Dev) (a : Nat) : BitVec 48 := mapGet 0#48 a d.cnts

/-- A counter advanced; it wraps. -/
def addCnt (b : Blk) (i off n : Nat) (d : Dev) : Dev :=
  { d with cnts := mapUpd 0#48 (addrOf b i off) (· + BitVec.ofNat 48 n) d.cnts }

/-- The bits of I3C.EVSUM that are set and whose IBI is enabled (R367): bit 0 whatever IBI_EN holds. -/
def ibiBits (d : Dev) : Nat := (getR d .i3c 0 0x10).toNat &&& ((getR d .i3c 0 0x14).toNat ||| 1) % 2 ^ 13

/-- A bit of I3C.EVSUM set by its source (R366); one that becomes set while its IBI is enabled asks for an IBI (R367). (DEDUCED, log 94.) -/
def evsum (k : Nat) (d : Dev) : Dev :=
  let d1 := orR .i3c 0 0x10 (2 ^ k) d
  guardDev (!bit (getR d .i3c 0 0x10).toNat k && bit (ibiBits d1) k && d.i3c.ibiOn && d.i3c.ibiOut.isNone && d.i3c.ibiAcked.isNone)
    (fun d => { d with i3c := { d.i3c with ibiDue := true } }) d1

/-! ### Fields of the state: each unit's record by quadrant and index, read and changed -/

def getCtx (d : Dev) (q c : Nat) : DrvCtx := mapGet {} (64 * q + c) d.ctxs
def updCtx (q c : Nat) (f : DrvCtx → DrvCtx) (d : Dev) : Dev := { d with ctxs := mapUpd {} (64 * q + c) f d.ctxs }
def getDrv (d : Dev) (q : Nat) : DrvSt := mapGet {} q d.drv
def updDrv (q : Nat) (f : DrvSt → DrvSt) (d : Dev) : Dev := { d with drv := mapUpd {} q f d.drv }
def getRegion (d : Dev) (q r : Nat) : Region := mapGet {} (256 * q + r) d.regions
def updRegion (q r : Nat) (f : Region → Region) (d : Dev) : Dev :=
  { d with regions := mapUpd {} (256 * q + r) f d.regions }
def getFlock (d : Dev) (q i : Nat) : FlockSt := mapGet {} (256 * q + i) d.flocks
def updFlock (q i : Nat) (f : FlockSt → FlockSt) (d : Dev) : Dev :=
  { d with flocks := mapUpd {} (256 * q + i) f d.flocks }
def getFold (d : Dev) (q f : Nat) : FoldSt := mapGet {} (16 * q + f) d.folds
def updFold (q i : Nat) (f : FoldSt → FoldSt) (d : Dev) : Dev := { d with folds := mapUpd {} (16 * q + i) f d.folds }
def getSpd (d : Dev) (q : Nat) : SpdSt := mapGet {} q d.spd
def updSpd (q : Nat) (f : SpdSt → SpdSt) (d : Dev) : Dev := { d with spd := mapUpd {} q f d.spd }
def getCh (d : Dev) (k : Nat) : DmaCh := mapGet {} k d.dma
def updCh (k : Nat) (f : DmaCh → DmaCh) (d : Dev) : Dev := { d with dma := mapUpd {} k f d.dma }
def getTx (d : Dev) (p : Nat) : TxPort := mapGet {} p d.tx
def updTx (p : Nat) (f : TxPort → TxPort) (d : Dev) : Dev := { d with tx := mapUpd {} p f d.tx }
def getShp (d : Dev) (q : Nat) : ShpSt := mapGet {} q d.shp
def updShp (q : Nat) (f : ShpSt → ShpSt) (d : Dev) : Dev := { d with shp := mapUpd {} q f d.shp }
def getLink (d : Dev) (n : Nat) : Link := mapGet {} n d.peer.links
def updLink (n : Nat) (f : Link → Link) (d : Dev) : Dev :=
  { d with peer := { d.peer with links := mapUpd {} n f d.peer.links } }
def getWin (d : Dev) (w : Nat) : WindowSt := mapGet {} w d.peer.windows
def updWin (w : Nat) (f : WindowSt → WindowSt) (d : Dev) : Dev :=
  { d with peer := { d.peer with windows := mapUpd {} w f d.peer.windows } }
def getSess (d : Dev) (s : Nat) : Session := mapGet {} s d.i3c.sess
def updSess (s : Nat) (f : Session → Session) (d : Dev) : Dev :=
  { d with i3c := { d.i3c with sess := mapUpd {} s f d.i3c.sess } }

/-- The instance that a reference names is live (R171). -/
def instLive (d : Dev) (i : InstRef) : Bool :=
  let c := getCtx d i.q i.ctx
  c.live && c.serial == i.serial

/-- The context still holds the instance that a reference names (R171). -/
def instHeld (d : Dev) (i : InstRef) : Bool :=
  let c := getCtx d i.q i.ctx
  c.held && c.serial == i.serial

/-- A parked context whose mask bits are set in its event word issues again (R182): WAITANY writes the lowest such bit's index. -/
def DrvCtx.wake (c : DrvCtx) : DrvCtx :=
  match c.wait with
  | .join m => if c.ev &&& m = m then { c with wait := .run } else c
  | .waitAny n m =>
    match lowestBit (c.ev &&& m).toNat 0 32 with
    | some k => { c with wait := .run, v := setAt n (BitVec.ofNat 32 k) c.v }
    | none => c
  | _ => c

/-- The context of a referenced instance changed, while it holds that instance. -/
def updInst (i : InstRef) (f : DrvCtx → DrvCtx) (d : Dev) : Dev :=
  guardDev (instHeld d i) (updCtx i.q i.ctx f) d

/-- The reference of the instance in a context. -/
def ctxRef (d : Dev) (q c : Nat) : InstRef := ⟨q, c, (getCtx d q c).serial⟩

/-- The live instances, in order of quadrant and context. -/
def liveInsts (d : Dev) : List InstRef :=
  (d.ctxs.filter (fun e => e.2.live)).map (fun e => ⟨e.1 / 64, e.1 % 64, e.2.serial⟩)

/-- The instance of a starter. -/
def Starter.inst : Starter → Option InstRef
  | .drover i _ _ => some i
  | _ => Option.none

/-- No deadline (R28). -/
def noDeadline : Nat := 2 ^ 64 - 1

/-! ### Messages -/

/-- A post sent to a Shepherd (R16, R314). (DEDUCED, log 6.) -/
def post (p : Post) (d : Dev) : Dev := { d with fab := { d.fab with posts := d.fab.posts ++ [p] } }

/-- A report sent to a home Drover (R181). (DEDUCED, log 6.) -/
def report (r : TagReport) (d : Dev) : Dev := { d with fab := { d.fab with reports := d.fab.reports ++ [r] } }

/-- A start sent to a unit (R183). (DEDUCED, log 6.) -/
def sendStart (m : StartMsg) (d : Dev) : Dev :=
  { d with fab := { d.fab with starts := d.fab.starts ++ [{ m with seq := d.fab.sent }], sent := d.fab.sent + 1 } }

/-- A void stop sent to a unit (R194). (DEDUCED, log 6.) -/
def sendStop (m : StopMsg) (d : Dev) : Dev :=
  { d with fab := { d.fab with stops := d.fab.stops ++ [{ m with seq := d.fab.sent }], sent := d.fab.sent + 1 } }

/-- VX cycles that a control message takes from a quadrant to a unit (R15, R16): a link's, and none inside a quadrant. (DEDUCED, log 44.) -/
def ctlLatency (q unit : Nat) : Nat := if unit / 64 = q then 0 else 24

/-- A grant sent to a refining context in a VX cycle (R185). (DEDUCED, log 6 and 44.) -/
def sendGrant (m : GrantMsg) (d : Dev) : Dev :=
  let at_ := max (5 * d.dt) ((getDrv d m.inst.q).issueAt - 1)
  { d with fab := { d.fab with grants := d.fab.grants ++ [{ m with seq := d.fab.sent, due := at_ + ctlLatency m.inst.q m.unit }]
                               sent := d.fab.sent + 1 } }

/-- A DMA start sent to a channel of another quadrant (R21). (DEDUCED, log 6.) -/
def sendDmaStart (m : DmaStartMsg) (d : Dev) : Dev :=
  { d with fab := { d.fab with dmaStarts := d.fab.dmaStarts ++ [{ m with seq := d.fab.sent }], sent := d.fab.sent + 1 } }

/-- A truncation sent to a context (R182). (DEDUCED, log 6.) -/
def sendTrunc (m : TruncMsg) (d : Dev) : Dev :=
  { d with fab := { d.fab with truncs := d.fab.truncs ++ [{ m with seq := d.fab.sent }], sent := d.fab.sent + 1 } }

/-- The endpoint of a stop: vision engines, matrix engines and folds by unit number, DMA channels and Shepherds beside them. -/
def StopMsg.endpoint (m : StopMsg) : Nat :=
  match m.kind with
  | .dma => 4096 + m.unit
  | .shepherd => 8192 + m.unit
  | _ => m.unit

/-- A message from the same Drover to the same endpoint was sent before a message and has not arrived: the fabric keeps their
order (R17). -/
def behind (d : Dev) (seq endpoint q : Nat) : Bool :=
  d.fab.starts.any (fun m => m.seq < seq && m.unit == endpoint && m.starter.inst.map (·.q) == some q)
    || d.fab.dmaStarts.any (fun m => m.seq < seq && 4096 + m.ch == endpoint && m.starter.inst.map (·.q) == some q)
    || d.fab.stops.any (fun m => m.seq < seq && m.endpoint == endpoint && m.inst.q == q)
    || d.fab.grants.any (fun m => m.seq < seq && m.unit == endpoint && m.inst.q == q)
    || d.fab.truncs.any (fun m => m.seq < seq && m.unit == endpoint && m.inst.q == q)

/-- A start that no message sent before it holds up (R17). -/
def startReady (d : Dev) (m : StartMsg) : Bool :=
  match m.starter.inst with
  | some i => !behind d m.seq m.unit i.q
  | none => true

/-- A DMA start that no message sent before it holds up (R17). -/
def dmaStartReady (d : Dev) (m : DmaStartMsg) : Bool :=
  match m.starter.inst with
  | some i => !behind d m.seq (4096 + m.ch) i.q
  | none => true

/-- A stop that no message sent before it holds up (R17). -/
def stopReady (d : Dev) (m : StopMsg) : Bool := !behind d m.seq m.endpoint m.inst.q

/-- A type-table or class-table field of a quadrant's Shepherd configuration (R326). -/
def shpCfg (d : Dev) (q off size : Nat) : Nat := field (getShp d q).cfg off size

/-- Byte 5 of an event whose source reports a code: ERROR for one other than 0 (R313). -/
def errorFlag (code : Nat) : Nat := if code = 0 then 0 else 16

/-- An event of a device type with the class, order and key of its type-table entry (R314, R326). -/
def typedEvent (d : Dev) (q typ payload : Nat) : Event :=
  { typ := typ, cls := bits (shpCfg d q (0x100 + 16 * typ + 9) 1) 0 3, order := bits (shpCfg d q (0x100 + 16 * typ + 10) 1) 0 2,
    key := bits (shpCfg d q (0x100 + 16 * typ + 12) 4) 0 24, payload := payload }

/-- The type-table entry of a type has its ACCEPT flag set (R314, R326). -/
def shpAccepts (d : Dev) (q typ : Nat) : Bool := bit (shpCfg d q (0x100 + 16 * typ + 11) 1) 0

/-- A 16-byte event as bytes (R313). -/
def eventBytes (e : Event) : List Byte :=
  leBytes 1 e.typ ++ leBytes 1 (bits e.cls 0 3 + 8 * bits e.order 0 2) ++ leBytes 3 e.key ++ leBytes 1 e.flags ++ leBytes 2 0
    ++ leBytes 4 e.dl32 ++ leBytes 4 e.payload

/-- The event that 16 bytes hold (R313); the Shepherd alone sets the flag byte. -/
def eventOf (bs : List Byte) : Event :=
  { typ := byteAt bs 0, cls := bits (byteAt bs 1) 0 3, order := bits (byteAt bs 1) 3 2, key := field bs 2 3, flags := 0,
    dl32 := field bs 8 4, payload := field bs 12 4 }

/-- The 64-bit deadline of a 32-bit field, counted against a DT (R310, R313). -/
def widenDeadline (now f : Nat) : Nat :=
  if f = 0xFFFFFFFF then noDeadline
  else
    let diff := toSigned 32 (f + 2 ^ 32 - now % 2 ^ 32)
    ((now : Int) + diff).toNat

/-! ### Arbiters (R27) -/

/-- A request at an arbiter (R27, R29): requester number, deadline, rank. -/
structure ArbReq where
  id : Nat
  dl : Nat
  rank : Nat
  deriving DecidableEq, Repr

/-- Request a goes before request b under steps 1 and 2 of R27. -/
def ArbReq.before (a b : ArbReq) : Bool := a.dl < b.dl || (a.dl == b.dl && b.rank < a.rank)

/-- The requests that no other beats at steps 1 and 2 (R27). -/
def arbTop (rs : List ArbReq) : List ArbReq := rs.filter (fun r => rs.all (fun o => !o.before r))

/-- Distance from the round-robin pointer, of requesters 0 to n - 1 (R27). -/
def rrDist (n p id : Nat) : Nat := (id + n - p % n) % n

/-- The first of the tied requesters in the order P, P + 1, ... (R27). -/
def rrPick (n p : Nat) : List ArbReq → Option Nat
  | [] => none
  | r :: rs => match rrPick n p rs with
    | none => some r.id
    | some b => some (if rrDist n p r.id ≤ rrDist n p b then r.id else b)

/-- The winner under R27 among the requests, and the arbiter's next pointer: it moves only when step 3 decided. (DEDUCED, log 11.) -/
def arbPick (n p : Nat) (rs : List ArbReq) : Option (Nat × Nat) :=
  match arbTop rs with
  | [] => none
  | [r] => some (r.id, p)
  | t => match rrPick n p t with
    | some w => some (w, (w + 1) % n)
    | none => none

/-- Arbiter numbers: one number space over the arbiters of R29, with the index of the unit that owns each. -/
def arbNo (kind idx : Nat) : Nat := 65536 * kind + idx

/-- A decision of an arbiter of n requesters, with its pointer kept in the state. (DEDUCED, log 11.) -/
def arbitrate (kind idx n : Nat) (rs : List ArbReq) (d : Dev) : Option Nat × Dev :=
  match arbPick n (mapGet 0 (arbNo kind idx) d.rr) rs with
  | some (w, p') => (some w, { d with rr := mapSet 0 (arbNo kind idx) p' d.rr })
  | none => (none, d)

/-- The deadline as an arbiter of 32 bits with NONE compares it (R28), as a number that orders the same way for deadlines
less than 2^31 DT apart: requests with NONE come last and equal. -/
def dl32Key (now dl : Nat) : Nat :=
  if dl = noDeadline then 2 ^ 33 else (toSigned 32 (dl + 2 ^ 32 - now % 2 ^ 32) + (2 ^ 31 : Int)).toNat

/-! ### Counted events of the performance monitoring units (R432-R436) -/

/-- The address test of a filter set (R433). -/
def fsAddr (d : Dev) (q f : Nat) (a : EvAddr) : Bool :=
  let lo := getF d .pmu q (0x48 + 0x10 * f) 0 24
  let hi := getF d .pmu q (0x4C + 0x10 * f) 0 24
  match getF d .pmu q (0x40 + 0x10 * f) 24 2, a with
  | 1, .word w => decide (lo ≤ w % 2 ^ 23) && decide (w % 2 ^ 23 < hi)
  | 1, _ => false
  | 2, .dva x => decide (lo ≤ bits x 14 24) && decide (bits x 14 24 < hi)
  | 2, _ => false
  | _, _ => true

/-- A filter set counts an event (R433); event 63 faces the address test alone. (DEDUCED, log 109.) -/
def fsPasses (d : Dev) (q f e : Nat) (b : EvBy) (a : EvAddr) : Bool :=
  let k := getF d .pmu q (0x40 + 0x10 * f) 4 3
  let who := bit (getF d .pmu q (0x40 + 0x10 * f) 0 3) b.priv
    && (k == 0 || (k == b.kind && decide (getF d .pmu q (0x40 + 0x10 * f) 8 7 ≤ b.idx)
      && decide (b.idx ≤ getF d .pmu q (0x40 + 0x10 * f) 16 7)))
    && (match b.cls with
      | some c => bit (getF d .pmu q (0x44 + 0x10 * f) 0 8) c
      | none => false)
  (who || e == 63) && fsAddr d q f a

/-- A filterable event e of a quadrant, n times (R433, R436). (DEDUCED, log 109.) -/
def pmuEv (q e n : Nat) (b : EvBy) (a : EvAddr) (d : Dev) : Dev :=
  if n = 0 then d
  else (List.range 8).foldl (fun d f => guardDev (fsPasses d q f e b a) (addCnt .pmu q (0x2400 + 8 * (64 * f + e)) n) d) d

/-- An unfiltered event of a quadrant, and of the hub, that no block counter holds (R434, R435). -/
def pmuUc (q i n : Nat) (d : Dev) : Dev := if n = 0 then d else addCnt .pmu q (0x1000 + 8 * i) n d
def hubUc (i n : Nat) (d : Dev) : Dev := if n = 0 then d else addCnt .pmuHub 0 (0x1000 + 8 * i) n d

/-- A hub link (R435): data bytes to a quadrant and from it, and control messages to it and from it. (DEDUCED, log 111.) -/
def bytesTo (q n : Nat) : Dev → Dev := hubUc (208 + 4 * q) n
def bytesFrom (q n : Nat) : Dev → Dev := hubUc (208 + 4 * q + 1) n
def ctlTo (q : Nat) : Dev → Dev := hubUc (208 + 4 * q + 2) 1
def ctlFrom (q : Nat) : Dev → Dev := hubUc (208 + 4 * q + 3) 1

/-- A register access of a quadrant's unit, or of a party on the hub, to an address on the other side of a hub link. (DEDUCED, log 111.) -/
def ctlAccess (from_ : Option Nat) (a : Nat) (d : Dev) : Dev :=
  match from_, decide (a < 0x100000) with
  | none, false => ctlTo (a / 0x100000 - 1) d
  | some q, true => ctlFrom q d
  | _, _ => d

/-- Data bytes that cross the link between two quadrants (R435): the six links in the order of their lower and higher quadrant. (DEDUCED, log 111.) -/
def quadBytes (src dst n : Nat) (d : Dev) : Dev :=
  if src = dst ∨ 4 ≤ src ∨ 4 ≤ dst then d
  else
    let lo := min src dst
    hubUc (224 + 2 * (lo + max src dst - 1 + (if lo = 0 then 0 else 1)) + (if src < dst then 0 else 1)) n d

/-- Attributes of a general core's thread, of a DMA channel, of a Shepherd's event, and of another master (R432). -/
def byThread (d : Dev) (t : Nat) : EvBy :=
  let x : GcThread := mapGet {} t d.threads
  { priv := if x.mode = 3 then 1 else 0, kind := 1, idx := t / 16 % 64, cls := if x.busy then some x.ev.cls else none }
/-- (DEDUCED, log 66.) -/
def byChannel (d : Dev) (ch : Nat) : EvBy := { kind := 2, idx := ch % 64, cls := some (getF d .ch ch 0x44 24 3) }
def byShepherd (cls : Nat) : EvBy := { kind := 7, cls := some cls }
/-- (DEDUCED, log 109.) -/
def byMaster (kind idx : Nat) : EvBy := { kind := kind, idx := idx }

/-! ### DRAM (R25, R247) -/

/-- A byte of DRAM by physical address. (DESIGN CHOICE, log 8.) -/
def dramByte (d : Dev) (pa : Nat) : Byte := mapGet 0#8 (pa % 2 ^ 38) d.mem.dram

/-- Bytes of DRAM from a physical address. -/
def dramPeek (d : Dev) (pa len : Nat) : List Byte := (List.range len).map (fun i => dramByte d (pa + i))

/-- DRAM bytes stored one after another. -/
def storeDram : Nat → List Byte → List Host.Cell → List Host.Cell
  | _, [], m => m
  | a, b :: r, m => storeDram (a + 1) r (mapSet 0#8 (a % 2 ^ 38) b m)

/-- DRAM bytes written. -/
def dramWrite (pa : Nat) (bs : List Byte) (d : Dev) : Dev :=
  { d with mem := { d.mem with dram := storeDram pa bs d.mem.dram } }

/-! ### Units of time -/

/-- VX cycle count at a position in the DT unit: one DT is 5 VX cycles (00_scope.md, "Time and clock domains"). (DESIGN CHOICE, log 5.) -/
def vxAt (d : Dev) (vx : Nat) : Nat := 5 * d.dt + vx

/-- MX cycle count (wheel count, R205) at a position in the DT unit: one DT is 10 MX cycles. (DESIGN CHOICE, log 5.) -/
def mxAt (d : Dev) (mx : Nat) : Nat := 10 * d.dt + mx

end Sys2Proof.Machine
end

