-- ==== Sys2Proof/Machine/PmuEvents.lean ====
section
/-! DEFINITION. The items that the sampler of a performance monitoring unit follows (R437-R440). -/

namespace Sys2Proof.Machine

/-! ### The sampler (R437-R440) -/

def getPmu (d : Dev) (q : Nat) : PmuSt := mapGet {} q d.pmu
def updPmu (q : Nat) (f : PmuSt → PmuSt) (d : Dev) : Dev := { d with pmu := mapUpd {} q f d.pmu }

/-- One step of a source's LFSR (R437). -/
def lfsrStep (st : Nat) : Nat := if st % 2 = 1 then (st / 2) ^^^ 0xE10000 else st / 2

/-- The sample ring is a ring of 8-word slots (R440). -/
def sampleRingOk (d : Dev) (q : Nat) : Bool :=
  let g := getRegion d q (getF d .pmu q 0x100 8 8)
  g.n != 0 && g.kind == 1 && g.slot == 8

/-- An item of source s (R437, R438): the LFSR steps, and a chosen item is tagged when the tracker is free. (DEDUCED, log 110.) -/
def sampleItem (q s key : Nat) (r : SampleRec) (d : Dev) : Dev :=
  if !bit (getF d .pmu q 0x100 0 4) s then d
  else if !sampleRingOk d q then orR .pmu q 4 1 d
  else
    let p := getPmu d q
    let st := lfsrStep (p.lfsr.getD s 1)
    let skip := satTo 32 (p.skip.getD s 0 + 1)
    let n := max 1 (getF d .pmu q (0x104 + 4 * s) 0 24)
    let p1 := { p with lfsr := setAt s st p.lfsr, skip := setAt s skip p.skip }
    if 0xFFFFFF / n < st then updPmu q (fun _ => p1) d
    else if ((p.track.getD s none).isSome) then addCnt .pmu q 0x138 1 (updPmu q (fun _ => p1) d)
    else
      let t : SampleTrack := { key := key, rec_ := { r with source := s, skip := skip } }
      updPmu q (fun _ => { p1 with skip := setAt s 0 p1.skip, track := setAt s (some t) p1.track }) d

/-- The tracked item of a source changed, when it is the named one. -/
def sampleUpd (q s key : Nat) (f : SampleRec → SampleRec) (d : Dev) : Dev :=
  match (getPmu d q).track.getD s none with
  | some t => guardDev (t.key == key) (updPmu q (fun p => { p with track := setAt s (some { t with rec_ := f t.rec_ }) p.track })) d
  | none => d

/-- The tracked item reaches a stage at a DT (R438). -/
def sampleStageAt (q s key k dt : Nat) (d : Dev) : Dev :=
  sampleUpd q s key (fun r =>
    { r with stamps := if (mapGet 0 k r.stamps) = 0 then mapSet 0 k (dt - r.start + 1) r.stamps else r.stamps }) d
/-- (DEDUCED, log 110.) -/
def sampleStage (q s key k : Nat) (d : Dev) : Dev := sampleStageAt q s key k d.dt d

/-- The tracked item ends, early or at its last stage: its record is to be written (R438). -/
def sampleEnd (q s key vx : Nat) (early : Bool) (d : Dev) : Dev :=
  match (getPmu d q).track.getD s none with
  | some t =>
    guardDev (t.key == key) (updPmu q (fun p =>
      { p with track := setAt s none p.track
               due := p.due ++ [({ t.rec_ with flags := t.rec_.flags + (if early then 4 else 0) }, vx)] })) d
  | none => d

/-- The tracked item of a source ends early, when its key is of the named work; a burst's detail takes its status code. -/
def sampleDrop (q s unit code vx : Nat) (d : Dev) : Dev :=
  match (getPmu d q).track.getD s none with
  | some t => guardDev (t.key / 2 ^ 40 == unit) (fun d => sampleEnd q s t.key vx true
      (sampleUpd q s t.key (fun r => if s ≠ 3 then r else { r with detail := r.detail % 2 ^ 24 + 2 ^ 24 * code + r.detail / 2 ^ 32 * 2 ^ 32 }) d)) d
  | none => d

/-- The 64 bytes of a sample record (R439). -/
def sampleBytes (r : SampleRec) : List Byte :=
  let stage (k : Nat) : Nat := match mapGet 0 k r.stamps with
    | 0 => 0xFFFFFFFF
    | n + 1 => satTo 32 n
  leBytes 1 r.source ++ leBytes 1 r.flags ++ leBytes 2 r.unit ++ leBytes 4 r.skip ++ leBytes 8 r.ident ++ leBytes 8 r.detail
    ++ leBytes 8 r.dl ++ leBytes 8 r.start ++ leBytes 4 (stage 1) ++ leBytes 4 (stage 2) ++ leBytes 4 (stage 3)
    ++ leBytes 4 (stage 4) ++ leBytes 4 (stage 5) ++ leBytes 1 r.stream ++ leBytes 1 r.cls ++ leBytes 2 0

/-- Deadline and stream of a record's instance (R439). -/
def sampleInst (d : Dev) (i : Option InstRef) (r : SampleRec) : SampleRec :=
  match i with
  | some i =>
    let c := getCtx d i.q i.ctx
    { r with flags := r.flags ||| 1, stream := c.stream }
  | none => r

end Sys2Proof.Machine
end

