-- ==== Sys2Proof/Machine/Image.lean ====
section
/-! DEFINITION. What the installed images say: entries of the tables that each plane holds (R36-R39, R72, R173, R213, R331,
R338) and of the shared tables, decoded where they are used. -/

namespace Sys2Proof.Machine

/-- A configuration plane, 0 for A and 1 for B. -/
def planeOf (d : Dev) (p : Nat) : Plane := d.cfg.planes.getD p {}

/-- A plane changed. -/
def updPlane (p : Nat) (f : Plane → Plane) (d : Dev) : Dev :=
  { d with cfg := { d.cfg with planes := updAt f p d.cfg.planes } }

/-- The bytes of the section of a kind and scope, empty where the image has none (R36). -/
def sectOf (ss : List Sect) (kind scope : Nat) : List Byte :=
  match ss.find? (fun s => s.kind == kind && s.scope == scope) with
  | some s => s.data
  | none => []

/-- A section of a plane's image. -/
def planeSect (d : Dev) (p kind scope : Nat) : List Byte := sectOf (planeOf d p).sections kind scope

/-- The scope value of a hub-wide section (R35). -/
def hubScope : Nat := 0xFF

/-- A ROUTE entry (R37). -/
def routeEntry (ss : List Sect) (stream : Nat) : List Byte := tableEntry (sectOf ss 1 hubScope) 16 stream

structure Route where
  configured : Bool
  developed : Bool
  embedded : Bool
  pipe : Nat
  sensor : Nat
  sync : Nat
  gid : Nat
  typ : Nat
  width : Nat
  height : Nat
  deriving DecidableEq, Repr

/-- A ROUTE entry decoded (R37). -/
def routeOf (ss : List Sect) (stream : Nat) : Route :=
  let e := routeEntry ss stream
  { configured := bit (byteAt e 0) 0, developed := bit (byteAt e 0) 1, embedded := bit (byteAt e 0) 2,
    pipe := byteAt e 1, sensor := byteAt e 2, sync := byteAt e 3, gid := field e 4 2, typ := byteAt e 8,
    width := field e 12 2, height := field e 14 2 }

/-- A GRAPH entry decoded (R38). -/
structure Graph where
  gid : Nat
  home : Nat
  mode : Nat
  entry : Nat
  bound : Nat
  reserve : Nat
  limit : Nat
  flock : Nat
  first : Nat
  count : Nat
  deriving DecidableEq, Repr

def graphOf (e : List Byte) : Graph :=
  { gid := field e 0 2, home := byteAt e 2, mode := byteAt e 3, entry := field e 4 4, bound := field e 8 8,
    reserve := field e 0x10 8, limit := byteAt e 0x18, flock := field e 0x1A 2, first := field e 0x1C 4,
    count := field e 0x20 4 }

/-- The GRAPH entries of a section. -/
def graphsIn (bs : List Byte) : List Graph := (chunks 64 (bs.length / 64) bs).map graphOf

/-- The GRAPH entries of an image, quadrant by quadrant. -/
def graphsAll (ss : List Sect) : List Graph :=
  ([0, 1, 2, 3].map (fun q => graphsIn (sectOf ss 3 q))).flatten

/-- The graph of an ID in an image (R38). -/
def findGraph (ss : List Sect) (gid : Nat) : Option Graph := (graphsAll ss).find? (fun g => g.gid == gid)

/-- A BUDGET record (R173). -/
structure Budget where
  kind : Nat
  res : Nat
  val : Nat
  b : Nat
  deriving DecidableEq, Repr

def budgetOf (e : List Byte) : Budget :=
  { kind := byteAt e 0, res := byteAt e 1, val := field e 4 4, b := field e 8 8 }

/-- The BUDGET records of a quadrant. -/
def budgetsIn (ss : List Sect) (q : Nat) : List Budget :=
  let bs := sectOf ss 4 q
  (chunks 32 (bs.length / 32) bs).map budgetOf

/-- The BUDGET records of a graph's range (R38, R173). -/
def graphBudgets (ss : List Sect) (g : Graph) : List Budget := ((budgetsIn ss g.home).drop g.first).take g.count

/-- P_min of a graph (R173). -/
def pMin (ss : List Sect) (g : Graph) : Nat :=
  match graphBudgets ss g with
  | r :: _ => r.val
  | [] => 0

/-- The chain table index of a graph (R173, R186). -/
def chainIndex (ss : List Sect) (g : Graph) : Nat :=
  match graphBudgets ss g with
  | r :: _ => r.b % 2 ^ 32
  | [] => 0

/-- The share of a resource in a quadrant's BUDGET section, 0 without a record (R175). -/
def shareIn (ss : List Sect) (q res : Nat) : Nat :=
  match (budgetsIn ss q).find? (fun r => r.kind == 2 && r.res == res) with
  | some r => r.val
  | none => 0

/-- The planes in use. -/
def planesInUse (d : Dev) : List Nat := [0, 1].filter (fun p => (planeOf d p).inUse)

/-- The share in force: the smaller of the shares of the planes in use (R175). -/
def shareInForce (d : Dev) (q res : Nat) : Nat :=
  match planesInUse d with
  | [] => 0
  | [p] => shareIn (planeOf d p).sections q res
  | p :: p' :: _ => min (shareIn (planeOf d p).sections q res) (shareIn (planeOf d p').sections q res)

/-- The plane on which a graph runs an instance whose Frame Start has a stamp (R46): after the switch's commit DT the new
plane, at or before it the plane before. -/
def graphPlane (d : Dev) (gid fs : Nat) : Option Nat :=
  match d.cfg.graphs.find? (fun e => e.1 == gid) with
  | some (_, u) => some (if u.since < fs then u.now else u.before)
  | none => none

/-- The plane that a stream without a graph belongs to (R192). -/
def strayPlane (d : Dev) : Nat := d.cfg.lastTarget.getD 0

/-- The plane of a stream at a Frame Start (R39, R46): a plane in use whose ROUTE entry configures the stream with a graph
that runs there; the last switch's target is looked at first. None where no plane has a graph for the stream. -/
def streamPlane (d : Dev) (stream fs : Nat) : Option Nat :=
  let t := strayPlane d
  ([t, 1 - t].filter (fun p => (planeOf d p).inUse)).find? (fun p =>
    let ss := (planeOf d p).sections
    let r := routeOf ss stream
    r.configured && (findGraph ss r.gid).isSome && graphPlane d r.gid fs == some p)

/-- The plane whose ROUTE entry governs how a stream is received: its graph's plane, or the plane it belongs to (R192). -/
def routePlane (d : Dev) (stream fs : Nat) : Nat := (streamPlane d stream fs).getD (strayPlane d)

/-- The plane of a fold for a run of a graph instance, and for a run started otherwise (R39, R47). -/
def foldPlane (d : Dev) (q f now : Nat) : Nat :=
  match d.cfg.folds.find? (fun e => e.1 == 16 * q + f) with
  | some (_, u) => if u.since < now then u.now else u.before
  | none => strayPlane d

/-- A FLOCK entry (R338). -/
structure Flock where
  hold : Bool
  lag : Nat
  ring : Nat
  recvs : List Nat
  deriving DecidableEq, Repr

def flockOf (e : List Byte) : Flock :=
  { hold := byteAt e 0 == 1, lag := byteAt e 1, ring := byteAt e 2,
    recvs := (List.range (byteAt e 3)).map (fun i => field e (4 + 2 * i) 2) }

/-- The FLOCK entries of a quadrant in an image. -/
def flocksIn (ss : List Sect) (q : Nat) : List Flock :=
  let bs := sectOf ss 0xD q
  (chunks 32 (bs.length / 32) bs).map flockOf

/-- The flock of an instance's graph: quadrant, index and entry (R38, R338). -/
def graphFlock (ss : List Sect) (g : Graph) : Option (Nat × Flock) :=
  if g.flock = 0xFFFF then none
  else match (flocksIn ss g.home)[g.flock]? with
    | some f => some (g.flock, f)
    | none => none

/-- The flock that reads a ring: its index and entry, looked up in the planes in use (R339). -/
def ringFlock (d : Dev) (q r : Nat) : Option (Nat × Flock) :=
  (planesInUse d).findSome? (fun p =>
    let fs := flocksIn (planeOf d p).sections q
    match indicesFrom (fun f : Flock => f.ring == r && r != 0xFF) 0 fs with
    | i :: _ => (fs[i]?).map (fun f => (i, f))
    | [] => none)

/-- A TXMAP entry (R331). -/
structure TxEntry where
  port : Nat
  vc : Nat
  typ : Nat
  part : Nat
  ch : Nat
  setup : Nat
  rate : Nat
  line : Nat
  deriving DecidableEq, Repr

def txEntryOf (e : List Byte) : TxEntry :=
  { port := byteAt e 0, vc := byteAt e 1, typ := byteAt e 2, part := byteAt e 3, ch := byteAt e 4, setup := byteAt e 5,
    rate := field e 6 2, line := field e 8 2 }

/-- The TXMAP entries of an image. -/
def txMap (ss : List Sect) : List TxEntry :=
  let bs := sectOf ss 0x10 hubScope
  (chunks 16 (bs.length / 16) bs).map txEntryOf

/-- The TXMAP entry that a channel feeds, with its plane: that of the instance, else a plane in use (R331, R39). -/
def txEntryFor (d : Dev) (p : Option Nat) (ch : Nat) : Option TxEntry :=
  let ps := match p with
    | some p => [p]
    | none => planesInUse d
  ps.findSome? (fun p => (txMap (planeOf d p).sections).find? (fun e => e.ch == ch))

/-- A WINDOW entry of the shared window table (R347). -/
def winEntry (d : Dev) (w : Nat) : List Byte := mapGet [] w d.peer.table

/-- A SENSOR entry of an image (R72). -/
def sensorEntry (ss : List Sect) (i : Nat) : List Byte := tableEntry (sectOf ss 2 hubScope) 64 i

/-- A fold record of an image (R213): header fields and the three groups of steps. -/
structure FoldRec where
  number : Nat
  members : Nat
  phases : Nat
  proLen : Nat
  bodyLen : Nat
  epiLen : Nat
  pro : List (List Byte)
  body : List (List Byte)
  epi : List (List Byte)
  deriving DecidableEq, Repr

/-- The fold records of a FOLD section (R213); fuel bounds the number of records. -/
def foldRecs : Nat → List Byte → List FoldRec
  | 0, _ => []
  | fuel + 1, bs =>
    if bs.isEmpty then []
    else
      let a := field bs 0xC 4
      let b := field bs 0x14 4
      let c := field bs 0x1C 4
      let steps := chunks 16 (a + b + c) ((bs.drop 64).take (16 * (a + b + c)))
      { number := byteAt bs 0, members := field bs 2 2, phases := field bs 4 2, proLen := field bs 8 4,
        bodyLen := field bs 0x10 4, epiLen := field bs 0x18 4, pro := steps.take a, body := (steps.drop a).take b,
        epi := steps.drop (a + b) } :: foldRecs fuel (bs.drop (64 + 16 * (a + b + c)))

/-- The folds of a quadrant in an image. -/
def foldsIn (ss : List Sect) (q : Nat) : List FoldRec := foldRecs 17 (sectOf ss 5 q)

/-- The graph IDs and fold numbers (16 * quadrant + fold) of an image. -/
def imageGraphs (ss : List Sect) : List Nat := (graphsAll ss).map (·.gid)
def imageFolds (ss : List Sect) : List Nat :=
  [0, 1, 2, 3].flatMap (fun q => (foldsIn ss q).map (fun r => 16 * q + r.number))

/-- The record of a fold on a plane. -/
def foldRec (d : Dev) (p q f : Nat) : Option FoldRec :=
  (foldsIn (planeOf d p).sections q).find? (fun r => r.number == f)

/-- The union of a plane's fold masks in a quadrant (R205, R227). -/
def wheelMask (d : Dev) (p q : Nat) : Nat :=
  if (planeOf d p).loaded then (foldsIn (planeOf d p).sections q).foldl (fun m r => m ||| r.phases) 0 else 0

end Sys2Proof.Machine
end

