-- ==== Sys2Proof/Machine/Views.lean ====
section
/-! DEFINITION. The old value that a logged register write records (R370): the stored bits, and where a writable register shows the state of a
block beside them, those. Every other register with such bits is read only (Read.lean). -/

namespace Sys2Proof.Machine

/-- A register as read immediately before a logged write: TXPn.CTL shows its port's PHY, width and scrambling (R353). -/
def readReg (d : Dev) (a : Nat) : W32 :=
  match locate a with
  | some r =>
    if r.blk = .txp ∧ r.off = 0 then regRaw d a ||| BitVec.ofNat 32 (2 * (mapGet {} r.idx d.tx : TxPort).setup) else regRaw d a
  | none => regRaw d a

end Sys2Proof.Machine
end

