-- ==== Sys2Proof/Machine/ChangeLog.lean ====
section
/-! DEFINITION. The change log's shared operations (R368-R371): records, their bytes and chain hash, requests and commits,
and the logged write that the write commands are. -/

namespace Sys2Proof.Machine

/-- Origin class of a change (R370). (DEDUCED, log 14.) -/
def Origin.cls : Origin → Nat
  | .powerOn => 0
  | .i3c _ _ _ => 1
  | .firmware => 2
  | .peer _ => 3
  | .debug => 4
  | .image => 5
  | .autonomous => 6
  | .core _ => Config.coreOriginClass
  | .drover _ => Config.coreOriginClass
  | .attachedCore _ _ => Config.coreOriginClass

/-- Origin ID of a change (R370). -/
def Origin.oid : Origin → Nat
  | .i3c w s c => w % 16 + 16 * (s % 4) + 256 * (c % 128)
  | .peer m => m
  | .core g => Config.coreOriginId g
  | .attachedCore g _ => Config.coreOriginId g
  | _ => 0

/-- The write comes from outside a graph instance (R369). -/
def Origin.outside : Origin → Bool
  | .drover _ => false
  | .attachedCore _ _ => false
  | _ => true

/-- The instance on whose behalf a write is made (R302). -/
def Origin.inst : Origin → Option InstRef
  | .drover i => some i
  | .attachedCore _ i => some i
  | _ => none

/-- The quadrant that a write comes from, none for the hub's side. -/
def Origin.quad : Origin → Option Nat
  | .core g => some (g / 64)
  | .drover i => some i.q
  | .attachedCore g _ => some (g / 64)
  | _ => none

/-- Place of an origin class in the order of requests of one CT cycle (R368). -/
def classRank (c : Nat) : Nat :=
  match c with
  | 6 => 0
  | 0 => 1
  | 2 => 2
  | 1 => 3
  | 3 => 4
  | 4 => 5
  | 5 => 6
  | _ => 7

/-- Request a is taken before request b (R368): the earlier one, and of one CT cycle by class order, origin ID and address. Requests of one
DT count as requests of one CT cycle. (DESIGN CHOICE, log 13.) -/
def ChangeReq.before (a b : ChangeReq) : Bool :=
  if a.at_ ≠ b.at_ then decide (a.at_ < b.at_)
  else if classRank a.cls ≠ classRank b.cls then decide (classRank a.cls < classRank b.cls)
  else if a.oid ≠ b.oid then decide (a.oid < b.oid)
  else decide (a.target < b.target)

/-- A request put in its place. -/
def insertReq (r : ChangeReq) : List ChangeReq → List ChangeReq
  | [] => [r]
  | e :: l => if r.before e then r :: e :: l else e :: insertReq r l

/-- Journal slots in use: unflushed records, and requests that hold a slot (R371). -/
def slotsUsed (d : Dev) : Nat := d.log.journal.length + (d.log.reqs.filter (·.slot)).length

/-- A slot is free for a request other than the seal (R371). -/
def slotFree (d : Dev) : Bool := slotsUsed d < 1023

/-- A commit request (R368): it takes a journal slot, or waits for one, counted in CNT3 with EVSUM.LOG (R371); once the seal
is requested it is refused (R372). (DEDUCED, log 13.) -/
def requestChange (r : ChangeReq) (d : Dev) : Dev :=
  if d.log.sealing then d
  else if slotFree d then
    { d with log := { d.log with reqs := insertReq { r with at_ := d.dt, slot := true } d.log.reqs } }
  else
    evsum 6 (addCnt .log 0 0x12C 1
      { d with log := { d.log with reqs := d.log.reqs ++ [{ r with at_ := d.dt, slot := false }] } })

/-- Bytes 0x00 to 0x2F of a record (R370). -/
def recordHead (r : LogRecord) : List Byte :=
  leBytes 8 r.seq ++ leBytes 8 r.dt ++ leBytes 2 r.cls ++ leBytes 2 0 ++ leBytes 4 r.oid ++ leBytes 4 r.target
    ++ leBytes 2 r.kind ++ leBytes 2 r.len ++ leBytes 4 r.old.toNat ++ leBytes 4 r.new.toNat ++ leBytes 8 r.extra.toNat

/-- The 64 bytes of a record (R370). -/
def recordBytes (r : LogRecord) : List Byte := recordHead r ++ r.hash

/-- The record of a request, committed now: next sequence number, and the chain hash over the previous hash and its first
48 bytes (R370). (DEDUCED, log 15.) -/
def makeRecord (d : Dev) (r : ChangeReq) : LogRecord :=
  let b : LogRecord := { seq := d.log.next, dt := d.dt, cls := r.cls, oid := r.oid, target := r.target, kind := r.kind,
                         len := r.len, old := r.old, new := r.new, extra := r.extra, hash := [] }
  { b with hash := (sha384 (d.log.hash ++ recordHead b)).take 16 }

/-- A record put into the journal: it is committed (R368). -/
def appendRecord (r : ChangeReq) (d : Dev) : Dev :=
  let rec_ := makeRecord d r
  addCnt .log 0 0x120 1
    { d with log := { d.log with next := d.log.next + 1, hash := rec_.hash, journal := d.log.journal ++ [rec_] } }

def pwrCtlAddr : Nat := addrOf .pwr 0 4
def dbgCtlAddr : Nat := addrOf .sec 0 0x50

/-- A write of PWR.CTL that sends the module to a fallow state (R389). -/
def fallowWrite (d : Dev) (a : Nat) (v : W32) : Bool :=
  a == pwrCtlAddr && (fld v 0 3 == 1 || fld v 0 3 == 2) && 3 ≤ getF d .pwr 0 0 0 3

/-- The request of a register write (R370, kind 0x0001); a write to a fallow state is of kind 0x0009 with the state codes (R389), a
debug lock or seal of kind 0x0012 with the debug states (R423). -/
def writeReq (d : Dev) (o : Origin) (a : Nat) (v : W32) : ChangeReq :=
  let r : ChangeReq :=
    { at_ := d.dt, cls := o.cls, oid := o.oid, target := a, kind := 0x0001, len := 4, old := readReg d a, new := v,
      act := .write o a v 0 }
  if fallowWrite d a v then
    { r with target := addrOf .pwr 0 0, kind := 0x0009, old := BitVec.ofNat 32 (getF d .pwr 0 0 0 3), new := BitVec.ofNat 32 (fld v 0 3) }
  else if a = dbgCtlAddr ∧ (fld v 3 1 = 1 ∨ fld v 4 1 = 1) then
    { r with kind := 0x0012, old := BitVec.ofNat 32 d.sec.debug, new := if fld v 4 1 = 1 then 3 else 1 }
  else r

/-- A write of an RW, RWS or WO field, or a bit of one, is in the value's register (R369). -/
def touchesLogged (a : Nat) : Bool :=
  match entryAt a with
  | some (e, _) => e.rw != 0 || e.rws != 0 || e.wo != 0
  | none => false

/-- Registers whose writes the spec exempts from the log: LOG.RD_SEQ and RD_CTL (R369), DRV.OUT_TAIL (R198), FLKi.SEL
(R355), PMU SNAP (R430). -/
def logExempt (a : Nat) : Bool :=
  match locate a with
  | some r =>
    match r.blk with
    | .log => r.off == 0x40 || r.off == 0x44 || r.off == 0x48
    | .drv => r.off == 0xC
    | .flk => r.off == 0x4
    | .pmu => r.off == 0x8
    | .pmuHub => r.off == 0x8
    | _ => false
  | none => false

/-- Registers whose write on behalf of an instance is data of its frame: those that R74 and R94 name, and those whose chapter names the
exception (R117, R148, R170, R198, R227, R229, R281, R442). -/
def frameData (a : Nat) : Bool :=
  match locate a with
  | some r =>
    match r.blk with
    | .cci => r.off != 0
    | .pym => r.off != 0
    | .wrp => r.off != 0
    | .pmu => true
    | .ispCtx => true
    | .ste => true
    | .flw => true
    | .fea => true
    | .spd => true
    | .ch => true
    | .me => true
    | _ => false
  | none => false

/-- The write is logged (R369). (DEDUCED, log 112.) -/
def isLogged (o : Origin) (a : Nat) : Bool := touchesLogged a && !logExempt a && (o.outside || !frameData a)

/-- An item of an instance's control digest, until the record seals (R191). (DEDUCED, log 52.) -/
def digestItem (i : InstRef) (it : DigestItem) (d : Dev) : Dev :=
  guardDev (instLive d i) (updCtx i.q i.ctx (fun c => { c with digest := c.digest ++ [it] })) d

/-- A write on behalf of an instance enters its control digest (R74, R94, R191). -/
def digestWrite (o : Origin) (a : Nat) (v : W32) (d : Dev) : Dev :=
  match o with
  | .drover i => digestItem i ⟨a, v, 0, 0⟩ d
  | .attachedCore _ i => digestItem i ⟨a, v, 1, 0⟩ d
  | _ => d

/-- The pins that the hub powers are driven: they are high-impedance in the fallow states and from the dies' gating in a power fail until the
hub is up again (R449). -/
def hubPins (d : Dev) : Bool := d.pow.hubUp && !d.pow.gated

/-- What the debug port reaches while its pins are driven (R423, R449): everything while OPEN or UNLOCKED, SEC.STATUS and the debug registers while LOCKED, nothing
while SEALED. -/
def debugReaches (d : Dev) (a : Nat) : Bool :=
  let o := a - addrOf .sec 0 0
  hubPins d && match d.sec.debug with
  | 1 => addrOf .sec 0 0 ≤ a && (o == 0 || (0x50 ≤ o && o < 0x80) || (0x1000 ≤ o && o < 0x3080))
  | 3 => false
  | _ => true

/-- A write of an origin reaches a register: the hub is powered (R389), and the debug port may (R423). (DESIGN CHOICE, log 10.) -/
def writeReaches (d : Dev) (o : Origin) (a : Nat) : Bool :=
  d.pow.hubUp && (match o with
    | .debug => debugReaches d a
    | _ => true)

/-- A register write that takes effect through eff (R368, R369): logged, it commits with its record when the journal has a
slot and otherwise waits for one; not logged, it takes effect at once. (DEDUCED, log 13.) -/
def committedWrite (o : Origin) (a : Nat) (v : W32) (eff : Dev → Dev) (d : Dev) : Dev :=
  if !writeReaches d o a then d
  else
    let d1 := ctlAccess o.quad a d
    if isLogged o a then
      if d1.log.sealing || !slotFree d1 then requestChange (writeReq d1 o a v) d1
      else eff (appendRecord (writeReq d1 o a v) d1)
    else eff (digestWrite o a v d1)

/-- What storing a value does to a register's stored bits by access code (R10): RW and RWS fields take the value, W1C bits
written 1 clear, RO and WO fields stay. (DEDUCED, log 12.) -/
def storeFields (a : Nat) (v : W32) (d : Dev) : Dev :=
  match entryAt a with
  | some (e, _) =>
    let keep := BitVec.ofNat 32 (e.rw ||| e.rws)
    let clear := BitVec.ofNat 32 e.w1c
    let old := regRaw d a
    setRaw a (((old &&& ~~~keep) ||| (v &&& keep)) &&& ~~~(v &&& clear)) d
  | none => d

/-- The instance to which a general core's thread is attached (R302). -/
def attachOf (d : Dev) (gc thread : Nat) : Option InstRef := (mapGet {} (16 * gc + thread) d.threads).attach

/-- The origin of one of the write commands: a thread that is attached to no instance writes for its core alone. -/
def originOf (d : Dev) : WriteBy → Origin
  | .i3c s =>
    let x := getSess d s.val
    .i3c x.warrant s.val x.ctl
  | .firmware => .firmware
  | .peer m => .peer m.toNat
  | .debug => .debug
  | .core g => .core g.val
  | .attachedCore g t =>
    match attachOf d g.val t.val with
    | some i => .attachedCore g.val i
    | none => .core g.val

end Sys2Proof.Machine
end

