-- ==== Sys2Proof/Machine/Scratch.lean ====
section
/-! DEFINITION. The scratchpad (R199-R203, R223): its bytes and quarters, the correction stage, audits, reads and writes by a party. -/

namespace Sys2Proof.Machine

/-! ### Scratchpad (R199-R203) -/

/-- The key of a scratchpad byte of a quadrant (R26). -/
def spadKey (q a : Nat) : Nat := q * 2 ^ 26 + a % 2 ^ 26

/-- The byte last written at a scratchpad byte address, 0 since initialisation (R203). -/
def spadByte (d : Dev) (q a : Nat) : Byte := mapGet 0#8 (spadKey q a) d.mem.spad

/-- Bytes of scratchpad from a byte address, without any effect of reading. -/
def spadPeek (d : Dev) (q a len : Nat) : List Byte := (List.range len).map (fun i => spadByte d q (a + i))

/-- A scratchpad word, without any effect of reading. -/
def spadWord (d : Dev) (q w : Nat) : W64 := BitVec.ofNat 64 (leNat (spadPeek d q (8 * w) 8))

/-- Key of a word, and of a 128-bit quarter, in the maps of marks. -/
def wordKey (q w : Nat) : Nat := q * 2 ^ 23 + w % 2 ^ 23
def quarterKey (q k : Nat) : Nat := q * 2 ^ 22 + k % 2 ^ 22

/-- How many stored bits of a quarter differ from what was written. -/
def quarterFlips (d : Dev) (q k : Nat) : Nat :=
  popCount 64 (mapGet 0#64 (wordKey q (2 * k)) d.mem.flips).toNat
    + popCount 64 (mapGet 0#64 (wordKey q (2 * k + 1)) d.mem.flips).toNat

/-- What the correction stage makes of a quarter (R200): 0 clean, 1 corrected, 2 uncorrectable. -/
def quarterState (d : Dev) (q k : Nat) : Nat :=
  if mapGet false (quarterKey q k) d.mem.poison then 2
  else match quarterFlips d q k with
    | 0 => 0
    | 1 => 1
    | _ => 2

/-- Fresh check bits over a quarter: it holds no error any more (R201). -/
def cleanQuarter (q k : Nat) (d : Dev) : Dev :=
  { d with mem := { d.mem with
      flips := mapDel (wordKey q (2 * k)) (mapDel (wordKey q (2 * k + 1)) d.mem.flips)
      poison := mapDel (quarterKey q k) d.mem.poison } }

/-- A quarter stored with the poison pattern (R201). -/
def poisonQuarter (q k : Nat) (d : Dev) : Dev :=
  { d with mem := { d.mem with
      flips := mapDel (wordKey q (2 * k)) (mapDel (wordKey q (2 * k + 1)) d.mem.flips)
      poison := mapSet false (quarterKey q k) true d.mem.poison } }

/-- An uncorrectable quarter noted by a reader or the scrubber (R200, R202, R366 bit 7). -/
def noteUe (q k : Nat) (d : Dev) : Dev :=
  evsum 7 (orR .spd q 0x8 2 (setR .spd q 0x10 (2 * k) (addCnt .spd q 0x24 1 d)))

/-- The correction stage's counts for one quarter that a read returns (R200). -/
def noteQuarter (q k : Nat) (d : Dev) : Dev :=
  match quarterState d q k with
  | 0 => d
  | 1 => orR .spd q 0x8 1 (setR .spd q 0xC (2 * k) (addCnt .spd q 0x20 1 d))
  | _ => noteUe q k d

/-- The quarters that a byte range touches. -/
def quartersOf (a len : Nat) : List Nat :=
  if len = 0 then [] else (List.range ((a + len - 1) / 16 - a / 16 + 1)).map (· + a / 16)

/-- Some quarter of a byte range is uncorrectable (R200). -/
def spadBad (d : Dev) (q a len : Nat) : Bool := (quartersOf a len).any (fun k => quarterState d q k == 2)

/-- Rows of 64 bytes that a byte range touches. -/
def rowsOf (a len : Nat) : Nat := if len = 0 then 0 else (a + len - 1) / 64 - a / 64 + 1

/-- Who makes a scratchpad access: its number as an open-pool requester (R29), its fold and fold cycle when the access is a fold
access (R206, R223), and what tells its attributes beside the number: a general core's thread, a DMA channel's global number plus 1, the
Drover's context, the class of the Shepherd's event. -/
structure Party where
  req : Nat
  fold : Option (Nat × Nat) := .none
  idx : Nat := 0
  deriving DecidableEq, Repr

/-- The attributes of a party's events in a quadrant (R432). -/
def byParty (d : Dev) (q : Nat) (p : Party) : EvBy :=
  if p.req < 64 then byThread d (1024 * q + 16 * p.req + p.idx)
  else if p.req < 128 then byChannel d (if p.idx = 0 then 64 * q + p.req - 64 else p.idx - 1)
  else if p.req < 132 then byMaster 5 (p.req - 128)
  else if p.req = 132 then byMaster 6 p.idx
  else if p.req < 141 then byMaster 3 (p.req - 133)
  else if p.req < 149 then byMaster 4 (p.req - 141)
  else if p.req = 149 then byShepherd p.idx
  else byMaster 0 0

/-- The tail that a receiver sees: its own on a flock ring, else the ring's (R339). -/
def tailFor (d : Dev) (q r word : Nat) : Nat :=
  match ringFlock d q r with
  | some (i, f) => match f.recvs.findIdx? (· == word) with
    | some j => (getFlock d q i).tails.getD j 0
    | none => (getRegion d q r).t
  | none => (getRegion d q r).t

/-- The receiver word of an open-pool requester that a flock can name by it: a channel or an engine (R29, R338). -/
def recvWord (req : Nat) : Option Nat :=
  if 64 ≤ req ∧ req < 128 then some (req - 64) else if 133 ≤ req ∧ req < 149 then some (2 * 2 ^ 14 + req - 133) else none

/-- The consumer count of a party that reads a region (R214, R223, R339): the fold's c_r, a receiver's own tail, else T. -/
def readerCount (d : Dev) (q r : Nat) (p : Party) : Nat :=
  match p.fold, recvWord p.req with
  | some (f, _), _ => mapGet 0 r (getFold d q f).cons
  | none, some w => tailFor d q r w
  | none, none => (getRegion d q r).t

/-- The audited regions that a byte range touches, with the slots touched and the rows of each (R223). -/
def auditSlots (d : Dev) (q a len : Nat) : List (Nat × Nat × Nat) :=
  if getF d .spd q 0 0 1 = 0 ∨ len = 0 then []
  else
    ((d.regions.filter (fun e => e.1 / 256 == q && bit e.2.flags 0 && e.2.n != 0 && e.2.slot != 0)).map (fun e =>
      let r := e.2
      let lo := 8 * r.base
      let hi := lo + 8 * r.slot * r.n
      if a + len ≤ lo ∨ hi ≤ a then []
      else
        let s0 := (max a lo - lo) / (8 * r.slot)
        let s1 := (min (a + len) hi - 1 - lo) / (8 * r.slot)
        (List.range (s1 - s0 + 1)).map (fun i =>
          let from_ := max a (lo + 8 * r.slot * (s0 + i))
          (e.1 % 256, s0 + i, rowsOf from_ (min (a + len) (lo + 8 * r.slot * (s0 + i + 1)) - from_))))).flatten

/-- The tag of a slot. -/
def auditTag (d : Dev) (q r s : Nat) : AuditTag := mapGet {} ((256 * q + r) * 32768 + s) d.audit

/-- The count that a reader of a slot expects, modulo 2^16: the fill whose slot it is, counted from its consumer count (R223). (DEDUCED, log 56.) -/
def expectedFill (g : Region) (t s : Nat) : Nat :=
  let fill := (g.h + 2 * g.n - t) % (2 * g.n)
  (g.fills + 65536 - fill % 65536 + (s + g.n - t % g.n) % g.n) % 65536

/-- Violations of n row accesses counted, and recorded when they are the first (R223). -/
def auditViolation (q r s kind n : Nat) (p : Party) (d : Dev) : Dev :=
  let d1 := orR .spd q 0x8 4 (addCnt .spd q (if kind = 0 then 0x34 else 0x38) n d)
  if (getSpd d q).auditSeen then d1
  else
    let src := match p.fold with
      | some (f, c) => f % 16 + 16 + 256 * (c % 2 ^ 24)
      | none => 0
    setR .spd q 0x18 src (setR .spd q 0x14 (r + 256 * s + 2 ^ 23 * kind) (updSpd q (fun x => { x with auditSeen := true }) d1))

/-- The audit of a read or a write of a byte range (R223). (DEDUCED, log 56.) -/
def auditAccess (q a len : Nat) (write : Bool) (p : Party) (d : Dev) : Dev :=
  (auditSlots d q a len).foldl (fun d rs =>
    let t := auditTag d q rs.1 rs.2.1
    let g := getRegion d q rs.1
    if write then
      guardDev (t.filled && (t.producer != p.req || t.epoch != g.fills % 65536)) (auditViolation q rs.1 rs.2.1 1 rs.2.2 p) d
    else guardDev (!t.filled || t.epoch != expectedFill g (readerCount d q rs.1 p) rs.2.1) (auditViolation q rs.1 rs.2.1 0 rs.2.2 p) d) d

/-- Open-pool row accesses counted (R227 CNT3, R436); a fold access in its own phase is none (R206). -/
def countRows (q a len : Nat) (p : Party) (d : Dev) : Dev :=
  match p.fold with
  | some _ => pmuEv q 18 (rowsOf a len) (byParty d q p) (.word (a / 8)) d
  | none => pmuEv q 16 (rowsOf a len) (byParty d q p) (.word (a / 8)) (addCnt .spd q 0x2C (rowsOf a len) d)

/-- Corrected quarters of a read counted (R436). -/
def countCorrected (q a len : Nat) (p : Party) (d : Dev) : Dev :=
  pmuEv q 20 ((quartersOf a len).filter (fun k => quarterState d q k == 1)).length (byParty d q p) (.word (a / 8)) d

/-- A read of scratchpad bytes: the data, whether some of it is poisoned, and the counts of the correction stage (R200). -/
def spadRead (p : Party) (q a len : Nat) (d : Dev) : List Byte × Bool × Dev :=
  (spadPeek d q a len, spadBad d q a len,
    countRows q a len p (auditAccess q a len false p ((quartersOf a len).foldl (fun d k => noteQuarter q k d) (countCorrected q a len p d))))

/-- The check bits of one quarter after a write of a byte range (R201): a write that covers the quarter stores fresh ones;
one that covers a part is merged with the corrected rest, or leaves the quarter poisoned. -/
def writeQuarter (q a len k : Nat) (d : Dev) : Dev :=
  if a ≤ 16 * k ∧ 16 * k + 16 ≤ a + len then cleanQuarter q k d
  else if quarterState d q k = 2 then addCnt .spd q 0x3C 1 (poisonQuarter q k d)
  else cleanQuarter q k d

/-- Bytes stored one after another. -/
def storeBytes (q : Nat) : Nat → List Byte → List Host.Cell → List Host.Cell
  | _, [], m => m
  | a, b :: r, m => storeBytes q (a + 1) r (mapSet 0#8 (spadKey q a) b m)

/-- Reservations of a quadrant's threads on a word that a byte range touches are broken (R305). -/
def breakResv (q a len : Nat) (d : Dev) : Dev :=
  let hit (t : GcThread) : Bool := match t.resv with
    | some w => decide (8 * w < a + len) && decide (a < 8 * w + 8)
    | none => false
  if d.threads.any (fun e => e.1 / 1024 == q && hit e.2) then
    { d with threads := d.threads.map (fun e => if e.1 / 1024 == q && hit e.2 then (e.1, { e.2 with resv := none }) else e) }
  else d

/-- A write of scratchpad bytes (R201, R223). -/
def spadWrite (p : Party) (q a : Nat) (bs : List Byte) (d : Dev) : Dev :=
  let d1 := countRows q a bs.length p (auditAccess q a bs.length true p (breakResv q a bs.length d))
  let d2 := (quartersOf a bs.length).foldl (fun d k => writeQuarter q a bs.length k d) d1
  { d2 with mem := { d2.mem with spad := storeBytes q a bs d2.mem.spad } }

/-- A write of one scratchpad word. -/
def spadWriteWord (p : Party) (q w v : Nat) (d : Dev) : Dev := spadWrite p q (8 * w) (leBytes 8 v) d

end Sys2Proof.Machine
end

