-- ==== Sys2Proof/Machine/Egress.lean ====
section
/-! DEFINITION. Result egress, shared part (R332-R337, R342, R349): result frames of transmit ports, records queued to the
receivers of a flock, and what a void or a shed does to an open frame. -/

namespace Sys2Proof.Machine

/-- The destination kind of a channel's ACTIVE set (R230). -/
def setDstKind (s : DmaSet) : Nat := fld (s.regs.getD 10 0) 16 3
def setSrcKind (s : DmaSet) : Nat := fld (s.regs.getD 10 0) 0 3

/-- The destination window of a set (R230). -/
def setDstWin (s : DmaSet) : Nat := fld (s.regs.getD 10 0) 24 6

/-- The settings epoch that a record carries now: E(N) once fixed, else the stream's current epoch (R189). -/
def ctxEpoch (d : Dev) (c : DrvCtx) : Nat := c.epoch.getD (mapGet 0 c.stream d.epochs)

/-- The result header of an instance (R333); the part mask has bit p for each part of the result stream. -/
def resultHeader (d : Dev) (c : DrvCtx) (epoch : Nat) (parts : List Nat) : List Byte :=
  let mask := parts.foldl (fun m p => m ||| 2 ^ p) 0
  leBytes 2 0x0101 ++ leBytes 1 c.stream ++ leBytes 1 (getF d .peer 0 0 0 8) ++ leBytes 4 c.index ++ leBytes 8 c.fs
    ++ leBytes 8 c.dl ++ leBytes 2 c.gid ++ leBytes 2 epoch ++ leBytes 4 c.gen ++ leBytes 32 mask

/-- The frame number of a result frame (R330). (DESIGN CHOICE, log 85.) -/
def txFrameNo (index : Nat) : Nat := index % 65535 + 1

/-- A frame of an instance is in the port's list. -/
def txHasFrame (t : TxPort) (vc : Nat) (i : InstRef) : Bool := t.frames.any (fun f => f.vc == vc && f.inst == some i)

/-- The parts of one result stream that an image gives (R331-R333). -/
def streamParts (es : List TxEntry) (port vc : Nat) : List TxPart :=
  (es.filter (fun e => e.port == port && e.vc == vc)).map (fun e => { part := e.part, typ := e.typ, line := e.line })

/-- The frame of an instance on a result stream opened when it is not (R332). -/
def openFrame (es : List TxEntry) (port vc : Nat) (i : InstRef) (d : Dev) : Dev :=
  if txHasFrame (getTx d port) vc i then d
  else
    let c := getCtx d i.q i.ctx
    let parts := streamParts es port vc
    let fr : TxFrame :=
      { vc := vc, inst := some i, frameNo := txFrameNo c.index, dl := c.dl, parts := parts
        header := resultHeader d c (ctxEpoch d c) (parts.map (·.part)) }
    updTx port (fun t => { t with frames := t.frames ++ [fr] }) d

/-- A record put into the frame of an instance; a VOID or REFUSED record discards the queued payload and closes it (R337). -/
def setFrameRecord (vc : Nat) (i : InstRef) (bytes : List Byte) (close : Bool) (t : TxPort) : TxPort :=
  { t with frames := t.frames.map (fun f =>
      if f.vc == vc && f.inst == some i && f.record.isNone then
        { f with record := some bytes, closed := close, parts := if close then f.parts.map (fun x => { x with buf := [] }) else f.parts }
      else f) }

/-- A flit body queued on a link (R344); one that reaches a link that is down is discarded (R346). -/
def linkQueue (n : Nat) (b : FlitBody) (d : Dev) : Dev :=
  guardDev (getLink d n).up (updLink n (fun l => { l with queue := l.queue ++ [b] })) d

/-- The first link of an outbound window's route, and its destination module (R346, R347). -/
def winLink (e : List Byte) : Nat := bits (field e 0x10 2) 0 3
def winPeer (e : List Byte) : Nat := byteAt e 1

/-- A record sent to an outbound window as a RECORD flit (R349). -/
def queueWinRecord (w : Nat) (i : Option InstRef) (bytes : List Byte) (d : Dev) : Dev :=
  let e := winEntry d w
  linkQueue (winLink e) { typ := 5, body := leBytes 1 (byteAt e 2) ++ leBytes 1 (winPeer e) ++ bytes, inst := i, win := some w } d

/-- A receiver word of a flock that is a local DMA channel, by global number (R338). -/
def recvChannel (q r : Nat) : Option Nat := if bits r 14 2 = 0 then some (64 * q + bits r 0 6) else none

/-- A record of an instance put on the result stream that a channel feeds, as its frame's record (R332, R337). -/
def queueRecordTx (ch : Nat) (i : InstRef) (bytes : List Byte) (close : Bool) (es : List TxEntry) (d : Dev) : Dev :=
  match es.find? (fun e => e.ch == ch) with
  | some e => updTx e.port (setFrameRecord e.vc i bytes close) (openFrame es e.port e.vc i d)
  | none => d

/-- The ENDS word of a channel: that of its ACTIVE set, else of its staging set (R228, R230). -/
def chEnds (d : Dev) (ch : Nat) : W32 :=
  match (getCh d ch).active with
  | some s => s.regs.getD 10 0
  | none => getR d .ch ch 0x28

/-- A record of an instance queued to one receiver channel (R338): on its outbound window when its destination KIND is 2
(R349), else on the result stream that it feeds. -/
def queueRecordTo (ch : Nat) (i : InstRef) (bytes : List Byte) (close : Bool) (es : List TxEntry) (d : Dev) : Dev :=
  let w := chEnds d ch
  let d1 := bytesFrom (ch / 64) bytes.length d
  if fld w 16 3 = 2 then queueWinRecord (fld w 24 6) (some i) bytes d1 else queueRecordTx ch i bytes close es d1

/-- The 64 bytes of an outcome record with its CRC (R188, R189). -/
def outcomeBytes (o : Outcome) : List Byte :=
  let b := leBytes 2 0x0101 ++ leBytes 1 o.kind ++ leBytes 1 o.stream ++ leBytes 4 o.index ++ leBytes 8 o.fs
    ++ leBytes 8 o.deadline ++ leBytes 8 o.done ++ leBytes 2 o.gid ++ leBytes 2 o.epoch ++ leBytes 4 o.gen
    ++ leBytes 2 o.reason ++ leBytes 2 o.flags ++ leBytes 4 o.extra ++ leBytes 4 o.coarse ++ leBytes 4 o.refined
    ++ leBytes 4 o.digest.toNat
  b ++ leBytes 4 (crc32 b).toNat

/-- The control digest over the items of an instance (R191). -/
def digestOf (items : List DigestItem) : W32 :=
  crc32 ((items.map (fun it => leBytes 4 it.addr ++ leBytes 4 it.value.toNat ++ leBytes 1 it.source ++ leBytes 1 it.status
    ++ leBytes 2 0)).flatten)

/-- A record written to a Drover's outcome region (R192): slot OUT_HEAD mod slots, overwriting the oldest when full; an
unused region index takes no record and sets NO_REGION. -/
def writeOutcome (q : Nat) (bytes : List Byte) (d : Dev) : Dev :=
  let ctl := getR d .drv q 0x4
  if fld ctl 8 1 = 0 then d
  else
    let g := getRegion d q (fld ctl 0 8)
    if g.n = 0 then orR .drv q 0x10 4 d
    else
      let head := (getR d .drv q 0x8).toNat
      let tail := (getR d .drv q 0xC).toNat
      let full := (head + 2 ^ 32 - tail) % 2 ^ 32 ≥ g.n
      let d1 := spadWrite { req := 132 } q (8 * (g.base + head % g.n * g.slot)) bytes d
      guardDev full (fun d => pmuUc q 558 1 (orR .drv q 0x10 1 d)) (setR .drv q 0x8 (head + 1) d1)

end Sys2Proof.Machine
end

