-- ==== Sys2Proof/Machine/Ring.lean ====
section
/-! DEFINITION. Rings and their flocks (R209-R211, R339-R343), and the end of a DMA set (R237, R238), which a cut causes. -/

namespace Sys2Proof.Machine

/-- The fill of a region (R209). -/
def Region.fill (g : Region) : Nat := (g.h + 2 * g.n - g.t) % (2 * g.n)

/-- A count advanced modulo 2n (R209). -/
def addMod (g : Region) (c k : Nat) : Nat := (c + k) % (2 * g.n)

/-! ### Shape and residue of a DMA set (R229-R232, R237) -/

/-- Word i of a set's registers. -/
def setW (s : DmaSet) (i : Nat) : W32 := s.regs.getD i 0

def setMode (s : DmaSet) : Nat := fld (setW s 11) 0 3
/-- Element size in bytes and plane count of a reshuffle (R232). -/
def setEsize (s : DmaSet) : Nat := 2 ^ fld (setW s 11) 4 2
def setPlanes (s : DmaSet) : Nat :=
  match setMode s with
  | 0 => 1
  | 1 => fld (setW s 11) 8 4
  | 2 => fld (setW s 11) 8 4
  | 3 => 4
  | 4 => 4
  | _ => 8 * setEsize s

/-- The planar side is the destination, or the source (R232). -/
def planarDst (s : DmaSet) : Bool := setMode s == 1 || setMode s == 3 || setMode s == 5
def planarSrc (s : DmaSet) : Bool := setMode s == 2 || setMode s == 4 || setMode s == 6

def srcLen (s : DmaSet) : Nat := fld (setW s 4) 0 24
def srcStride (s : DmaSet) : Int := toSigned 32 (setW s 5).toNat
def srcCount (s : DmaSet) : Nat := fld (setW s 6) 0 24
def dstLen (s : DmaSet) : Nat := fld (setW s 7) 0 24
def dstStride (s : DmaSet) : Int := toSigned 32 (setW s 8).toNat
def dstCount (s : DmaSet) : Nat := fld (setW s 9) 0 24
def srcAddr (s : DmaSet) : Nat := (setW s 0).toNat + 2 ^ 32 * fld (setW s 1) 0 16
def dstAddr (s : DmaSet) : Nat := (setW s 2).toNat + 2 ^ 32 * fld (setW s 3) 0 16
def srcBound (s : DmaSet) : Bool := bit (setW s 13).toNat 8
def dstBound (s : DmaSet) : Bool := bit (setW s 13).toNat 24
def srcRing (s : DmaSet) : Nat := fld (setW s 13) 0 8
def dstRing (s : DmaSet) : Nat := fld (setW s 13) 16 8
def srcSlotLines (s : DmaSet) : Nat := fld (setW s 14) 0 16
def dstSlotLines (s : DmaSet) : Nat := fld (setW s 14) 16 16

/-- Length and count of the lines of the non-planar side; without a planar side, of the source (R237). -/
def npLen (s : DmaSet) : Nat := if planarSrc s then dstLen s else srcLen s
def npCount (s : DmaSet) : Nat := if planarSrc s then dstCount s else srcCount s

/-- Bytes of one whole unit of a reshuffle, or 1 without one (R232). -/
def unitBytes (s : DmaSet) : Nat :=
  match setMode s with
  | 0 => 1
  | 3 => 2 * npLen s
  | 4 => 2 * npLen s
  | _ => npLen s

/-- Destination bytes of the whole set (R231). -/
def setVolume (s : DmaSet) : Nat := npLen s * npCount s

/-- Lines left and bytes left in the current line (R237). -/
def residue (s : DmaSet) : Nat × Nat :=
  if setSrcKind s = 3 then (0, 0)
  else
    let w := s.written / unitBytes s * unitBytes s
    let left := npCount s - w / npLen s
    (left, if left = 0 then 0 else if setMode s = 0 then npLen s - w % npLen s else npLen s)

/-- The status record of a set's end (R237). -/
def statusRecord (s : DmaSet) (code side cause addr dt : Nat) : List Byte :=
  let r := residue s
  leBytes 1 code ++ leBytes 1 side ++ leBytes 1 cause ++ leBytes 1 0 ++ leBytes 4 r.1 ++ leBytes 4 r.2 ++ leBytes 4 s.moved
    ++ leBytes 8 addr ++ leBytes 8 dt

/-- The void reason of a set's end code (R237). -/
def dmaVoidReason : Nat → Option Nat
  | 2 => some 2
  | 3 => some 3
  | 4 => some 3
  | 5 => some 2
  | 6 => some 12
  | _ => none

/-- The event of a set's end: DMA_DONE or DMA_ABORT, with the status address as payload (R238, R314). -/
def dmaEvent (s : DmaSet) (typ code : Nat) : Event :=
  let e := setW s 17
  { typ := typ, cls := fld e 24 3, order := fld e 27 2, key := fld e 0 24, flags := if code = 0 then 0 else 16,
    dl32 := s.dl % 2 ^ 32, payload := fld (setW s 16) 0 23 }

/-- The status record written and the starter signalled (R237, R238 steps 3 and 4); the tag may report another status than
the record's code (R341). -/
def dmaFinish (ch : Nat) (s : DmaSet) (code side cause addr tagCode : Nat) (d : Dev) : Dev :=
  let q := ch / 64
  let st := setW s 16
  let dropSample (d : Dev) : Dev := sampleDrop q 3 s.no code 0 d
  let d1 := guardDev (fld st 31 1 == 1)
    (spadWrite { req := 64 + ch % 64, idx := ch + 1 } q (8 * fld st 0 23) (statusRecord s code side cause addr d.dt)) d
  let d2 := guardDev (1 ≤ code && code ≤ 6) (fun d => pmuEv q 31 1 (byChannel d ch) .none (addCnt .dmac q 0x1C 1 d)) (updCh ch (fun c => { c with lastCode := code }) d1)
  let d3 := match s.starter with
    | .drover i tag _ => report { inst := i, tag := tag, code := tagCode, void := dmaVoidReason code, remote := i.q != q } (dropSample d2)
    | _ => dropSample d2
  guardDev (fld (setW s 17) 31 1 == 1)
    (post { q := q, src := 64 + ch % 64, ev := dmaEvent s (if code = 0 then 2 else 3) code, dl := s.dl, attach := s.starter.inst }) d3

/-! ### Flock tails (R339) -/

/-- The lag of a receiver (R339). -/
def lagOf (g : Region) (t : Nat) : Nat := (g.h + 2 * g.n - t) % (2 * g.n)

/-- The tail the producer sees: that of the member with the largest lag, or H without a member (R339). -/
def flockTail (g : Region) (f : FlockSt) (n : Nat) : Nat :=
  let members := (List.range n).filter (fun i => !bit f.cut i)
  let worst := members.foldl (fun m i => max m (lagOf g (f.tails.getD i 0))) 0
  (g.h + 2 * g.n - worst) % (2 * g.n)

/-- FILLED cleared on the slots that a move of T from a count frees (R223). -/
def clearFilled (q r n from_ k : Nat) (d : Dev) : Dev :=
  (List.range k).foldl (fun d j =>
    let key := (256 * q + r) * 32768 + (from_ + j) % n
    { d with audit := mapUpd {} key (fun t => { t with filled := false }) d.audit }) d

/-- T moved to a new count: the slots between are freed (R209, R223). -/
def moveTail (q r t' : Nat) (d : Dev) : Dev :=
  let g := getRegion d q r
  if g.n = 0 then d
  else updRegion q r (fun g => { g with t := t' }) (clearFilled q r g.n g.t ((t' + 2 * g.n - g.t) % (2 * g.n)) d)

/-- The ring's T set to what the flock's members give (R339). -/
def refreshTail (q r i n : Nat) (d : Dev) : Dev :=
  let g := getRegion d q r
  moveTail q r (flockTail g (getFlock d q i) n) d

/-- The inbound RING windows that land in a region (R347). -/
def windowsOnRing (d : Dev) (q r : Nat) : List Nat :=
  (d.peer.table.filter (fun e =>
    let f := byteAt e.2 0
    bit f 0 && bit f 1 && byteAt e.2 2 % 4 == q && byteAt e.2 3 == r)).map (·.1)

/-- The CREDIT flits of a release of slots of a region (R348). -/
def sendCredits (q r k : Nat) (d : Dev) : Dev :=
  if k = 0 then d
  else (windowsOnRing d q r).foldl (fun d w =>
    match (getWin d w).link with
    | some n => linkQueue n { typ := 4, body := leBytes 1 w ++ leBytes 1 k } d
    | none => d) d

/-- A ring event of a quadrant, 21 to 23, of a party that is no general core: those count with their thread (R436). -/
def ringEv (q r e req : Nat) (d : Dev) : Dev :=
  guardDev (decide (64 ≤ req)) (fun d => pmuEv q e 1 (byParty d q { req := req }) (.word (getRegion d q r).base) d) d

/-- The requester number that a receiver word stands for (R29, R338): a channel, a software receiver, an engine, or a fold. -/
def receiverReq (by_ : Option Nat) : Nat :=
  match by_ with
  | none => 151
  | some w =>
    match w / 2 ^ 14 with
    | 0 => 64 + w % 64
    | 1 => 0
    | _ => if w % 64 < 16 then 133 + w % 64 else 151

/-- A release of k slots of a region by a party, named by its receiver word on a flock ring (R209, R339): more than the fill
moves the tail to H and sets ERR.PTR; a party that is no receiver of the flock moves nothing and is counted. (DEDUCED, log 113.) -/
def ringRelease (q r k : Nat) (by_ : Option Nat) (d : Dev) : Dev :=
  let g := getRegion d q r
  if g.n = 0 then d
  else
    let d0 := ringEv q r 22 (receiverReq by_) d
    match ringFlock d q r with
    | none =>
      let d1 := if k ≤ g.fill then moveTail q r (addMod g g.t k) d0
        else ringEv q r 23 (receiverReq by_) (orR .spd q 0x8 8 (moveTail q r g.h d0))
      sendCredits q r (min k g.fill) d1
    | some (i, f) =>
      match by_ with
      | none => addCnt .flk (256 * q + i) 0x18 1 d0
      | some w =>
        match f.recvs.findIdx? (· == w) with
        | none => addCnt .flk (256 * q + i) 0x18 1 d0
        | some j =>
          let t := (getFlock d q i).tails.getD j 0
          let past := lagOf g t < k
          let t' := if past then g.h else addMod g t k
          let d1 := updFlock q i (fun x => { x with tails := setAt j t' x.tails }) d0
          let d2 := guardDev past (fun d => ringEv q r 23 (receiverReq by_) (orR .spd q 0x8 8 d)) d1
          let d3 := refreshTail q r i f.recvs.length d2
          sendCredits q r (((getRegion d3 q r).t + 2 * g.n - g.t) % (2 * g.n)) d3

/-! ### Input rings of a vision context (R100, R102, R209-R211, R222, R339) -/

def getVis (d : Dev) (e c : Nat) : VisCtx := mapGet {} (128 * e + c) d.vis
def updVis (e c : Nat) (f : VisCtx → VisCtx) (d : Dev) : Dev := { d with vis := mapUpd {} (128 * e + c) f d.vis }

/-- The engine's receiver word on a flock ring (R338). -/
def visRecv (e : Nat) : Nat := 2 * 2 ^ 14 + 8 + e % 8

/-- Tile rows of a context's plane that have left the ring by its releases. -/
def relOf (x : VisCtx) (r : Nat) : Nat := mapGet 0 r x.rel

/-- Rows of a context's plane that are in the ring, released ones included. -/
def inRows (d : Dev) (e : Nat) (x : VisCtx) (r : Nat) : Nat :=
  let g := getRegion d (e / 8) r
  if g.n = 0 then 0 else relOf x r + (g.h + 2 * g.n - tailFor d (e / 8) r (visRecv e)) % (2 * g.n)

/-- The context releases the rows of its plane below a row (R102, R108, R114): outside a fold run the slots go to the producer, those of
rows that have still to come as they come. -/
def releaseBelow (e c r row : Nat) (d : Dev) : Dev :=
  let x := getVis d e c
  let have_ := relOf x r
  let to_ := if x.fold.isSome then row else min row (inRows d e x r)
  let d0 := guardDev (to_ < row) (updVis e c (fun x => { x with keep := mapSet 0 r (max row (mapGet 0 r x.keep)) x.keep })) d
  if to_ ≤ have_ then d0
  else
    let d1 := updVis e c (fun x => { x with rel := mapSet 0 r to_ x.rel }) d0
    if x.fold.isSome then d1 else ringRelease (e / 8) r (to_ - have_) (some (visRecv e)) d1

/-- A row just committed that a context has already passed over is released (R114). -/
def freeSkipped (q r : Nat) (d : Dev) : Dev :=
  d.vis.foldl (fun d v =>
    let want := mapGet 0 r v.2.keep
    guardDev (v.2.live && v.1 / 1024 == q && decide (relOf v.2 r < want)) (releaseBelow (v.1 / 128) (v.1 % 128) r want) d) d

/-- EMPTY_ON_STOP: every slot of a bound ring released, on a flock ring for every receiver (R238). -/
def ringEmpty (q r : Nat) (d : Dev) : Dev :=
  let g := getRegion d q r
  if g.n = 0 then d
  else
    let d1 := match ringFlock d q r with
      | some (i, _) => updFlock q i (fun x => { x with tails := x.tails.map (fun _ => g.h) }) d
      | none => d
    sendCredits q r g.fill (moveTail q r g.h d1)

/-- An outbound window whose far end is a ring (R347). -/
def winRing (e : List Byte) : Bool := bit (byteAt e 0) 1

/-- Flits of a segment cut from its bytes: 248 to a DATA flit (R344, R346). -/
def dataFlits (ch w : Nat) (i : Option InstRef) (bs : List Byte) : List FlitBody :=
  (chunks 248 16 bs).map (fun b => { typ := 2, body := b, ch := some ch, win := some w, inst := i })

/-- The segment that a channel packs, queued on its window's route (R346). -/
def flushSeg (ch : Nat) (commit : Bool) (s : DmaSet) (d : Dev) : Dev :=
  match s.seg with
  | none => d
  | some (off, bs) =>
    let w := setDstWin s
    let e := winEntry d w
    let route := field e 0x10 2
    let header := leBytes 1 (getF d .peer 0 0 0 8) ++ leBytes 1 (winPeer e) ++ leBytes 1 0 ++ leBytes 1 (bits route 12 2 + 1)
      ++ leBytes 2 (bits route 0 12) ++ leBytes 1 (byteAt e 2) ++ leBytes 1 (b2n commit + 2 * b2n (Config.segmentNotify w off))
      ++ leBytes 4 off ++ leBytes 2 bs.length ++ leBytes 10 0
    let head : FlitBody :=
      { typ := 1, body := header ++ bs.take 224, ch := some ch, win := some w, inst := s.starter.inst }
    (head :: dataFlits ch w s.starter.inst (bs.drop 224)).foldl (fun d f => linkQueue (winLink e) f d) d

/-- The drain frame that a set of no instance fed ends with the set (R334). -/
def endDrain (ch : Nat) (s : DmaSet) (d : Dev) : Dev :=
  if setDstKind s = 3 ∧ s.starter.inst = none then
    match txEntryFor d none ch with
    | some e => updTx e.port (fun t => { t with frames := t.frames.map (fun f =>
        if f.vc == e.vc && f.inst == none && f.parts.any (fun x => x.part == e.part) then { f with ended := true } else f) }) d
    | none => d
  else d

/-- The end of the ACTIVE set of a channel (R238): nothing more is written, a stop with EMPTY_ON_STOP empties bound rings, the
status record is written and the starter signalled. NEXT becomes ACTIVE in a later cycle (R236). (DEDUCED, log 62.) -/
def dmaEndAs (ch code side cause addr tagCode : Nat) (d : Dev) : Dev :=
  match (getCh d ch).active with
  | none => d
  | some s =>
    let q := ch / 64
    let d0 := endDrain ch s (flushSeg ch (code == 0 && setDstKind s == 2 && winRing (winEntry d (setDstWin s))) s d)
    let d1 := updCh ch (fun c => { c with active := none, ended := true }) d0
    let empty := code != 0 && fld (setW s 20) 1 1 == 1
    let d2 := guardDev (empty && srcBound s && setSrcKind s != 3) (ringEmpty q (srcRing s)) d1
    let d3 := guardDev (empty && dstBound s) (ringEmpty q (dstRing s)) d2
    dmaFinish ch s code side cause addr tagCode d3

/-- The end of the ACTIVE set with the status code as tag status. -/
def dmaEnd (ch code side cause addr : Nat) (d : Dev) : Dev := dmaEndAs ch code side cause addr code d

/-! ### Shedding (R341-R343) -/

/-- MX cycles for which a fold has been frozen by the CHECK or the gate that it waits at, before an MX cycle (R218, R220). -/
def frozenSince (s : FoldSt) (t : Nat) : Nat :=
  match s.hold, s.cap with
  | .none, _ => 0
  | _, some c => t - (s.start + s.frozen + c + 1)
  | _, none => 0

/-- Hold cycles up to now of an instance's fold runs that have not reported: those in progress, and those whose report is on its way
(R189). (DEDUCED, log 50.) -/
def openHolds (d : Dev) (i : InstRef) : Nat :=
  (d.folds.map (fun e => match e.2.run with
    | some r => if r.starter.inst == some i then
        e.2.holds + (if e.2.hold == .check && e.2.stop.isNone then frozenSince e.2 (10 * d.dt) else 0) else 0
    | none => 0)).foldl (· + ·) (((d.fab.reports.filter (fun r => r.inst == i)).map (·.hold)).foldl (· + ·) 0)

/-- The record of an instance as its context stands now, with a kind, reason and done time (R189). -/
def ctxOutcome (d : Dev) (i : InstRef) (kind reason done : Nat) : Outcome :=
  let c := getCtx d i.q i.ctx
  { kind := kind, stream := c.stream, index := c.index, fs := c.fs, deadline := c.dl, done := done, gid := c.gid,
    epoch := ctxEpoch d c, gen := c.gen, reason := reason, flags := c.flags, extra := satTo 32 (c.hold + openHolds d i), coarse := 0, refined := 0,
    digest := digestOf c.digest }

/-- The plane of a referenced instance. -/
def instPlane (d : Dev) (i : InstRef) : Nat := (getCtx d i.q i.ctx).plane

/-- The TXMAP entries of an instance's image. -/
def instTxMap (d : Dev) (i : InstRef) : List TxEntry := txMap (planeOf d (instPlane d i)).sections

/-- A receiver shed from an instance (R342): one record copy of kind VOID and reason 7 is its only record of the instance. An instance that
has been sealed has sent its record to every receiver (R343). -/
def shedReceiver (q i j ch : Nat) (inst : InstRef) (d : Dev) : Dev :=
  if (getFlock d q i).shed.any (fun e => e == (j, inst)) || !instLive d inst then d
  else
    let es := instTxMap d inst
    let open_ := es.any (fun e => e.ch == ch && txHasFrame (getTx d e.port) e.vc inst)
    let d0 := guardDev open_ (updInst inst (fun c => { c with flags := c.flags ||| 2 ^ 12 })) d
    let o := { ctxOutcome d0 inst 2 7 (d.dt + 2) with digest := 0 }
    let d1 := updFlock q i (fun x => { x with shed := x.shed ++ [(j, inst)] }) d0
    let d2 := queueRecordTo ch inst (outcomeBytes o) true es d1
    addCnt .flk (256 * q + i) 0x10 1 { d2 with outcomes := d2.outcomes ++ [o] }

/-- A channel's flits without those of segments of which nothing has been sent. -/
def dropSegments (ch : Nat) : List FlitBody → List FlitBody
  | [] => []
  | b :: r => if b.ch == some ch && b.typ == 1 then (b :: r).filter (fun x => x.ch != some ch) else b :: dropSegments ch r

/-- A channel's segments of which nothing has been sent are discarded (the worked example after R355). -/
def discardSegments (ch : Nat) (d : Dev) : Dev :=
  let d1 := updCh ch (fun c => { c with active := c.active.map (fun s => { s with seg := none }) }) d
  { d1 with peer := { d1.peer with links := d1.peer.links.map (fun e => (e.1, { e.2 with queue := dropSegments ch e.2.queue })) } }

/-- The set that an instance runs on a channel ends as under ABORT, with tag status 0 (R341). -/
def endShedSet (ch : Nat) (d : Dev) : Dev := dmaEndAs ch 1 0 0 0 0 (discardSegments ch d)

/-- An egress receiver cut from its flock for the instance of a commit (R341). -/
def cutReceiver (q i j ch : Nat) (inst : Option InstRef) (d : Dev) : Dev :=
  let d1 := addCnt .flk (256 * q + i) 0xC 1 (updFlock q i (fun x => { x with cut := x.cut ||| 2 ^ j }) d)
  let d2 := match inst with
    | some n => shedReceiver q i j ch n d1
    | none => d1
  endShedSet ch d2

/-- A receiver word names an egress receiver: a channel whose ACTIVE set goes to a window or a port (R341). -/
def egressRecv (d : Dev) (q w : Nat) : Option Nat :=
  match recvChannel q w with
  | some ch => match (getCh d ch).active with
    | some s => if setDstKind s = 2 ∨ setDstKind s = 3 then some ch else none
    | none => none
  | none => none

/-- A cut receiver is drained (R343): no queued packet of an instance shed for it, no flit of its window queued or waiting
for its acknowledgement. -/
def drained (d : Dev) (q i j ch : Nat) : Bool :=
  let shed := ((getFlock d q i).shed.filter (fun e => e.1 == j)).map (·.2)
  let w := chEnds d ch
  if fld w 16 3 = 2 then
    let win := fld w 24 6
    let l := getLink d (winLink (winEntry d win))
    !(l.queue.any (fun b => b.win == some win)) && !(l.retry.any (fun b => b.2.win == some win))
  else
    match txEntryFor d none ch with
    | some e => !((getTx d e.port).frames.any (fun f => f.vc == e.vc && shed.any (fun n => f.inst == some n)))
    | none => true

/-- A frame boundary (R343): each cut receiver rejoins when drained, with its tail at the H before the commit; otherwise the
instance is shed for it. -/
def frameBoundary (q i : Nat) (f : Flock) (h : Nat) (inst : InstRef) (d : Dev) : Dev :=
  let d1 := (List.range f.recvs.length).foldl (fun d j =>
    if !bit (getFlock d q i).cut j then d
    else
      match recvChannel q (f.recvs.getD j 0) with
      | none => d
      | some ch =>
        if drained d q i j ch then
          addCnt .flk (256 * q + i) 0x14 1
            (updFlock q i (fun x => { x with cut := x.cut - 2 ^ j, tails := setAt j h x.tails,
                                             shed := x.shed.filter (fun e => e.1 != j) }) d)
        else
          let mine := match (getCh d ch).active with
            | some s => s.starter.inst == some inst
            | none => false
          guardDev mine (endShedSet ch) (shedReceiver q i j ch inst d)) d
  updFlock q i (fun x => { x with last := some inst }) d1

/-- Members of a SHED flock that a visible commit leaves too far behind are cut (R341). -/
def cutLagging (q i : Nat) (f : Flock) (inst : Option InstRef) (d : Dev) : Dev :=
  if f.hold then d
  else (List.range f.recvs.length).foldl (fun d j =>
    if bit (getFlock d q i).cut j then d
    else
      match egressRecv d q (f.recvs.getD j 0) with
      | some ch =>
        let g := getRegion d q f.ring
        guardDev (f.lag < lagOf g ((getFlock d q i).tails.getD j 0)) (cutReceiver q i j ch inst) d
      | none => d) d

/-- A region as it stood when an MX cycle began, before what is noted as moved in that cycle (R211). -/
def Region.asOf (g : Region) (t : Nat) : Region := if g.movedAt = t + 1 then { g with h := g.h0, t := g.t0 } else g

/-- H or T of a region is about to move in an MX cycle, which tests of that cycle do not see. -/
def noteMove (q r t : Nat) (d : Dev) : Dev :=
  updRegion q r (fun g => if g.movedAt = t + 1 then g else { g with movedAt := t + 1, h0 := g.h, t0 := g.t }) d

/-- A commit of one slot, visible (R209, R211): H advances; with the region full, T advances too and ERR.PTR is set; the
slot's audit tag is filled (R223). On a flock ring the instance's first commit is a frame boundary, and stragglers are cut. (DEDUCED, log 113.) -/
def ringCommit (q r prod : Nat) (inst : Option InstRef) (d : Dev) : Dev :=
  let g := getRegion d q r
  if g.n = 0 then d
  else
    let fl := ringFlock d q r
    let d0 := match fl, inst with
      | some (i, f), some n => guardDev ((getFlock d q i).last != some n) (frameBoundary q i f g.h n) d
      | _, _ => d
    let g0 := getRegion d0 q r
    let full := g0.fill == g0.n
    let d1 := if full then
        let d2 := match fl with
          | some (i, _) => updFlock q i (fun x => { x with tails := x.tails.map (fun t =>
              if lagOf g0 t = g0.n then addMod g0 t 1 else t) }) d0
          | none => d0
        ringEv q r 23 prod (orR .spd q 0x8 8 (moveTail q r (addMod g0 g0.t 1) d2))
      else d0
    let key := (256 * q + r) * 32768 + g0.h % g0.n
    let d3 := { d1 with audit := mapSet {} key { filled := true, epoch := g0.fills % 65536, producer := prod } d1.audit }
    let d4 := ringEv q r 21 prod (updRegion q r (fun x => { x with h := addMod x x.h 1, fills := x.fills + 1 }) d3)
    freeSkipped q r (match fl with
    | some (i, f) => refreshTail q r i f.recvs.length (cutLagging q i f inst d4)
    | none => d4)

/-- A bulk transfer's end at its channel, once its bytes are written (R235): the partial slot commits, the status record is
written with residue 0, and BULK_END is posted. -/
def bulkFinish (ch code : Nat) (d : Dev) : Dev :=
  match (getCh d ch).active with
  | none => d
  | some s =>
    let q := ch / 64
    let per := dstLen s * dstSlotLines s
    let partial_ := per != 0 && s.written % per != 0
    let d1 := guardDev partial_ (ringCommit q (dstRing s) (64 + ch % 64) s.starter.inst) d
    let st := setW s 16
    let d2 := guardDev (fld st 31 1 == 1)
      (spadWrite { req := 64 + ch % 64, idx := ch + 1 } q (8 * fld st 0 23) (statusRecord s code 0 0 0 d.dt)) d1
    let s1 := { s with bulkEnds := s.bulkEnds.tail, bulkBad := false, bulkOpen := false, moved := 0
                       committed := if partial_ then s.committed + 1 else s.committed
                       written := if partial_ then (s.written / per + 1) * per else s.written
                       issued := if partial_ then (s.written / per + 1) * per else s.issued }
    let d3 := updCh ch (fun c => { c with active := some s1, lastCode := code }) d2
    post { q := q, src := 64 + ch % 64, ev := dmaEvent s 5 code, dl := s.dl, attach := s.starter.inst } d3

/-- Byte address of a slot of a region, by count (R209). -/
def slotAddr (g : Region) (c : Nat) : Nat := 8 * (g.base + c % g.n * g.slot)

end Sys2Proof.Machine
end

