-- ==== Sys2Proof/Machine/Seal.lean ====
section
/-! DEFINITION. Outcome records sealed by a Drover (R187-R197): RESULT, VOID and REFUSED, what a void seal stops, and the
release of a plane that nothing refers to any more (R49). -/

namespace Sys2Proof.Machine

/-! ### Planes in use and the release request (R49) -/

/-- A graph or fold of the plane's image refers to the plane now (R49). -/
def planeReferred (d : Dev) (p : Nat) : Bool :=
  let ss := (planeOf d p).sections
  d.cfg.graphs.any (fun e => e.2.now == p && (imageGraphs ss).contains e.1)
    || d.cfg.folds.any (fun e => e.2.now == p && (imageFolds ss).contains e.1)

/-- OLD_LIVE (R51): the admitted instances of selected graphs on the plane that the last switch leaves. -/
def oldLive (d : Dev) : Nat :=
  match d.cfg.leaving with
  | some (p, gs) => (d.ctxs.filter (fun e => e.2.live && e.2.plane == p && gs.contains e.2.gid)).length
  | none => 0

/-- A live instance runs on the plane. -/
def planeLive (d : Dev) (p : Nat) : Bool := d.ctxs.any (fun e => e.2.live && e.2.plane == p)

/-- A plane in use that nothing refers to and that holds no unsealed instance (R49). -/
def planeFree (d : Dev) (p : Nat) : Bool := (planeOf d p).inUse && !planeReferred d p && !planeLive d p

/-- The release record requested in the DT in which the condition first holds (R49): kind 0x0004, origin class 6. -/
def requestRelease (p : Nat) (d : Dev) : Dev :=
  if planeFree d p && !d.cfg.releasing.contains p then
    requestChange { at_ := d.dt, cls := 6, oid := 0, target := 0x90000, kind := 0x0004, new := BitVec.ofNat 32 (planeOf d p).gen,
                    act := .release p }
      { d with cfg := { d.cfg with releasing := d.cfg.releasing ++ [p] } }
  else d

/-- The release conditions of both planes looked at. -/
def checkReleases (d : Dev) : Dev := requestRelease 1 (requestRelease 0 d)

/-! ### Frames of a voided or refused instance -/

/-- A pipe context stops a frame and writes nothing further for it, be it in the pipe, waiting behind another, or finished but for rows
that wait; the next frame of the stream starts in reset mode (R98). A frame without a pixel line leaves its epoch to be settled (R96). -/
def stopIspFrame (stream index : Nat) (x : IspCtx) : IspCtx :=
  let is (f : IspFrame) : Bool := f.stream == stream && f.index == index
  let mine (o : Option IspFrame) : Bool := (o.filter is).isSome
  let x0 := { x with lost := (((x.frame.filter is).or (x.next.filter is)).filter (fun (f : IspFrame) => !f.fixed)).or x.lost }
  let x1 := match x0.frame.filter is with
    | some f =>
      { x0 with frame := x0.next, next := none
                prev := some { stream := stream, index := index, passed := false, voided := true, tab5 := 0, tnrEn := false,
                               vals := f.vals } }
    | none => if mine x0.next then { x0 with next := none } else x0
  let gone := mine x.frame || mine x.next || (match x.prev with
    | some p => p.stream == stream && p.index == index
    | none => false)
  if !gone then x1
  else
    let rows := x1.rows.filter (fun r => !(r.stream == stream && r.index == index))
    { x1 with buf := x1.buf.filter (fun l => l.index != index), rows := rows, stalled := x1.stalled && !rows.isEmpty
              prev := x1.prev.map (fun p => if p.stream == stream && p.index == index then { p with voided := true } else p) }

/-- The hub tells the Drovers of instances that read a frame that its instance has ended REFUSED or VOID (R64). -/
def noteEnded (stream index : Nat) (d : Dev) : Dev :=
  let qs := [0, 1, 2, 3].filter (fun q => d.ctxs.any (fun e => e.1 / 64 == q && e.2.live && e.2.deps.contains (stream, index)))
  let ns : List GroupNotice := qs.map (fun q =>
    { q := q, group := 0, start := 0, present := [], absent := [], ended := some (stream, index) })
  { d with fab := { d.fab with groups := d.fab.groups ++ ns } }

/-- The receive slot of a voided or refused frame discards the frame's remaining packets (R67), and its pipe context stops the
frame (R98). -/
def dropFrame (stream index : Nat) (d : Dev) : Dev :=
  let slot (s : RxSlot) : RxSlot :=
    match s.frame with
    | some f => if f.index == index then { s with frame := none, discard := true } else s
    | none => s
  { d with rx := { d.rx with slots := mapUpd {} stream slot d.rx.slots }
           isp := { d.isp with ctxs := d.isp.ctxs.map (fun e => (e.1, stopIspFrame stream index e.2)) } }

/-! ### Job aborts (R295, R296, R351) -/

/-- A WINDOW entry in use, outbound or inbound (R347). -/
def winUsed (e : List Byte) : Bool := e.any (· != 0#8)
def winOutbound (e : List Byte) : Bool := winUsed e && !bit (byteAt e 0) 0
def winJob (e : List Byte) : Nat := field e 0x12 2

/-- A graph carries a job ID (R295): a STEP_OPEN window of the job opens its stream, or the image declares it otherwise. (DESIGN CHOICE, log 54.) -/
def carriesJob (d : Dev) (gen gid stream job : Nat) : Bool :=
  Config.graphJob gen gid job
    || d.peer.table.any (fun e => winUsed e.2 && bit (byteAt e.2 0) 0 && bit (byteAt e.2 0) 3 && byteAt e.2 0x14 == stream
        && winJob e.2 == job)

/-- One outbound window for each job ID and destination module. -/
def abortWindows : List (Nat × List Byte) → List (Nat × List Byte)
  | [] => []
  | e :: r => e :: (abortWindows r).filter (fun x => winJob x.2 != winJob e.2 || winPeer x.2 != winPeer e.2)

/-- The job-abort flits of a step that has ended VOID or REFUSED (R296, R351): on the route of the outbound windows that carry a job
ID of the graph, once per destination module. -/
def sendAborts (gen gid stream step : Nat) (d : Dev) : Dev :=
  let ws := abortWindows (d.peer.table.filter (fun e => winOutbound e.2 && carriesJob d gen gid stream (winJob e.2)))
  ws.foldl (fun d e =>
    let body := leBytes 2 (winJob e.2) ++ leBytes 4 step ++ leBytes 1 (getF d .peer 0 0 0 8)
    linkQueue (winLink e.2) { typ := 6, body := body } d) d

/-! ### Contexts -/

/-- A context stops being held when its instance is sealed and every unit started for it has reported (R171). -/
def releaseCtx (q c : Nat) (d : Dev) : Dev :=
  let x := getCtx d q c
  guardDev (x.held && !x.live && x.units.isEmpty) (updCtx q c (fun x => { x with held := false })) d

/-- The graph of a referenced instance in its image. -/
def instGraph (d : Dev) (i : InstRef) : Option Graph :=
  findGraph (planeOf d (instPlane d i)).sections (getCtx d i.q i.ctx).gid

/-- The flock of a referenced instance's graph. -/
def instFlock (d : Dev) (i : InstRef) : Option (Nat × Flock) :=
  match instGraph d i with
  | some g => graphFlock (planeOf d (instPlane d i)).sections g
  | none => none

/-- A sealed record queued to every receiver of the graph's flock, but for receivers shed from the instance (R192, R342). -/
def queueToFlock (i : InstRef) (bytes : List Byte) (close : Bool) (d : Dev) : Dev :=
  match instFlock d i with
  | none => d
  | some (fi, f) =>
    (List.range f.recvs.length).foldl (fun d j =>
      if (getFlock d i.q fi).shed.any (fun e => e == (j, i)) then d
      else
        match recvChannel i.q (f.recvs.getD j 0) with
        | some ch => queueRecordTo ch i bytes close (instTxMap d i) d
        | none => d) d

/-- A result frame of the instance is open on some result stream (R190 bit 12, R337). -/
def frameOpen (d : Dev) (i : InstRef) : Bool :=
  d.tx.any (fun e => e.2.frames.any (fun f => f.inst == some i && !f.recordSent))

/-- The tracked instruction of a context that was parked wakes and completes, or completes where it issued (R438). -/
def drvComplete (i : InstRef) (vx : Nat) (d : Dev) : Dev :=
  match (getPmu d i.q).track.getD 2 none with
  | some t => guardDev (t.key / 2 ^ 40 == i.serial) (fun d => sampleEnd i.q 2 t.key vx false (sampleStage i.q 2 t.key 3
      (guardDev (mapGet 0 1 t.rec_.stamps != 0) (sampleStage i.q 2 t.key 2) d))) d
  | none => d

/-- A context's tracked instruction completes where the context has woken since a state before (R438). -/
def drvWoken (before : Dev) (i : InstRef) (d : Dev) : Dev :=
  guardDev ((getCtx before i.q i.ctx).wait != .run && instLive d i && (getCtx d i.q i.ctx).wait == .run) (drvComplete i 0) d

/-- A sealed record that has still to leave is another one: in the outcome region, in transmit ports' frames, in links' queues. -/
def replaceRecord (q : Nat) (old new : List Byte) (d : Dev) : Dev :=
  let g := getRegion d q (fld (getR d .drv q 0x4) 0 8)
  let slot (k : Nat) : Nat := 8 * (g.base + k * g.slot)
  let d1 := match (List.range g.n).find? (fun k => spadPeek d q (slot k) 64 == old) with
    | some k => spadWrite { req := 132 } q (slot k) new d
    | none => d
  let inFrame (f : TxFrame) : TxFrame := if f.record == some old then { f with record := some new } else f
  let inFlit (b : FlitBody) : FlitBody := if b.typ == 5 && b.body.drop 2 == old then { b with body := b.body.take 2 ++ new } else b
  { d1 with tx := d1.tx.map (fun e => (e.1, { e.2 with frames := e.2.frames.map inFrame }))
            peer := { d1.peer with links := d1.peer.links.map (fun e => (e.1, { e.2 with queue := e.2.queue.map inFlit })) } }

/-- The copies of reason 7 made of an instance in the DT in which it is sealed VOID are the VOID record instead, and none is counted (R343). -/
def unshed (i : InstRef) (o : Outcome) (d : Dev) : Dev :=
  let copy (x : Outcome) : Bool := x.reason == 7 && x.stream == o.stream && x.index == o.index && x.done == d.dt + 2
  match instFlock d i with
  | none => d
  | some (fi, _) =>
    let l := d.outcomes.filter copy
    guardDev (o.kind == 2 && !l.isEmpty) (fun d =>
      addCnt .flk (256 * i.q + fi) 0x10 (2 ^ 48 - l.length)
        (l.foldl (fun d x => replaceRecord i.q (outcomeBytes x) (outcomeBytes o) d) { d with outcomes := d.outcomes.filter (fun x => !copy x) })) d

/-- A record of an instance sealed and published (R187, R192): written to the outcome region, queued to the flock, and kept in
the history of records; the instance is live no more. -/
def publish (i : InstRef) (o : Outcome) (d : Dev) : Dev :=
  let bytes := outcomeBytes o
  let d1 := queueToFlock i bytes (o.kind != 1) (writeOutcome i.q bytes (unshed i o d))
  let d2 := updCtx i.q i.ctx (fun c => { c with live := false, wait := .run }) { d1 with outcomes := d1.outcomes ++ [o] }
  checkReleases (releaseCtx i.q i.ctx (sampleDrop i.q 2 i.serial 0 0 d2))

/-- The stop that a void sends to a unit (R194); a post has no unit to stop. -/
def stopUnit (i : InstRef) (u : UnitRef) (d : Dev) : Dev :=
  match u.kind with
  | .engine => sendStop { kind := .engine, unit := u.idx, inst := i } d
  | .me => sendStop { kind := .me, unit := u.idx, inst := i } d
  | .fold => sendStop { kind := .fold, unit := u.idx, inst := i } d
  | .dma => sendStop { kind := .dma, unit := u.idx, inst := i } d
  | .post => d

/-- The INSTANCE_VOID event of an instance, for a quadrant (R194, R314). -/
def voidEvent (d : Dev) (q : Nat) (i : InstRef) : Event :=
  let c := getCtx d i.q i.ctx
  { typedEvent d q 0x0B (c.stream + 256 * i.ctx + 2 ^ 14 * i.q) with dl32 := c.dl % 2 ^ 32 }

/-- The notice of a void to a Shepherd (R194, R324): INSTANCE_VOID is posted where the instance posted. -/
def stopShepherd (i : InstRef) (q : Nat) (d : Dev) : Dev :=
  let c := getCtx d i.q i.ctx
  sendStop { kind := .shepherd, unit := q, inst := i, dl := c.dl,
             event := if c.posted.contains q then some (voidEvent d q i) else none } d

/-- Every grant of an instance withdrawn (R194). -/
def withdrawGrants (i : InstRef) (d : Dev) : Dev :=
  let c := getCtx d i.q i.ctx
  c.granted.foldl (fun d t =>
    match c.units.find? (fun u => u.tag == t && u.kind == .engine) with
    | some u => pmuUc i.q 556 1 (sendGrant { unit := u.idx, inst := i, tag := t, tstop := 0 } d)
    | none => d) (updCtx i.q i.ctx (fun c => { c with granted := [] }) d)

/-- VOID sealed at a DT with a reason and done time (R187, R189, R194, R296): units are stopped, grants withdrawn, result
frames closed with the record, Shepherds and the job's other modules told. -/
def sealVoid (i : InstRef) (reason done : Nat) (remote : Bool) (d : Dev) : Dev :=
  let fl := (if remote then 2 ^ 13 else 0) + (if frameOpen d i then 2 ^ 12 else 0)
  let o := ctxOutcome (updCtx i.q i.ctx (fun c => { c with flags := c.flags ||| fl }) d) i 2 reason done
  let d1 := updCtx i.q i.ctx (fun c => { c with flags := c.flags ||| fl, sealed := some o }) d
  let d2 := (getCtx d1 i.q i.ctx).units.foldl (fun d u => stopUnit i u d) (withdrawGrants i d1)
  let d3 := stopShepherd i 3 (stopShepherd i 2 (stopShepherd i 1 (stopShepherd i 0 d2)))
  let d4 := noteEnded o.stream o.index (dropFrame o.stream o.index (publish i o (addCnt .drv i.q 0x2C 1 d3)))
  guardDev (reason != 6) (sendAborts o.gen o.gid o.stream o.index) d4

/-- The rank of void causes stamped in one DT (R193): 10, then 9, then the others ascending. -/
def causeRank (reason : Nat) : Nat := if reason = 10 then 0 else if reason = 9 then 1 else reason + 2

/-- The record with another cause (R190, R193). -/
def withCause (reason : Nat) (remote : Bool) (o : Outcome) : Outcome :=
  { o with reason := reason, flags := (if bit o.flags 13 then o.flags - 2 ^ 13 else o.flags) + (if remote then 2 ^ 13 else 0) }

/-- A cause of the DT in which the instance was sealed VOID, and of a higher rank, is the cause in its record (R193), which by then need
not have left (R187). (DEDUCED, log 50.) -/
def reseal (reason : Nat) (remote : Bool) (i : InstRef) (d : Dev) : Dev :=
  let c := getCtx d i.q i.ctx
  match c.sealed with
  | none => d
  | some o =>
    if c.serial ≠ i.serial ∨ o.done ≠ d.dt + 2 ∨ o.reason = 1 ∨ causeRank o.reason ≤ causeRank reason then d
    else
      let n := withCause reason remote o
      replaceRecord i.q (outcomeBytes o) (outcomeBytes n)
        (updCtx i.q i.ctx (fun c => { c with sealed := some n })
          { d with outcomes := d.outcomes.map (fun x => if x == o then n else x) })

/-- A void cause reaches the home Drover (R193-R195): a live instance ends with VOID and the reason; at or after deadline - 2
it is void with reason 1, done at its deadline. (DEDUCED, log 50.) -/
def voidInst (reason : Nat) (remote : Bool) (i : InstRef) (d : Dev) : Dev :=
  if !instLive d i then reseal reason remote i d
  else
    let c := getCtx d i.q i.ctx
    if c.dl ≤ d.dt + 2 then sealVoid i 1 c.dl false (addCnt .drv i.q 0x38 1 d) else sealVoid i reason (d.dt + 2) remote d

/-- The instances that a cause can reach: the live ones, and those sealed VOID in this DT (R193). -/
def voidable (d : Dev) : List InstRef :=
  (d.ctxs.filter (fun e => e.2.live || (match e.2.sealed with
    | some o => o.done == d.dt + 2
    | none => false))).map (fun e => ⟨e.1 / 64, e.1 % 64, e.2.serial⟩)

/-- Every instance that passes a test voided with a reason that arises on the hub, in order of quadrant and context. (DEDUCED, log 133.) -/
def voidAll (reason : Nat) (p : Dev → InstRef → Bool) (d : Dev) : Dev :=
  ((voidable d).filter (p d)).foldl (fun d i => voidInst reason true i d) d

/-- RESULT sealed (R187-R189). -/
def sealResult (i : InstRef) (graphFlags : Nat) (d : Dev) : Dev :=
  let d1 := updCtx i.q i.ctx (fun c => { c with flags := c.flags ||| 2 ^ 14 * (graphFlags % 4) }) d
  let c := getCtx d1 i.q i.ctx
  let o := { ctxOutcome d1 i 1 0 (d.dt + 2) with coarse := c.coarse, refined := c.refined }
  publish i o (drvComplete i 0 (addCnt .drv i.q 0x28 1 d1))

/-- The short frame of a REFUSED record on a result stream: Frame Start, header, record, Frame End (R337). -/
def queueShort (e : TxEntry) (c : DrvCtx) (epoch : Nat) (es : List TxEntry) (bytes : List Byte) (d : Dev) : Dev :=
  let fr : TxFrame :=
    { vc := e.vc, inst := none, frameNo := txFrameNo c.index, dl := c.dl, closed := true, record := some bytes
      header := resultHeader d c epoch ((streamParts es e.port e.vc).map (·.part)) }
  updTx e.port (fun t => { t with frames := t.frames ++ [fr] }) d

/-- One entry for each result stream, the first. -/
def firstOfStream : List TxEntry → List TxEntry
  | [] => []
  | e :: r => e :: (firstOfStream r).filter (fun x => x.port != e.port || x.vc != e.vc)

/-- A REFUSED record sealed (R189, R192, R197) by a quadrant's Drover: it goes to the region and to the flock of the test's
graph, and opens no instance. -/
def sealRefused (q : Nat) (n : FsNotice) (reason sub extra bound : Nat) (g : Option Graph) (d : Dev) : Dev :=
  let p := planeOf d n.plane
  let gen := if p.loaded then p.gen else 0
  let epoch := mapGet 0 n.stream d.epochs
  let o : Outcome :=
    { kind := 3, stream := n.stream, index := n.index, fs := n.fs, deadline := n.fs + bound, done := d.dt + 2,
      gid := if reason = 33 then 0xFFFF else n.gid, epoch := epoch, gen := gen, reason := reason, flags := 256 * sub,
      extra := extra, coarse := 0, refined := 0, digest := 0 }
  let bytes := outcomeBytes o
  let d0 := noteEnded n.stream n.index (dropFrame n.stream n.index
    (writeOutcome q bytes (addCnt .drv q 0x24 1 { d with outcomes := d.outcomes ++ [o] })))
  let d1 := guardDev n.hasGraph (sendAborts gen n.gid n.stream n.index) d0
  match g with
  | none => d1
  | some g =>
    match graphFlock p.sections g with
    | none => d1
    | some (_, f) =>
      let es := txMap p.sections
      let c : DrvCtx := { stream := n.stream, index := n.index, fs := n.fs, dl := n.fs + bound, gid := n.gid, gen := gen }
      let chs := f.recvs.filterMap (recvChannel q)
      let wins := (chs.filter (fun ch => fld (chEnds d ch) 16 3 == 2)).map (fun ch => fld (chEnds d ch) 24 6)
      let ports := firstOfStream ((chs.filter (fun ch => fld (chEnds d ch) 16 3 != 2)).filterMap (fun ch =>
        es.find? (fun e => e.ch == ch)))
      ports.foldl (fun d e => queueShort e c epoch es bytes d)
        (wins.foldl (fun d w => queueWinRecord w none bytes d) d1)

end Sys2Proof.Machine
end

