-- ==== Sys2Proof/Machine/Signature.lean ====
section
/-! DEFINITION. The two signature forms of R414. The rule names RFC 8017 and FIPS 205 and does not repeat them: what follows is those
standards' verification (PRESUMED from them, log 105), with SHA-256 (FIPS 180-4) for SLH-DSA-SHA2-128s. -/

namespace Sys2Proof.Machine

/-! ### SHA-256 -/

/-- Round constants 0 to 31 of SHA-256. -/
def sha256K0 : List W32 :=
  [0x428a2f98#32, 0x71374491#32, 0xb5c0fbcf#32, 0xe9b5dba5#32, 0x3956c25b#32, 0x59f111f1#32, 0x923f82a4#32, 0xab1c5ed5#32,
   0xd807aa98#32, 0x12835b01#32, 0x243185be#32, 0x550c7dc3#32, 0x72be5d74#32, 0x80deb1fe#32, 0x9bdc06a7#32, 0xc19bf174#32,
   0xe49b69c1#32, 0xefbe4786#32, 0x0fc19dc6#32, 0x240ca1cc#32, 0x2de92c6f#32, 0x4a7484aa#32, 0x5cb0a9dc#32, 0x76f988da#32,
   0x983e5152#32, 0xa831c66d#32, 0xb00327c8#32, 0xbf597fc7#32, 0xc6e00bf3#32, 0xd5a79147#32, 0x06ca6351#32, 0x14292967#32]

/-- Round constants 32 to 63 of SHA-256. -/
def sha256K1 : List W32 :=
  [0x27b70a85#32, 0x2e1b2138#32, 0x4d2c6dfc#32, 0x53380d13#32, 0x650a7354#32, 0x766a0abb#32, 0x81c2c92e#32, 0x92722c85#32,
   0xa2bfe8a1#32, 0xa81a664b#32, 0xc24b8b70#32, 0xc76c51a3#32, 0xd192e819#32, 0xd6990624#32, 0xf40e3585#32, 0x106aa070#32,
   0x19a4c116#32, 0x1e376c08#32, 0x2748774c#32, 0x34b0bcb5#32, 0x391c0cb3#32, 0x4ed8aa4a#32, 0x5b9cca4f#32, 0x682e6ff3#32,
   0x748f82ee#32, 0x78a5636f#32, 0x84c87814#32, 0x8cc70208#32, 0x90befffa#32, 0xa4506ceb#32, 0xbef9a3f7#32, 0xc67178f2#32]

/-- The initial hash value of SHA-256. -/
def sha256Init : List W32 :=
  [0x6a09e667#32, 0xbb67ae85#32, 0x3c6ef372#32, 0xa54ff53a#32, 0x510e527f#32, 0x9b05688c#32, 0x1f83d9ab#32, 0x5be0cd19#32]

/-- The padding of SHA-256 for a message of n bytes. -/
def sha256Pad (n : Nat) : List Byte :=
  0x80#8 :: (List.replicate ((119 - n % 64) % 64) 0#8 ++ beBytes 8 (8 * n))

/-- The message schedule of SHA-256, newest word first. -/
def sha256Expand : Nat → List W32 → List W32
  | 0, w => w
  | n + 1, w =>
    let a := w.getD 14 0#32
    let e := w.getD 1 0#32
    let s0 := a.rotateRight 7 ^^^ a.rotateRight 18 ^^^ (a >>> 3)
    let s1 := e.rotateRight 17 ^^^ e.rotateRight 19 ^^^ (e >>> 10)
    sha256Expand n ((w.getD 15 0#32 + s0 + w.getD 6 0#32 + s1) :: w)

/-- One round of SHA-256 on the eight working words. -/
def sha256Round (v : List W32) (kw : W32) : List W32 :=
  match v with
  | [a, b, c, d, e, f, g, h] =>
    let t1 := h + (e.rotateRight 6 ^^^ e.rotateRight 11 ^^^ e.rotateRight 25)
      + ((e &&& f) ^^^ (~~~e &&& g)) + kw
    let t2 := (a.rotateRight 2 ^^^ a.rotateRight 13 ^^^ a.rotateRight 22)
      + ((a &&& b) ^^^ (a &&& c) ^^^ (b &&& c))
    [t1 + t2, a, b, c, d + t1, e, f, g]
  | _ => v

/-- One 64-byte block into the SHA-256 state. -/
def sha256Block (h : List W32) (blk : List Byte) : List W32 :=
  let w := (sha256Expand 48 ((chunks 4 16 blk).map (fun b => (beWord b).setWidth 32)).reverse).reverse
  let v := (List.zipWith (· + ·) (sha256K0 ++ sha256K1) w).foldl sha256Round h
  List.zipWith (· + ·) h v

/-- SHA-256 of a byte string, 32 bytes in digest order. -/
def sha256 (m : List Byte) : List Byte :=
  let p := m ++ sha256Pad m.length
  ((chunks 64 (p.length / 64) p).foldl sha256Block sha256Init).flatMap (fun w => beBytes 4 w.toNat)

/-- MGF1 (RFC 8017): the first len bytes of the digests of a seed followed by a 32-bit counter, for a hash of hlen bytes. -/
def mgf1 (hash : List Byte → List Byte) (hlen : Nat) (seed : List Byte) (len : Nat) : List Byte :=
  ((List.range ((len + hlen - 1) / hlen)).flatMap (fun c => hash (seed ++ beBytes 4 c))).take len

/-- A byte string as a big-endian number. -/
def beNat (bs : List Byte) : Nat := bs.foldl (fun a b => 256 * a + b.toNat) 0

/-! ### RSASSA-PSS with a 3,072-bit modulus (R414) -/

/-- b to the power e modulo n, for an exponent of at most k bits: the bits of the exponent from the least significant on. -/
def powMod (n : Nat) : Nat → Nat → Nat → Nat
  | 0, _, _ => 1 % n
  | k + 1, b, e => (if e % 2 = 1 then b else 1) * powMod n k (b * b % n) (e / 2) % n

/-- EMSA-PSS verification of a 384-byte encoded message against a message: SHA-384, MGF1 with SHA-384, a 48-byte salt, 3,071
bits. -/
def pssEncodes (em message : List Byte) : Bool :=
  let masked := em.take 335
  let h := (em.drop 335).take 48
  let db := List.zipWith (· ^^^ ·) masked (mgf1 sha384 48 h 335)
  let pad := ((db.take 1).map (· &&& 0x7F#8) ++ db.drop 1).take 287
  em.drop 383 == [0xBC#8] && (masked.headD 0x80#8).toNat < 128
    && pad == List.replicate 286 0#8 ++ [0x01#8]
    && h == sha384 (List.replicate 8 0#8 ++ sha384 message ++ db.drop 287)

/-- The RSA signature, the first 384 bytes of a signature block, verifies under a key part: modulus big-endian, then the u32
exponent (R414, R415). (PRESUMED, log 105.) -/
def rsaVerifies (key message block : List Byte) : Bool :=
  let n := beNat (key.take 384)
  let e := leNat ((key.drop 384).take 4)
  let s := beNat (block.take 384)
  decide (s < n) && pssEncodes (beBytes 384 (powMod n 32 s e)) message

/-! ### SLH-DSA-SHA2-128s (R414): n 16, height 63 in 7 layers of 9, 14 FORS trees of height 12, Winternitz 16 -/

/-- A compressed hash address: layer, tree, type, and three words. -/
def slhAddr (layer tree type kp x y : Nat) : List Byte :=
  beBytes 1 layer ++ beBytes 8 tree ++ beBytes 1 type ++ beBytes 4 kp ++ beBytes 4 x ++ beBytes 4 y

/-- F, H and T of the parameter set: SHA-256 over the padded public seed, the address and the input, cut to 16 bytes. -/
def slhHash (seed addr m : List Byte) : List Byte := (sha256 (seed ++ List.replicate 48 0#8 ++ addr ++ m)).take 16

/-- The count digits of b bits of a byte string, most significant first. -/
def slhDigits (x : List Byte) (b count : Nat) : List Nat :=
  (List.range count).map (fun i => beNat x / 2 ^ (8 * x.length - b * (i + 1)) % 2 ^ b)

/-- Hash addresses i to i + s - 1 of a Winternitz chain. -/
def slhChain (seed : List Byte) (layer tree kp chain : Nat) : Nat → Nat → List Byte → List Byte
  | 0, _, x => x
  | s + 1, i, x => slhChain seed layer tree kp chain s (i + 1) (slhHash seed (slhAddr layer tree 0 kp chain i) x)

/-- The root that an authentication path gives: node with an index at a height, the path's nodes upward. -/
def slhClimb (seed : List Byte) (layer tree type kp : Nat) : List (List Byte) → Nat → Nat → List Byte → List Byte
  | [], _, _, node => node
  | a :: rest, height, index, node =>
    let addr := slhAddr layer tree type kp (height + 1) (index / 2)
    slhClimb seed layer tree type kp rest (height + 1) (index / 2)
      (slhHash seed addr (if index % 2 = 0 then node ++ a else a ++ node))

/-- The Winternitz public key that a signature of 35 chains gives for a 16-byte message. -/
def slhWots (seed : List Byte) (layer tree kp : Nat) (sig m : List Byte) : List Byte :=
  let d := slhDigits m 4 32
  let sum := 16 * (d.foldl (fun a x => a + (15 - x)) 0)
  let digits := d ++ slhDigits (beBytes 2 sum) 4 3
  let ends := (List.range 35).map (fun i =>
    let x := digits.getD i 0
    slhChain seed layer tree kp i (15 - x) x ((sig.drop (16 * i)).take 16))
  slhHash seed (slhAddr layer tree 1 kp 0 0) ends.flatten

/-- The root of the tree of one layer: 35 chains, then a path of 9 nodes. -/
def slhXmss (seed : List Byte) (layer tree leaf : Nat) (sig m : List Byte) : List Byte :=
  slhClimb seed layer tree 2 0 (chunks 16 9 ((sig.drop 560).take 144)) 0 leaf (slhWots seed layer tree leaf sig m)

/-- The root of the hypertree, layer by layer: 704 signature bytes each. -/
def slhHyper (seed : List Byte) : Nat → Nat → Nat → Nat → List Byte → List Byte → List Byte
  | 0, _, _, _, _, node => node
  | n + 1, layer, tree, leaf, sig, node =>
    slhHyper seed n (layer + 1) (tree / 512) (tree % 512) (sig.drop 704) (slhXmss seed layer tree leaf sig node)

/-- The FORS public key that a signature of 14 trees gives for a 21-byte digest. -/
def slhFors (seed : List Byte) (tree kp : Nat) (sig md : List Byte) : List Byte :=
  let digits := slhDigits md 12 14
  let roots := (List.range 14).map (fun i =>
    let part := (sig.drop (208 * i)).take 208
    let index := 4096 * i + digits.getD i 0
    slhClimb seed 0 tree 3 kp (chunks 16 12 (part.drop 16)) 0 index
      (slhHash seed (slhAddr 0 tree 3 kp 0 index) (part.take 16)))
  slhHash seed (slhAddr 0 tree 4 kp 0 0) roots.flatten

/-- The SLH-DSA signature, the 7,856 bytes of a signature block after the RSA signature, verifies under a 32-byte key (seed, then
root): pure mode, empty context string (R414). (PRESUMED, log 105.) -/
def slhVerifies (key message block : List Byte) : Bool :=
  let sig := (block.drop 384).take 7856
  let seed := key.take 16
  let root := (key.drop 16).take 16
  let r := sig.take 16
  let digest := mgf1 sha256 32 (r ++ seed ++ sha256 (r ++ key.take 32 ++ [0#8, 0#8] ++ message)) 30
  let tree := beNat ((digest.drop 21).take 7) % 2 ^ 54
  let leaf := beNat ((digest.drop 28).take 2) % 512
  let fors := slhFors seed tree leaf ((sig.drop 16).take 2912) (digest.take 21)
  sig.length == 7856 && slhHyper seed 7 0 tree leaf (sig.drop 2928) fors == root

end Sys2Proof.Machine
end

