-- ==== Sys2Proof/Machine/Keys.lean ====
section
/-! DEFINITION. The fuse array's fields (R411), key slots and signed objects (R414-R416). -/

namespace Sys2Proof.Machine

/-- A byte of the fuse array. -/
def fuseByte (f : FuseSt) (i : Nat) : Byte := mapGet 0#8 i f.bytes

/-- Bytes of the fuse array. -/
def fuseBytes (f : FuseSt) (off len : Nat) : List Byte := (List.range len).map (fun i => fuseByte f (off + i))

/-- A fuse field as a number (R5). -/
def fuseNum (f : FuseSt) (off len : Nat) : Nat := leNat (fuseBytes f off len)

/-- A fuse bit programmed: it can only become 1 (R411). -/
def fuseSet (i : Nat) (f : FuseSt) : FuseSt :=
  { f with bytes := mapUpd 0#8 (i / 8) (fun b => b ||| BitVec.ofNat 8 (2 ^ (i % 8))) f.bytes }

def fusePid (f : FuseSt) : Nat := fuseNum f 0 6
def fuseTrim (f : FuseSt) : Nat := fuseNum f 6 2 % 1024
def fuseVset (f : FuseSt) (q : Nat) : Nat := fuseNum f (8 + 2 * q) 2
def fuseKeyRevoke (f : FuseSt) : Nat := fuseNum f 0x1C0 1
def fuseLocked (f : FuseSt) : Bool := bit (fuseNum f 0x1C1 1) 0
def fuseSealed (f : FuseSt) : Bool := bit (fuseNum f 0x1C1 1) 1
def fuseProvisioned (f : FuseSt) : Bool := bit (fuseNum f 0x1C2 1) 0
def fuseWarrantRevoke (f : FuseSt) : Nat := fuseNum f 0x1C4 2
def fuseInstallId (f : FuseSt) : Nat := fuseNum f 0x1C8 8
/-- The anti-rollback count: the number of thermometer bits set (R411). -/
def fuseRollback (f : FuseSt) : Nat := popCount 63 (fuseNum f 0x1D0 8)
def warrantBase (w : Nat) : Nat := 0x200 + 48 * w
def warrantMask (f : FuseSt) (w : Nat) : Nat := fuseNum f (warrantBase w + 6) 1
def warrantKey (f : FuseSt) (w : Nat) : List Byte := fuseBytes f (warrantBase w + 16) 32
/-- The warrant is programmed and not revoked (R363, R412). -/
def warrantUsable (f : FuseSt) (w : Nat) : Bool :=
  bit (fuseNum f (warrantBase w + 7) 1) 0 && !bit (fuseWarrantRevoke f) w

/-- Key block entry s of a firmware (R415). -/
def keyEntry (fw : List Byte) (s : Nat) : List Byte := (fw.drop (0x20 + 512 * s)).take 512
def keyRsa (fw : List Byte) (s : Nat) : List Byte := (keyEntry fw s).take 388
def keySlh (fw : List Byte) (s : Nat) : List Byte := ((keyEntry fw s).drop 388).take 32

/-- Slot s of a firmware's key block is usable (R414). -/
def keyUsable (f : FuseSt) (fw : List Byte) (s : Nat) : Bool :=
  let h := fuseBytes f (0x40 + 96 * s) 96
  h.any (· != 0#8) && !bit (fuseKeyRevoke f) s && sha384 (keyRsa fw s) == h.take 48 && sha384 (keySlh fw s) == h.drop 48

/-- The usable slots of a firmware's key block. -/
def usableSlots (f : FuseSt) (fw : List Byte) : List Nat := [0, 1, 2, 3].filter (keyUsable f fw)

/-- Length of a signature block (R33). -/
def sigBlock : Nat := 8240

/-- The signed bytes of an object of a length: bytes 0 to length - 8,241 (R42, R415). -/
def signedBytes (obj : List Byte) (len : Nat) : List Byte := obj.take (len - sigBlock)

/-- The measurement of a firmware or image (R415). -/
def measurement (obj : List Byte) (len : Nat) : List Byte := sha384 (signedBytes obj len)

/-- What both signatures of an object give under the usable slots of a key block (R414): no slot verifies RSA, none verifies
SLH-DSA, and the lowest slot that verifies both. (PRESUMED, log 105.) -/
def checkSignatures (f : FuseSt) (fw obj : List Byte) (len : Nat) : Bool × Bool × Option Nat :=
  let msg := signedBytes obj len
  let blk := (obj.drop (len - sigBlock)).take sigBlock
  let rsa := (usableSlots f fw).filter (fun s => rsaVerifies (keyRsa fw s) msg blk)
  let slh := (usableSlots f fw).filter (fun s => slhVerifies (keySlh fw s) msg blk)
  (rsa.isEmpty, slh.isEmpty, rsa.find? (fun s => slh.contains s))

/-- The firmware that runs, empty when none does (R417). -/
def runningFw (d : Dev) : List Byte :=
  match d.sec.running with
  | some b => d.sec.banks.getD b []
  | none => []

end Sys2Proof.Machine
end

