-- ==== Sys2Proof/Machine/Page.lean ====
section
/-! DEFINITION. The page table's entries and the faults of a translation (R24, R25, R242, R243). -/

namespace Sys2Proof.Machine

/-- Physical address of the page-table entry of a page index (R242). -/
def pteAddr (i : Nat) : Nat := 0xED8000000 + 8 * i

/-- The page-table entry of a page index, as DRAM holds it. -/
def pteAt (d : Dev) (i : Nat) : Nat := leNat (dramPeek d (pteAddr (i % 2 ^ 24)) 8)

/-- What an access wants of its page (R242). -/
inductive PageUse where
  | read | write | fetch
  /-- Installation writes whatever the WR bits of the pages (R43). -/
  | install
  deriving DecidableEq, Repr

/-- A physical address lies where no access may go: the ECC range, a staging buffer or the page table (R243 cause 5). -/
def paForbidden (pa : Nat) : Bool :=
  let o := pa % 2 ^ 36
  0xF00000000 ≤ o || (pa < 2 ^ 36 && 0xED8000000 ≤ o)

/-- The physical page that an entry names (R242). -/
def ptePage (e : Nat) : Nat := bits e 14 24 * 16384

/-- The causes that an entry gives an access, from the lowest (R243); 0 for none. Cause 1 is the address's own. -/
def pteCause (e : Nat) (u : PageUse) : Nat :=
  if !bit e 0 then 2
  else
    let lacks := match u with
      | .read => !bit e 1
      | .write => !bit e 2
      | .fetch => !bit e 3
      | .install => false
    if lacks then 3
    else if bits e 4 10 ≠ 0 ∨ bits e 38 26 ≠ 0 then 4
    else if paForbidden (ptePage e) then 5
    else 0

/-- The cause of a DVA's fault under an entry (R24, R243). -/
def dvaCause (dva e : Nat) (u : PageUse) : Nat := if dva / 2 ^ 38 ≠ 0 then 1 else pteCause e u

/-- Page index of a DVA (R24). -/
def pageOf (dva : Nat) : Nat := bits dva 14 24

/-- Physical address of a DVA under an entry (R242). -/
def paOf (dva e : Nat) : Nat := ptePage e + dva % 16384

/-- The pages that a DVA range touches, each by the first address in the range. -/
def dvaPages (dva len : Nat) : List Nat :=
  if len = 0 then []
  else (List.range ((dva + len - 1) / 16384 - dva / 16384 + 1)).map (fun k => if k = 0 then dva else (dva / 16384 + k) * 16384)

/-- The first fault of a DVA range: its cause and address (R243). -/
def dvaFault (d : Dev) (dva len : Nat) (u : PageUse) : Option (Nat × Nat) :=
  (dvaPages dva len).findSome? (fun a =>
    let c := dvaCause a (pteAt d (pageOf a)) u
    if c = 0 then none else some (c, a))

/-- Physical address of a DVA under the page table as it stands. -/
def dvaPa (d : Dev) (dva : Nat) : Nat := paOf dva (pteAt d (pageOf dva))

/-- Bytes of a DVA range under a translation, and under the page table as it stands. -/
def peekVia (d : Dev) (pa : Nat → Nat) (dva len : Nat) : List Byte := (List.range len).map (fun i => dramByte d (pa (dva + i)))
def dvaPeek (d : Dev) (dva len : Nat) : List Byte := peekVia d (dvaPa d) dva len

/-- Some 32-byte block of a DVA range is uncorrectable (R247). -/
def dvaBad (d : Dev) (dva len : Nat) : Bool :=
  len != 0 && (List.range ((dva + len - 1) / 32 - dva / 32 + 1)).any (fun k =>
    2 ≤ mapGet 0 (dvaPa d ((dva / 32 + k) * 32) / 32) d.mem.dramBad)

/-- Bytes written to consecutive DVAs under a translation. -/
def writeVia (pa : Nat → Nat) : Nat → List Byte → Dev → Dev
  | _, [], d => d
  | a, b :: r, d => writeVia pa (a + 1) r (dramWrite (pa a) [b] d)

/-- Bytes written to consecutive DVAs through the page table as it stands. -/
def writeDva : Nat → List Byte → Dev → Dev
  | _, [], d => d
  | a, b :: r, d => writeDva (a + 1) r (dramWrite (dvaPa d a) [b] d)

/-- Bytes that the hub writes to DRAM, over the link of the quadrant where they lie (R29, R435). -/
def hubWriteDva (dva : Nat) (bs : List Byte) (d : Dev) : Dev := writeDva dva bs (bytesTo (dvaPa d dva / 2 ^ 36 % 4) bs.length d)

/-- A page fault recorded in a quadrant's XLT block (R251). -/
def noteFault (q dva cause source : Nat) (d : Dev) : Dev :=
  orR .xlt q 0x30 1 (setR .xlt q 0x28 (cause + 256 * source) (setPair .xlt q 0x20 0x24 dva (addCnt .xlt q 0x4C 1 d)))

/-- An uncorrectable DRAM block recorded at its memory controller (R247, R366). -/
def noteDramUe (pa : Nat) (d : Dev) : Dev :=
  let q := pa / 2 ^ 36 % 4
  evsum 7 (orR .memc q 4 2 (setPair .memc q 0x10 0x14 (pa % 2 ^ 36 / 32 * 32) (addCnt .memc q 0xC4 1 d)))

end Sys2Proof.Machine
end

