-- ==== Sys2Proof/Machine/Validate.lean ====
section
/-! DEFINITION. Validation of an image (R42): layout (R33-R36), reserved bytes (R7), entry rules of each section kind (R36-R38,
R84, R97, R173-R175, R182, R183, R186, R208, R213-R215, R326, R331, R338, R431), the sharing rules against the plane in use
(R39, R97, R215, R331), the salt and the page-table seed (R43, R44). -/

namespace Sys2Proof.Machine

/-- The outcome of a validation: code 0 for success, the section table entry at fault or 0xFF, the two signature results and
the key slot that verified (R42, R414). -/
structure Verdict where
  code : Nat := 0
  sect : Nat := 0xFF
  sigRsa : Bool := false
  sigSlh : Bool := false
  slot : Nat := 0xFF
  deriving DecidableEq, Repr

/-- A section table entry (R35). -/
structure SectHdr where
  kind : Nat
  scope : Nat
  off : Nat
  len : Nat
  crc : Nat
  deriving DecidableEq, Repr

def imageLen (img : List Byte) : Nat := field img 0x10 8
def sectCount (img : List Byte) : Nat := field img 0x22 2

/-- The used entries of the section table (R34, R35). -/
def sectHdrs (img : List Byte) : List SectHdr :=
  (List.range (sectCount img)).map (fun i =>
    let e := (img.drop (0x100 + 16 * i)).take 16
    { kind := field e 0 2, scope := byteAt e 2, off := field e 4 4, len := field e 8 4, crc := field e 0xC 4 })

/-- The bytes of a section. -/
def sectData (img : List Byte) (h : SectHdr) : List Byte := (img.drop h.off).take h.len

/-- The sections of an image, in table order. -/
def imageSects (img : List Byte) : List Sect :=
  (sectHdrs img).map (fun h => { kind := h.kind, scope := h.scope, data := sectData img h })

/-- Every byte of a range is zero. -/
def zeroRange (bs : List Byte) (off len : Nat) : Bool := ((bs.drop off).take len).all (· == 0#8)

/-- Every byte of each range of each entry is zero. -/
def zeroIn (entries : List (List Byte)) (ranges : List (Nat × Nat)) : Bool :=
  entries.all (fun e => ranges.all (fun r => zeroRange e r.1 r.2))

/-- The entries of a table. -/
def entriesOf (size : Nat) (bs : List Byte) : List (List Byte) := chunks size (bs.length / size) bs

/-- A kind is hub-wide, or per quadrant (R36); none for other kind codes. -/
def kindIsHub : Nat → Option Bool
  | 1 => some true
  | 2 => some true
  | 0xB => some true
  | 0xC => some true
  | 0x10 => some true
  | k => if 3 ≤ k ∧ k ≤ 0xF then some false else none

/-! ### Step 8: the section table (R33, R35, R36) -/

/-- Section i of the table keeps the layout rules, the sections before it being given. -/
def sectLayoutOk (img : List Byte) (before : List SectHdr) (h : SectHdr) : Bool :=
  (match kindIsHub h.kind with
    | some true => h.scope == 0xFF
    | some false => decide (h.scope < 4)
    | none => false)
  && h.off % 256 == 0 && decide (0x1000 ≤ h.off) && decide (h.off + h.len + sigBlock ≤ imageLen img)
  && before.all (fun o => h.off + h.len ≤ o.off || o.off + o.len ≤ h.off)
  && (h.kind == 9 || h.kind == 0xA || before.all (fun o => !(o.kind == h.kind && o.scope == h.scope)))
  && (crc32 (sectData img h)).toNat == h.crc

/-- The first section that breaks the layout rules. -/
def layoutFault (img : List Byte) (i : Nat) (before : List SectHdr) : List SectHdr → Option Nat
  | [] => none
  | h :: r => if sectLayoutOk img before h then layoutFault img (i + 1) (before ++ [h]) r else some i

/-- Bytes outside the sections, between the header and the signature block, that are not zero (R33). -/
def gapByte (hs : List SectHdr) : Nat → List Byte → Bool
  | _, [] => false
  | o, b :: r => (b != 0#8 && !(hs.any (fun h => h.off ≤ o && o < h.off + h.len))) || gapByte hs (o + 1) r

/-- Step 8: the entry at fault, 0xFF for a fault outside every section, none when it passes. (DEDUCED, log 20.) -/
def step8 (img : List Byte) : Option Nat :=
  let n := sectCount img
  if n < 1 ∨ 240 < n then some 0xFF
  else
    match layoutFault img 0 [] (sectHdrs img) with
    | some i => some i
    | none =>
      if gapByte (sectHdrs img) 0x1000 ((img.drop 0x1000).take (imageLen img - sigBlock - 0x1000)) then some 0xFF else none

/-! ### Step 9: reserved bytes (R7) -/

/-- The reserved bytes of a section are zero. -/
def sectReservedOk (s : Sect) : Bool :=
  let es (n : Nat) := entriesOf n s.data
  match s.kind with
  | 1 => zeroIn (es 16) [(6, 2), (9, 3)]
  | 2 => zeroIn (es 64) [(5, 3), (0xF, 1), (0x13, 1), (0x17, 1), (0x1B, 1), (0x1F, 1), (0x24, 28)]
  | 3 => zeroIn (es 64) [(0x19, 1), (0x24, 28)]
  | 4 => (es 32).all (fun e => zeroRange e 2 2 && zeroRange e 0x10 16
      && (byteAt e 0 != 0 || (zeroRange e 1 1 && zeroRange e 0xC 4)) && (byteAt e 0 != 2 || zeroRange e 8 8))
  | 5 => zeroIn [s.data] [] && (foldRecs 17 s.data).all (fun r => (r.pro ++ r.body ++ r.epi).all (fun e => zeroRange e 0xC 4))
      && foldHdrReserved 17 s.data
  | 6 => zeroIn (es 16) [(3, 1), (0xC, 4)]
  | 8 => zeroRange s.data 3 1 && zeroRange s.data 7 1 && zeroRange s.data 8 8 && zeroRange s.data 0x1C 4
      && (List.range 8).all (fun c => zeroRange s.data (0x60 + 16 * c + 9) 1 && zeroRange s.data (0x60 + 16 * c + 12) 4)
      && zeroRange s.data 0xE0 32 && zeroRange s.data 0x500 2816
  | 9 => zeroRange s.data 8 8
  | 0xA => zeroRange s.data 8 8
  | 0xC => zeroIn (es 32) [(0x15, 3), (0x1C, 4)]
  | 0xD => (es 32).all (fun e => zeroRange e 0x1C 4 && (List.range 12).all (fun i => i < byteAt e 3 || zeroRange e (4 + 2 * i) 2))
  | 0xE => zeroIn (es 8) [(1, 7)]
  | 0xF => (es 4096).all (fun e => zeroRange e 1 1 && zeroRange e 4 12 && zeroRange e (0x10 + 8 * field e 2 2) (4080 - 8 * field e 2 2))
  | 0x10 => zeroIn (es 16) [(0xA, 6)]
  | _ => true
where
  /-- The reserved bytes of the fold record headers (R213). -/
  foldHdrReserved : Nat → List Byte → Bool
    | 0, _ => true
    | n + 1, bs =>
      bs.isEmpty || (zeroRange bs 1 1 && zeroRange bs 6 2 && zeroRange bs 0x20 32
        && foldHdrReserved n (bs.drop (64 + 16 * (field bs 0xC 4 + field bs 0x14 4 + field bs 0x1C 4))))

/-- Step 9: header and unused table entries (0xFF), then the sections in table order. (DEDUCED, log 20.) -/
def step9 (img : List Byte) (ss : List Sect) : Option Nat :=
  let n := sectCount img
  if !(zeroRange img 0x28 216 && zeroRange img (0x100 + 16 * n) (16 * (240 - n)) && byteAt img 0x21 / 4 == 0) then some 0xFF
  else
    match (List.range n).find? (fun i => !zeroRange img (0x100 + 16 * i + 3) 1) with
    | some i => some i
    | none => (indicesFrom (fun s => !sectReservedOk s) 0 ss).head?

/-! ### Step 10: entry counts, indices and the rules of each kind -/

/-- Prefix length, entry size and most entries of a kind (R36); size 0 for FOLD. -/
def kindShape : Nat → Nat × Nat × Nat
  | 1 => (0, 16, 256)
  | 2 => (0, 64, 64)
  | 3 => (0, 64, 128)
  | 4 => (0, 32, 65536)
  | 6 => (0, 16, 256)
  | 7 => (8, 8, 65536)
  | 8 => (0, 4096, 1)
  | 9 => (16, 16, 2 ^ 32)
  | 0xA => (16, 1, 2 ^ 32)
  | 0xB => (0, 16, 1048576)
  | 0xC => (0, 32, 64)
  | 0xD => (0, 32, 256)
  | 0xE => (0, 8, 64)
  | 0xF => (0, 4096, 4)
  | 0x10 => (0, 16, 128)
  | _ => (0, 0, 0)

/-- The section's length is its prefix and a whole number of entries, no more than the kind allows (R36). -/
def shapeOk (s : Sect) : Bool :=
  if s.kind = 5 then true
  else
    let (p, z, n) := kindShape s.kind
    p ≤ s.data.length && (s.data.length - p) % z == 0 && (s.data.length - p) / z ≤ n

/-- A ROUTE section (R36, R37, R84). -/
def routeOk (ss : List Sect) (s : Sect) : Bool :=
  let n := (sectOf ss 2 hubScope).length / 64
  s.data.length == 4096 &&
  (List.range 256).all (fun i =>
    let r := routeOf ss i
    !r.configured ||
      (r.pipe < 16 && (r.sensor == 0xFF || r.sensor < n) && (r.sync == 0xFF || r.sync < 64)
        && (match findGraph ss r.gid with
            | some g => r.pipe / 4 == g.home
            | none => true)
        && (List.range i).all (fun j =>
            let o := routeOf ss j
            !(o.configured && o.pipe == r.pipe && j % 16 == i % 16))))

/-- A GRAPH section (R38, R173, R182, R186). -/
def graphOk (ss : List Sect) (s : Sect) : Bool :=
  let drv := sectOf ss 7 s.scope
  let base := field drv 0 4
  let cnt := field drv 4 4
  let bud := budgetsIn ss s.scope
  (graphsIn s.data).all (fun g =>
    ((graphsAll ss).filter (fun o => o.gid == g.gid)).length == 1 && g.home == s.scope && g.mode < 2
    && 1 ≤ g.limit && g.limit ≤ 3 && (g.flock == 0xFFFF || g.flock < (flocksIn ss s.scope).length)
    && g.first + g.count ≤ bud.length && ss.any (fun b => b.kind == 4 && b.scope == s.scope)
    && (if g.mode = 1 then base ≤ g.entry && g.entry < base + cnt else base ≤ chainIndex ss g && chainIndex ss g < base + cnt))

/-- Lanes or trios of a width code (R79, R331). -/
def laneCount (cphy : Bool) (code : Nat) : Nat := if cphy then min (code + 1) 3 else 2 ^ min code 2

/-- Capacity per DT of a resource, as numerator and denominator (R174, R336); none for an invalid resource ID. -/
def capacity (ss : List Sect) (res : Nat) : Option (Nat × Nat) :=
  let q := res / 64
  let c := res % 64
  if c < 0x10 then some (5, 1)
  else if c < 0x18 then some (10, 1)
  else if c = 0x18 then some (640, 1)
  else if c = 0x19 then some (24576, 10)
  else if c = 0x1A then some (1280, 1)
  else if c < 0x1F then (if c - 0x1B = q then none else some (1200, 1))
  else if c < 0x21 then some (600, 1)
  else if c < 0x30 then none
  else if q ≠ 0 then none
  else if c < 0x38 then
    match (txMap ss).find? (fun e => e.port == c - 0x30) with
    | some e =>
      let cphy := bit e.setup 0
      let w := laneCount cphy (bits e.setup 1 2)
      some (if cphy then (144 * w * e.rate, 70000) else (9 * w * e.rate, 10000))
    | none => none
  else if c < 0x3E then some (384, 1)
  else none

/-- The fixed part of a resource that background work takes (R175, R207). -/
def backgroundPart (ss : List Sect) (res : Nat) : Nat :=
  let c := res % 64
  if c = 0x19 then 251659
  else if c = 0x1A then
    16384 + 1048576 * popCount 16 ((foldsIn ss (res / 64)).foldl (fun m r => m ||| r.phases) 0)
  else 0

/-- A graph's budget range (R173, R175): one kind-0 record first, then kind-1 records, each resource once, each density by the
formula and within the home Drover's share. -/
def graphBudgetOk (ss : List Sect) (g : Graph) : Bool :=
  match graphBudgets ss g with
  | [] => false
  | h :: r =>
    h.kind == 0 && 1000 ≤ h.val &&
    r.all (fun x => x.kind == 1 && ((r.filter (fun y => y.res == x.res)).length == 1)
      && (match capacity ss x.res with
          | some (n, k) => n != 0 && x.val == ceilDiv (x.b * 2 ^ 24 * k) (n * h.val)
          | none => false)
      && x.val ≤ shareIn ss g.home x.res)

/-- A BUDGET section (R173-R175). -/
def budgetOk (ss : List Sect) (s : Sect) : Bool :=
  let rs := budgetsIn ss s.scope
  let gs := graphsIn (sectOf ss 3 s.scope)
  let inRange (i : Nat) := gs.any (fun g => g.first ≤ i && i < g.first + g.count)
  rs.all (fun r => r.kind ≤ 2 && (r.kind == 0 || (capacity ss r.res).isSome))
  && (indicesFrom (fun r : Budget => r.kind == 2) 0 rs).all (fun i => !inRange i)
  && (rs.filter (fun r => r.kind == 2)).all (fun r =>
      (rs.filter (fun o => o.kind == 2 && o.res == r.res)).length == 1
      && ([0, 1, 2, 3].foldl (fun a q => a + shareIn ss q r.res) 0) + backgroundPart ss r.res ≤ 2 ^ 24)
  && gs.all (graphBudgetOk ss)

/-- A FOLD section (R213-R215). -/
def foldOk (ss : List Sect) (s : Sect) : Bool :=
  let rs := foldRecs 17 s.data
  let regs := sectOf ss 6 s.scope
  let regionUsed (r : Nat) := !(zeroRange (tableEntry regs 16 r) 0 16) && r < regs.length / 16
  let isRing (r : Nat) := byteAt (tableEntry regs 16 r) 0xA == 1
  let slots (r : Nat) := field (tableEntry regs 16 r) 8 2
  let size := rs.foldl (fun n r => n + 64 + 16 * (r.pro.length + r.body.length + r.epi.length)) 0
  let stepOk (r : FoldRec) (len : Nat) (e : List Byte) :=
    let m := byteAt e 4
    let a := byteAt e 5
    let g := field e 6 2
    let k := field e 8 4
    field e 0 4 < len && a ≤ 4 && (m == 0xFF || (m < 16 && bit r.members m))
    && ((a == 0 && (g == 0 || regionUsed g)) || (regionUsed g && ((a != 1 && a != 2) || isRing g) && (a != 4 || (1 ≤ k && k ≤ slots g))))
  let rising (es : List (List Byte)) := (List.zip es (es.drop 1)).all (fun p => field p.1 0 4 ≤ field p.2 0 4)
  size == s.data.length && rs.length ≤ 16
  && rs.all (fun r =>
      r.number < 16 && (rs.filter (fun o => o.number == r.number)).length == 1 && r.members != 0 && r.phases != 0
      && r.phases != 0xFFFF && 1 ≤ r.bodyLen && r.pro.length + r.body.length + r.epi.length ≤ 65536
      && r.pro.all (stepOk r r.proLen) && r.body.all (stepOk r r.bodyLen) && r.epi.all (stepOk r r.epiLen)
      && rising r.pro && rising r.body && rising r.epi)

/-- A REGION section (R208); audited slots of the image alone are counted here, with the other plane's at step 11's side. -/
def regionOk (auditedElsewhere : List Byte → Nat) (s : Sect) : Bool :=
  let es := entriesOf 16 s.data
  es.all (fun e =>
    zeroRange e 0 16 ||
      (let slot := field e 4 4
       let n := field e 8 2
       slot != 0 && n != 0 && slot ≤ 8388608 && n ≤ 32767 && byteAt e 0xA ≤ 1 && (byteAt e 0xA != 1 || 3 ≤ n)
       && bits (field e 0 4) 0 23 + n * slot ≤ 2 ^ 23))
  && (es.filter (fun e => bit (byteAt e 0xB) 0)).foldl (fun a e => a + field e 8 2) (auditedElsewhere s.data) ≤ 4096

/-- The opcode, A, B and C fields of a Drover instruction (R182). -/
def drvOp (w : Nat) : Nat := bits w 56 8
def drvA (w : Nat) : Nat := bits w 48 8
def drvB (w : Nat) : Nat := bits w 32 16
def drvC (w : Nat) : Nat := bits w 0 32

/-- An action word that a chain pair may hold (R186). -/
def chainAction (op : Nat) : Bool := op == 4 || op == 5 || op == 6 || op == 0x11 || op == 0x12 || op == 0x13

/-- A chain table: pairs of a LINK word and an action word, ending with the first EMIT pair (R186). -/
def chainOk : Nat → List Nat → Bool
  | 0, _ => false
  | n + 1, l =>
    match l with
    | m :: a :: r =>
      drvOp m == 0x15 && chainAction (drvOp a) && (drvOp a == 0x13 || chainOk n r)
    | _ => false

/-- The words of a DROVER section. -/
def drvWords (s : Sect) : List Nat := (entriesOf 8 (s.data.drop 8)).map leNat

/-- A DROVER section (R36, R182, R183, R186). -/
def droverOk (ss : List Sect) (s : Sect) : Bool :=
  let base := field s.data 0 4
  let ws := drvWords s
  let cnt := ws.length
  let target (w : Nat) := base ≤ drvB w && drvB w < base + cnt
  let wordOk (w : Nat) :=
    let op := drvOp w
    op ≤ 0x15
    && ((op != 7 && op != 8 && op != 0xC && op != 0xD) || target w)
    && (op != 4 || (drvA w % 64 < 0x20 && bits (drvB w) 0 5 < 24))
    && ((op != 5 && op != 6) || bits (drvB w) 0 5 < 24)
    && ((op != 8 && op != 0xE && op != 0xF) || bits (drvA w) 0 5 < 24)
    && ((op != 1 && op != 2 && op != 0x15) || drvC w < 2 ^ 27)
  field s.data 4 4 == cnt && base + cnt ≤ 65536 && ws.all wordOk
  && (match ws.getLast? with
      | some w => drvOp w == 7 || drvOp w == 0x13 || drvOp w == 0x14
      | none => true)
  && (graphsIn (sectOf ss 3 s.scope)).all (fun g => g.mode != 0 || chainOk (cnt + 1) (ws.drop (chainIndex ss g - base)))

/-- Zero, or a power of two within a range (R326). -/
def capacityOk (n : Nat) : Bool := n == 0 || (4096 ≤ n && n ≤ 1048576 && popCount 32 n == 1)

/-- A SHEPHERD section (R326). -/
def shepherdOk (s : Sect) : Bool :=
  capacityOk (field s.data 0x18 4) && field s.data 0x10 8 % 16384 == 0
  && [0, 1, 2, 3].all (fun p => capacityOk (field s.data (0x20 + 16 * p + 8) 4) && field s.data (0x20 + 16 * p) 8 % 16384 == 0)

/-- A PTSEED section (R36). -/
def ptseedOk (s : Sect) : Bool :=
  (entriesOf 16 s.data).all (fun e =>
    let i := field e 0 4
    let n := field e 4 4
    i + n ≤ 16777216 && (n == 0 || bits (field e 8 8) 14 24 + n ≤ 2 ^ 24))

/-- A FLOCK section (R338). -/
def flockOk (ss : List Sect) (s : Sect) : Bool :=
  let regs := sectOf ss 6 s.scope
  (entriesOf 32 s.data).all (fun e =>
    let f := flockOf e
    let rg := tableEntry regs 16 f.ring
    1 ≤ byteAt e 3 && byteAt e 3 ≤ 12 && f.recvs.all (fun r => bits r 14 2 != 3 && (f.recvs.filter (· == r)).length == 1)
    && (f.ring == 0xFF || (byteAt rg 0xA == 1 && (f.hold || (1 ≤ f.lag && f.lag + 1 ≤ field rg 8 2)))))

/-- An ISPINIT section (R97): offsets name RW or RWS fields of the pipe block. -/
def ispInitOk (s : Sect) : Bool :=
  let es := entriesOf 4096 s.data
  es.all (fun e =>
    byteAt e 0 < 4 && field e 2 2 ≤ 510 && (es.filter (fun o => byteAt o 0 == byteAt e 0)).length == 1
    && (List.range (field e 2 2)).all (fun i =>
        let o := field e (0x10 + 8 * i) 4
        o % 4 == 0 && o < 0x4000 &&
        (match entryAt (addrOf .isp 0 0 + o) with
          | some (t, _) => t.rw != 0 || t.rws != 0
          | none => false)))

/-- A TXMAP section (R331). -/
def txmapOk (s : Sect) : Bool :=
  let es := (entriesOf 16 s.data).map txEntryOf
  es.all (fun e =>
    e.port < 8 && e.vc < (if bit e.setup 0 then 32 else 16)
    && (e.typ == 0x31 || e.typ == 0x32 || e.typ == 0x33 || e.typ == 0x34 || e.typ == 0x37)
    && 64 ≤ e.line && e.line ≤ 16376 && e.line % 8 == 0
    && (es.filter (fun o => o.ch == e.ch)).length == 1
    && (es.filter (fun o => o.port == e.port && o.vc == e.vc && o.part == e.part)).length == 1
    && es.all (fun o => o.port != e.port || (o.setup == e.setup && o.rate == e.rate)))

/-- The rules of step 10 for one section (R36 and the chapters it names). -/
def sectOk (audited : List Byte → Nat) (ss : List Sect) (s : Sect) : Bool :=
  shapeOk s &&
  (match s.kind with
    | 1 => routeOk ss s
    | 2 => (entriesOf 64 s.data).all (fun e => byteAt e 0 < 16)
    | 3 => graphOk ss s
    | 4 => budgetOk ss s
    | 5 => foldOk ss s
    | 6 => regionOk audited s
    | 7 => droverOk ss s
    | 8 => shepherdOk s
    | 0xB => ptseedOk s
    | 0xC => (entriesOf 32 s.data).all (fun e => field e 4 4 % 256 == 0)
    | 0xD => flockOk ss s
    | 0xE => (entriesOf 8 s.data).all (fun e => byteAt e 0 ≤ 35)
    | 0xF => ispInitOk s
    | 0x10 => txmapOk s
    | _ => true)

/-- Step 10: the first section that breaks a rule; 0xFF when the image has no ROUTE section. (DEDUCED, log 20.) -/
def step10 (audited : Nat → List Byte → Nat) (ss : List Sect) : Option Nat :=
  match (indicesFrom (fun s => !sectOk (audited s.scope) ss s) 0 ss).head? with
  | some i => some i
  | none => if ss.any (fun s => s.kind == 1) then none else some 0xFF

/-! ### Step 11: sharing against the plane in use (R39, R97, R215, R331) -/

/-- The DVA bytes that the MXCMD and GCCODE sections of an image write: address and data of each section (R36). -/
def dvaWrites (ss : List Sect) : List (Nat × List Byte) :=
  (ss.filter (fun s => s.kind == 9 || s.kind == 0xA)).map (fun s => (field s.data 0 8, s.data.drop 16))

/-- Two byte strings at addresses agree wherever they overlap. -/
def agree (a b : Nat × List Byte) : Bool :=
  let lo := max a.1 b.1
  let hi := min (a.1 + a.2.length) (b.1 + b.2.length)
  hi ≤ lo || (a.2.drop (lo - a.1)).take (hi - lo) == (b.2.drop (lo - b.1)).take (hi - lo)

/-- The words that a REGION entry covers: first and one past the last. -/
def regionSpan (e : List Byte) : Nat × Nat :=
  (bits (field e 0 4) 0 23, bits (field e 0 4) 0 23 + field e 4 4 * field e 8 2)

/-- Section s of the new image keeps the sharing rules against the sections of a plane in use. -/
def shareOk (d : Dev) (new old : List Sect) (s : Sect) : Bool :=
  let o := sectOf old s.kind s.scope
  match s.kind with
  | 5 =>
    let a := foldsIn new s.scope
    let b := foldsIn old s.scope
    let all := a ++ b
    a.all (fun x => all.all (fun y => x.number == y.number || (x.phases &&& y.phases == 0 && x.members &&& y.members == 0)))
    && popCount 16 (all.foldl (fun m r => m ||| r.phases) 0) < 16
  | 6 =>
    let es := entriesOf 16 s.data
    let os := entriesOf 16 o
    (List.range es.length).all (fun i =>
      let e := es.getD i []
      let x := os.getD i []
      zeroRange e 0 16 || e == x ||
        (zeroRange x 0 16 && os.all (fun y =>
          zeroRange y 0 16 || (regionSpan e).2 ≤ (regionSpan y).1 || (regionSpan y).2 ≤ (regionSpan e).1)))
  | 7 => agree (field s.data 0 4 * 8, s.data.drop 8) (field o 0 4 * 8, o.drop 8)
  | 8 => o == s.data
  | 9 => (dvaWrites old).all (agree (field s.data 0 8, s.data.drop 16))
  | 0xA => (dvaWrites old).all (agree (field s.data 0 8, s.data.drop 16))
  | 0xC =>
    let es := entriesOf 32 s.data
    let os := entriesOf 32 o
    (List.range es.length).all (fun i =>
      let x := os.getD i []
      zeroRange (es.getD i []) 0 32 || zeroRange x 0 32 || es.getD i [] == x)
  | 0xF =>
    (entriesOf 4096 s.data).all (fun e =>
      let pipe := 4 * s.scope + byteAt e 0
      let inUse := (List.range 256).any (fun t => (routeOf old t).configured && (routeOf old t).pipe == pipe)
      !inUse || (List.range (field e 2 2)).all (fun i =>
        let off := field e (0x10 + 8 * i) 4
        0x400 ≤ off || regRaw d (addrOf .isp pipe off) == BitVec.ofNat 32 (field e (0x14 + 8 * i) 4)))
  | 0x10 =>
    ((entriesOf 16 s.data).map txEntryOf).all (fun e =>
      (txMap old).all (fun x => x.port != e.port || (x.setup == e.setup && x.rate == e.rate)))
  | _ => true

/-- Step 11 within the image itself: its own folds keep the rules that hold with the plane in use (R205, R212, R215). (DEDUCED, log 20.) -/
def step11Own (d : Dev) (ss : List Sect) : Option Nat :=
  (indicesFrom (fun s => s.kind == 5 && !shareOk d ss [] s) 0 ss).head?

/-- Step 11 against one plane in use: the first section at fault, or 0xFF when only the old image has a SHEPHERD section. -/
def step11 (d : Dev) (new old : List Sect) : Option Nat :=
  match (indicesFrom (fun s => !shareOk d new old s) 0 new).head? with
  | some i => some i
  | none =>
    if [0, 1, 2, 3].all (fun q => (sectOf old 8 q).isEmpty || new.any (fun s => s.kind == 8 && s.scope == q)) then none
    else some 0xFF

/-! ### Step 13: the page-table seed (R43, R44) -/

/-- The page-table entries that a PTSEED section writes: page index and value (R36). -/
def seedRuns (bs : List Byte) : List (Nat × Nat × Nat) :=
  (entriesOf 16 bs).map (fun e => (field e 0 4, field e 4 4, field e 8 8))

/-- Entry k of a run (R36). -/
def seedEntry (first k : Nat) : Nat := first + k * 16384

/-- The page-table entries of an image's seed. -/
def seedEntries (ss : List Sect) : List (Nat × Nat) :=
  ((seedRuns (sectOf ss 0xB hubScope)).map (fun r => (List.range r.2.1).map (fun k => (r.1 + k, seedEntry r.2.2 k)))).flatten

/-- A page's entry as it will stand after seeding. -/
def seededPte (d : Dev) (seed : List (Nat × Nat)) (i : Nat) : Nat :=
  match seed.find? (fun e => e.1 == i) with
  | some e => e.2
  | none => pteAt d i

/-- Step 13: the index of the section at fault. -/
def step13 (d : Dev) (ss : List Sect) : Option Nat :=
  let seed := seedEntries ss
  if !(seed.all (fun e => (!bit (pteAt d e.1) 0 || pteAt d e.1 == e.2)
      && seed.all (fun o => o.1 != e.1 || o.2 == e.2))) then
    (indicesFrom (fun s => s.kind == 0xB) 0 ss).head?
  else
    (indicesFrom (fun s =>
      (s.kind == 9 || s.kind == 0xA) &&
        (let a := field s.data 0 8
         let n := s.data.length - 16
         n != 0 && (List.range ((a + n - 1) / 16384 - a / 16384 + 1)).any (fun k =>
           let dva := (a / 16384 + k) * 16384
           dvaCause dva (seededPte d seed (pageOf dva)) .install != 0))) 0 ss).head?

/-! ### The whole check -/

/-- Audited slots of a quadrant's regions in the planes in use that the new image does not share (R208). -/
def auditedInUse (d : Dev) (target : Option Nat) (q : Nat) (new : List Byte) : Nat :=
  ((planesInUse d).filter (fun p => target != some p)).foldl (fun a p =>
    let os := entriesOf 16 (planeSect d p 6 q)
    let ns := entriesOf 16 new
    (List.range os.length).foldl (fun a i =>
      let e := os.getD i []
      if bit (byteAt e 0xB) 0 && ns.getD i [] != e then a + field e 8 2 else a) a) 0

/-- Validation of the bytes that a load received (R42): the first step that fails decides. (DEDUCED, log 20.) -/
def validate (f : FuseSt) (d : Dev) (img : List Byte) (dest : Nat) (target : Option Nat) : Verdict :=
  let len := imageLen img
  if img.length ≠ len ∨ len < 12336 ∨ 268435456 < len then { code := 1 }
  else if field img 0 4 ≠ 0x494D4E44 ∨ field img 4 2 ≠ 0x0100 ∨ field img 6 2 ≠ 0x1000 then { code := 2 }
  else
    let (rsa, slh, slot) := checkSignatures f (runningFw d) img len
    match slot with
    | none => { code := 5, sigRsa := rsa, sigSlh := slh }
    | some sl =>
      let v : Verdict := { slot := sl }
      let others := (planesInUse d).filter (fun p => target != some p)
      let otherGen := match target with
        | some p => if (planeOf d (1 - p)).loaded then (planeOf d (1 - p)).gen else 0
        | none => 0
      let ss := imageSects img
      if field img 0x24 4 ≠ 0x3200 then { v with code := 3 }
      else if !fuseProvisioned f || field img 0x18 8 ≠ fuseInstallId f then { v with code := 4 }
      else if 63 < byteAt img 0x20 ∨ byteAt img 0x20 < fuseRollback f then { v with code := 7 }
      else if field img 8 4 = 0 ∨ (dest ≠ 1 ∧ field img 8 4 = otherGen) then { v with code := 8 }
      else
        match step8 img with
        | some i => { v with code := 9, sect := i }
        | none =>
          match step9 img ss with
          | some i => { v with code := 10, sect := i }
          | none =>
            match step10 (auditedInUse d target) ss with
            | some i => { v with code := 11, sect := i }
            | none =>
              match (others.findSome? (fun p => step11 d ss (planeOf d p).sections)).or (step11Own d ss) with
              | some i => { v with code := 12, sect := i }
              | none =>
                if d.cfg.everInUse && byteAt img 0x21 % 4 ≠ d.cfg.salt then { v with code := 13 }
                else
                  match step13 d ss with
                  | some i => { v with code := 14, sect := i }
                  | none => v

end Sys2Proof.Machine
end

