-- ==== Sys2Proof/Machine/Load.lean ====
section
/-! DEFINITION. Image loads and plane switches (R40-R50, R97, R456): the shared operations and the LOAD and SWITCH commands. -/

namespace Sys2Proof.Machine

/-- Addresses of CFG.LOAD_CTL and CFG.SWITCH_CTL (R51). -/
def loadCtlAddr : Nat := 0x90004
def switchCtlAddr : Nat := 0x90018

/-- The power state PWR.STATE replaced, with EVSUM.POWER (R366, R387). -/
def setPowerState (n : Nat) (d : Dev) : Dev :=
  if getF d .pwr 0 0 0 3 = n then d else evsum 2 (setF .pwr 0 0 0 3 n d)

def updPow (f : PowSt → PowSt) (d : Dev) : Dev := { d with pow := f d.pow }
def pwrCnt (i n : Nat) (d : Dev) : Dev := addCnt .pwr 0 (0x40 + 4 * i) n d
def powerState (d : Dev) : Nat := getF d .pwr 0 0 0 3

/-- The supply and the temperatures allow a wake (R390, R453). -/
def wakeAllowed (d : Dev) : Bool := d.pow.v48 && d.pow.inletOk && d.pow.hubOk

/-- A wake blocked (R390): it is tried again as comparators change. (DEDUCED, log 100.) -/
def blockWake (c : WakeCause) (d : Dev) : Dev :=
  pwrCnt 3 1 (setF .pwr 0 0x18 5 1 1 (updPow (fun p => { p with blocked := match p.blocked with
    | some b => some b
    | none => some (c, d.dt) }) d))

/-- Step 5 of R391: the module becomes ACTIVE, which it does only while the coolant check holds (R2, R390); otherwise it stays in its
state and tries again as comparators change. (DEDUCED, log 100.) -/
def becomeActive (d : Dev) : Dev :=
  if wakeAllowed d then setPowerState 4 (setF .pwr 0 0x18 5 1 0 (updPow (fun p => { p with blocked := none }) d))
  else guardDev d.pow.blocked.isNone (blockWake .powerOn) d

/-- A module that its last step of R391 left blocked tries again, for at most 1,250,000,000 DT (R390). -/
def retryActive (d : Dev) : Dev :=
  match d.pow.blocked with
  | some (_, t) => guardDev (d.pow.computeUp && powerState d == 2 && wakeAllowed d && decide (d.dt ≤ t + 1250000000)) becomeActive d
  | none => d

/-- A start of a gated unit, a dispatch or a Frame Start notice ends IDLE (R388): the units wake 250 DT later. (DEDUCED, log 98.) -/
def idleExit (d : Dev) : Dev :=
  if getF d .pwr 0 0 0 3 = 3 then addCnt .pwr 0 0x44 1 (setPowerState 4 { d with wakeAt := d.dt + 250 }) else d

/-- Every memory controller is READY (R252, R391). -/
def memReady (d : Dev) : Bool := [0, 1, 2, 3].all (fun q => getF d .memc q 0 0 1 == 1)

/-- A load changed. -/
def updLoad (f : LoadSt → LoadSt) (d : Dev) : Dev := { d with cfg := { d.cfg with load := f d.cfg.load } }

/-- A load is in progress: LOAD_STATE 1, 2 or 3 (R41). -/
def loadBusy (d : Dev) : Bool := 1 ≤ d.cfg.load.state && d.cfg.load.state ≤ 3

/-- LOAD_ERR written (R42, R51). (DEDUCED, log 23.) -/
def setLoadErr (v : Verdict) (d : Dev) : Dev :=
  setR .cfg 0 8 (v.code + 256 * b2n v.sigRsa + 512 * b2n v.sigSlh + 65536 * v.sect) d

/-- A plane stops being LOADED (R41): its key slot is cleared, and no graph or fold is on it any more (R49). -/
def unloadPlane (p : Nat) (d : Dev) : Dev :=
  let keep (l : List (Nat × UnitPlane)) := l.filter (fun e => e.2.now != p)
  updPlane p (fun x => { x with loaded := false, slot := 0xFF })
    { d with cfg := { d.cfg with graphs := keep d.cfg.graphs, folds := keep d.cfg.folds } }

/-- A slot of a receive port. -/
def getSlot (d : Dev) (stream : Nat) : RxSlot := mapGet {} stream d.rx.slots
def updSlot (stream : Nat) (f : RxSlot → RxSlot) (d : Dev) : Dev :=
  { d with rx := { d.rx with slots := mapUpd {} stream f d.rx.slots } }

/-- A window that some plane in use declares as a load window (R40, R41, R347). -/
def isLoadWindow (d : Dev) (w : Nat) : Bool :=
  (planesInUse d).any (fun p =>
    let f := byteAt (tableEntry (planeSect d p 0xC hubScope) 32 w) 0
    bit f 0 && bit f 2)

/-- The plane that a load goes to, chosen when START commits (R40): none when both are in use. -/
def chooseTarget (d : Dev) : Option Nat :=
  let a := planeOf d 0
  let b := planeOf d 1
  match a.inUse, b.inUse with
  | true, true => none
  | true, false => some 1
  | false, true => some 0
  | false, false =>
    match a.loaded, b.loaded with
    | true, false => some 1
    | false, true => some 0
    | false, false => some 0
    | true, true => some (match d.cfg.lastTarget with
        | some t => 1 - t
        | none => 1)

/-- The bytes that a NAND bank gives a load: its contents up to the image length in its header (R40). -/
def bankBytes (d : Dev) (b : Nat) : List Byte :=
  let x := d.cfg.nandImages.getD b []
  x.take (imageLen x)

/-- A load begun from given fields, its target chosen (R40, R41); a failed start leaves every plane as it was. -/
def beginLoad (src dest bank rxp vc win : Nat) (boot : Option Nat) (d : Dev) : Dev :=
  let l : LoadSt := { state := 1, src := src, dest := dest, bank := bank, rxp := rxp, vc := vc, win := win, boot := boot }
  let s := getSlot d (16 * rxp + vc)
  let fail (code : Nat) :=
    evsum 4 (setLoadErr { code := code } (updLoad (fun _ => { l with state := 5 }) d))
  if src = 3 ∨ dest = 3 ∨ (src = 1 ∧ !(s.en && s.kind == 1)) ∨ (src = 2 ∧ !isLoadWindow d win) then fail 17
  else
    let bytes := if src = 0 then bankBytes d bank else []
    if dest = 1 then updLoad (fun _ => { l with bytes := bytes }) d
    else
      match chooseTarget d with
      | none => fail 15
      | some p =>
        updLoad (fun _ => { l with target := some p, bytes := bytes }) (setF .cfg 0 0 9 1 p (unloadPlane p d))

/-- The end of the boot load of R44: the other bank is tried once; when that fails too BOOT_FAIL is set, and a module whose
memory is trained becomes ACTIVE (R391). -/
def bootRetry (d : Dev) : Dev :=
  match d.cfg.load.boot with
  | some 1 => beginLoad 0 0 (1 - d.cfg.load.bank) 0 0 0 (some 2) d
  | some _ => guardDev (memReady d && getF d .pwr 0 0 0 3 == 2) becomeActive (setF .cfg 0 0 10 1 1 d)
  | none => d

/-- A load ended by a fault (R41, R42): the target plane stays not LOADED. -/
def loadFail (v : Verdict) (d : Dev) : Dev :=
  let d1 := guardDev (v.code == 5) (evsum 11) (evsum 4 (setLoadErr v (updLoad (fun l => { l with state := 5, store := none }) d)))
  bootRetry d1

/-- START, ABORT and DONE of a write of LOAD_CTL (R40, R41), in bit order; in recovery no image load is accepted (R417). (DEDUCED, log 19.) -/
def loadCtlEffect (v : W32) (d : Dev) : Dev :=
  let d1 := storeFields loadCtlAddr v d
  let d2 := guardDev (fld v 0 1 == 1 && !loadBusy d1 && !d1.sec.recovery)
    (beginLoad (fld v 4 2) (fld v 8 2) (fld v 6 1) (fld v 12 4) (fld v 16 4) (fld v 20 6) none) d1
  let d3 := guardDev (fld v 1 1 == 1 && loadBusy d2) (loadFail { code := 16 }) d2
  guardDev (fld v 2 1 == 1 && d3.cfg.load.state == 1 && d3.cfg.load.src == 2) (updLoad (fun l => { l with ended := true })) d3

/-- Bytes that a source delivers to the load that is receiving (R40). -/
def loadBytes (bs : List Byte) (d : Dev) : Dev := updLoad (fun l => { l with bytes := l.bytes ++ bs }) d

/-- Receiving ends (R42): a NAND bank has been read, or the source has ended the byte stream. -/
def loadReceiveEnd (d : Dev) : Dev :=
  guardDev (d.cfg.load.state == 1 && (d.cfg.load.src == 0 || d.cfg.load.ended)) (updLoad (fun l => { l with state := 2 })) d

/-- A plane that a graph, a fold or an admitted instance refers to (R41). -/
def planeBusy (d : Dev) (p : Nat) : Bool := (planeOf d p).inUse || planeLive d p

/-- Validation of the received image ends (R42). A valid image for a plane requests its record of kind 0x0003, at whose commit
installation begins (R43); a fault ends the load. -/
def loadValidationDone (f : FuseSt) (d : Dev) : Dev :=
  let l := d.cfg.load
  if l.state ≠ 2 ∨ l.slot ≠ 0xFF then d
  else
    let v := validate f d l.bytes l.dest l.target
    if v.code ≠ 0 then loadFail v d
    else
      let store := if l.dest = 0 then none else some (1 - getF d .cfg 0 0x28 0 1, l.bytes)
      let d1 := updLoad (fun l => { l with slot := v.slot, store := store }) d
      match l.target with
      | none => d1
      | some p =>
        if planeBusy d p then loadFail { code := 15 } d1
        else
          requestChange { at_ := d.dt, cls := 5, oid := 0, target := 0x90000, kind := 0x0003
                          new := BitVec.ofNat 32 (field l.bytes 8 4)
                          extra := BitVec.ofNat 64 (leNat ((measurement l.bytes (imageLen l.bytes)).take 8))
                          act := .install } d1

/-- Installation begins at the commit of its record, while the load that asked for it is still there (R43). -/
def installBegin (d : Dev) : Dev :=
  guardDev (d.cfg.load.state == 2 && d.cfg.load.slot != 0xFF) (updLoad (fun l => { l with state := 3 })) d

/-! ### Installation (R43) -/

/-- The sections of the other plane while it holds an image. -/
def otherSects (d : Dev) (p : Nat) : List Sect := if (planeOf d (1 - p)).loaded then (planeOf d (1 - p)).sections else []

/-- A region table entry (R208). -/
def regionEntry (ss : List Sect) (q r : Nat) : List Byte := tableEntry (sectOf ss 6 q) 16 r

def regionOfEntry (e : List Byte) : Region :=
  { base := bits (field e 0 4) 0 23, slot := field e 4 4, n := field e 8 2, kind := byteAt e 0xA, flags := byteAt e 0xB }

/-- An unused table entry. -/
def entryUnused (e : List Byte) : Bool := e.all (· == 0#8)

/-- One region installed: the new image's entry, else the other plane's, else unused; pointers start at 0 unless the entry is
identical to one in use (R204). -/
def installRegion (ss other : List Sect) (otherUse : Bool) (q r : Nat) (d : Dev) : Dev :=
  let e := regionEntry ss q r
  let o := regionEntry other q r
  if entryUnused e then guardDev (entryUnused o) (updRegion q r (fun _ => {})) d
  else if otherUse && e == o then d
  else updRegion q r (fun _ => regionOfEntry e) d

/-- Installed words of the Drover program memory (R36, R39). -/
def installProgram (ss : List Sect) (q : Nat) (d : Dev) : Dev :=
  let s := sectOf ss 7 q
  let base := field s 0 4
  let ws := (entriesOf 8 (s.drop 8)).map leNat
  { d with prog := (ws.zipIdx).foldl (fun m e => mapSet 0#64 (65536 * q + base + e.2) (BitVec.ofNat 64 e.1) m) d.prog }

/-- The shared tables of one quadrant. (DEDUCED, log 22.) -/
def installQuad (ss other : List Sect) (otherUse : Bool) (q : Nat) (d : Dev) : Dev :=
  let d1 := (List.range 256).foldl (fun d r => installRegion ss other otherUse q r d) (installProgram ss q d)
  let sh := sectOf ss 8 q
  updShp q (fun x => { x with cfg := if sh.isEmpty then sectOf other 8 q else sh }) d1

/-- The window table: the new image's entries, and the other plane's where the new image uses none. -/
def installWindows (ss other : List Sect) (d : Dev) : Dev :=
  let ent (s : List Sect) (w : Nat) := tableEntry (sectOf s 0xC hubScope) 32 w
  { d with peer := { d.peer with table := (List.range 64).foldl (fun m w =>
      let e := if entryUnused (ent ss w) then ent other w else ent ss w
      mapSet [] w (if entryUnused e then [] else e) m) d.peer.table } }

/-- A page-table entry stored in DRAM (R242). -/
def storePte (i e : Nat) (d : Dev) : Dev := dramWrite (pteAddr i) (leBytes 8 e) d

/-- The transmit ports that no plane in use uses take what the image's TXMAP entries give them (R331). -/
def installPorts (ss : List Sect) (d : Dev) : Dev :=
  (txMap ss).foldl (fun d e =>
    if (planesInUse d).any (fun p => (txMap (planeOf d p).sections).any (fun x => x.port == e.port)) then d
    else updTx e.port (fun t => { t with setup := e.setup % 16, rate := e.rate }) d) d

/-- The quadrant of a translation cache (R244). -/
def cacheQuad (c : Nat) : Nat :=
  if c < 32 then c / 8 else if c < 64 then (c - 32) / 8 else if c < 128 then c - 64 else (c - 128) / 64

/-- The entries that pass a test dropped from the translation caches that pass one, counted where they stood (R245, R251 CNT4). -/
def dropEntries (which : Nat → Bool) (p : Nat → Bool) (d : Dev) : Dev :=
  d.memsys.caches.foldl (fun d c =>
    if which c.1 then
      let gone := (c.2.filter (fun e => p e.1)).length
      addCnt .xlt (cacheQuad c.1) 0x50 gone
        { d with memsys := { d.memsys with caches := mapSet [] c.1 (c.2.filter (fun e => !p e.1)) d.memsys.caches } }
    else d) d

/-- A page index dropped from every translation cache. -/
def dropPage (i : Nat) (d : Dev) : Dev := dropEntries (fun _ => true) (· == i) d

/-- The page-table seed written (R44). (DEDUCED, log 22.) -/
def installSeed (p : Nat) (seed : List (Nat × Nat)) (d : Dev) : Dev :=
  let d1 := seed.foldl (fun d e => storePte e.1 e.2 d) d
  { d1 with cfg := { d1.cfg with seeded := setAt p seed d1.cfg.seeded } }

/-- The contents of the MXCMD and GCCODE sections written (R36, R43). -/
def installCode (ss : List Sect) (d : Dev) : Dev :=
  (ss.filter (fun s => s.kind == 9 || s.kind == 0xA)).foldl (fun d s => hubWriteDva (field s.data 0 8) (s.data.drop 16) d) d

/-- A context of an image pipe, by 16 * pipe + context. -/
def getIsp (d : Dev) (i : Nat) : IspCtx := mapGet {} i d.isp.ctxs
def updIsp (i : Nat) (f : IspCtx → IspCtx) (d : Dev) : Dev := { d with isp := { d.isp with ctxs := mapUpd {} i f d.isp.ctxs } }

/-- Some stream that a plane in use configures belongs to the pipe, or to the context of the pipe (R84). -/
def pipeUsed (d : Dev) (pipe : Nat) (ctx : Option Nat) : Bool :=
  (planesInUse d).any (fun p =>
    (List.range 256).any (fun s =>
      let r := routeOf (planeOf d p).sections s
      r.configured && r.pipe == pipe && (match ctx with
        | some c => s % 16 == c
        | none => true)))

/-- Reset value of a context register by offset. -/
def ispReset (o : Nat) : W32 := BitVec.ofNat 32 (regReset (addrOf .ispCtx 0 o))

/-- One ISPINIT pair applied directly: a context register enters the shadow and the active set, a pipe-wide one its register
(R97). -/
def applyPair (pipe off : Nat) (v : W32) (d : Dev) : Dev :=
  if off < 0x400 then
    guardDev (!pipeUsed d pipe none) (storeFields (addrOf .isp pipe off) v) d
  else
    let c := (off - 0x400) / 0x200
    let o := (off - 0x400) % 0x200
    let a := addrOf .ispCtx (16 * pipe + c) o
    if pipeUsed d pipe (some c) then d
    else
      let d1 := storeFields a v d
      updIsp (16 * pipe + c) (fun x => { x with active := mapSet (ispReset o) o (regRaw d1 a) x.active }) d1

/-- The pairs of an ISPINIT entry (R97). -/
def ispPairs (e : List Byte) : List (Nat × W32) :=
  (chunks 8 (field e 2 2) ((e.drop 0x10).take (8 * field e 2 2))).map (fun p => (field p 0 4, BitVec.ofNat 32 (field p 4 4)))

/-- The ISPINIT pairs of an image for a pipe. -/
def pipePairs (ss : List Sect) (pipe : Nat) : List (Nat × W32) :=
  ((entriesOf 4096 (sectOf ss 0xF (pipe / 4))).filter (fun e => byteAt e 0 == pipe % 4)).flatMap ispPairs

/-- The ISPINIT pairs of an image for one context, by context register. -/
def ctxPairs (ss : List Sect) (i : Nat) : List (Nat × W32) :=
  ((pipePairs ss (i / 16)).filter (fun e => 0x400 ≤ e.1 && (e.1 - 0x400) / 0x200 == i % 16)).map (fun e => ((e.1 - 0x400) % 0x200, e.2))

/-- ISPINIT pairs applied to the contexts and pipes that no plane in use uses; for a context in use whose pairs differ from the old
plane's, they wait for the first instance admitted on the new plane (R97). (DEDUCED, log 24.) -/
def installIsp (ss other : List Sect) (gen otherGen : Nat) (d : Dev) : Dev :=
  let wait := (List.range 256).filter (fun i =>
    let p := ctxPairs ss i
    !p.isEmpty && pipeUsed d (i / 16) (some (i % 16)) && p != ctxPairs other i)
  let d1 := (List.range 16).foldl (fun d pipe => (pipePairs ss pipe).foldl (fun d e => applyPair pipe e.1 e.2 d) d) d
  { d1 with cfg := { d1.cfg with ispInit := d1.cfg.ispInit.filter (fun e => e.2 == otherGen) ++ wait.map (fun i => (i, gen)) } }

/-- Units moved to a plane at a DT (R46, R47). -/
def movePlane (units : List Nat) (p dt : Nat) (l : List (Nat × UnitPlane)) : List (Nat × UnitPlane) :=
  units.foldl (fun l u =>
    let old := match l.find? (fun e => e.1 == u) with
      | some (_, x) => x.now
      | none => 1 - p
    (u, { before := old, now := p, since := dt }) :: l.filter (fun e => e.1 != u)) l

/-- A plane in use from now on when something refers to it (R51). -/
def noteUse (p : Nat) (d : Dev) : Dev :=
  guardDev (planeReferred d p) (fun d => updPlane p (fun x => { x with inUse := true })
    { d with cfg := { d.cfg with everInUse := true, releasing := d.cfg.releasing.filter (· != p) } }) d

/-- The salt in force at the memory controllers (R252). -/
def noteSalt (d : Dev) : Dev := [0, 1, 2, 3].foldl (fun d q => setF .memc q 0 2 2 d.cfg.salt d) d

/-- With no plane in use, the graphs and folds of the image just installed run on it from now on: nothing else could move
them there, and a first image runs without a switch (R44). (DEDUCED, log 21.) -/
def firstUse (p : Nat) (d : Dev) : Dev :=
  if (planesInUse d).isEmpty then
    let ss := (planeOf d p).sections
    let u (l : List Nat) := l.map (fun g => (g, ({ before := p, now := p, since := 0 } : UnitPlane)))
    noteUse p { d with cfg := { d.cfg with graphs := u (imageGraphs ss), folds := u (imageFolds ss) } }
  else d

/-- The load's last part: done once installation and NAND store are both behind it (R456), with EVSUM.LOAD. (DEDUCED, log 21 and 23.) -/
def loadFinish (d : Dev) : Dev := evsum 4 (setLoadErr { code := 0 } (updLoad (fun l => { l with state := 4 }) d))

/-- Installation completes (R43): shared tables, code, per-plane tables, LOADED; BOOT_FAIL clears (R44), and a module that
boots becomes ACTIVE (R391). An epoch below the count by now fails with code 7 (R421). -/
def loadInstallDone (f : FuseSt) (d : Dev) : Dev :=
  let l := d.cfg.load
  match l.target with
  | none => d
  | some p =>
    if l.state ≠ 3 ∨ l.installed then d
    else if byteAt l.bytes 0x20 < fuseRollback f then loadFail { code := 7 } d
    else
      let ss := imageSects l.bytes
      let other := otherSects d p
      let otherUse := (planeOf d (1 - p)).inUse
      let d1 := [0, 1, 2, 3].foldl (fun d q => installQuad ss other otherUse q d) d
      let d2 := installCode ss (installSeed p (seedEntries ss) (installPorts ss (installWindows ss other d1)))
      let d3 := updPlane p (fun _ =>
        { loaded := true, inUse := false, gen := field l.bytes 8 4, pred := field l.bytes 0xC 4, epoch := byteAt l.bytes 0x20,
          salt := byteAt l.bytes 0x21 % 4, slot := l.slot, digest := measurement l.bytes (imageLen l.bytes), sections := ss }) (installIsp ss other (field l.bytes 8 4) (planeOf d (1 - p)).gen d2)
      let d4 := noteSalt (firstUse p (if d3.cfg.everInUse then d3 else { d3 with cfg := { d3.cfg with salt := byteAt l.bytes 0x21 % 4 } }))
      let d5 := guardDev (getF d .pwr 0 0 0 3 == 2 && l.boot.isSome) becomeActive (setF .cfg 0 0 10 1 0 d4)
      let d6 := updLoad (fun l => { l with installed := true }) d5
      guardDev l.store.isNone loadFinish d6

/-- The NAND store of DEST 1 or 2 completes (R456). -/
def loadNandStoreDone (d : Dev) : Dev :=
  let l := d.cfg.load
  match l.store with
  | none => d
  | some (b, bytes) =>
    if l.state ≠ 2 ∧ l.state ≠ 3 then d
    else
      let d1 := updLoad (fun l => { l with store := none }) { d with cfg := { d.cfg with nandImages := setAt b bytes d.cfg.nandImages } }
      guardDev (l.dest == 1 || l.installed) loadFinish d1

/-! ### Switching planes (R45-R48) -/

/-- The graphs and folds of the images in the LOADED planes, each once (R45). -/
def loadedUnits (d : Dev) : List Nat × List Nat :=
  let ss (p : Nat) := if (planeOf d p).loaded then (planeOf d p).sections else []
  ((imageGraphs (ss 0) ++ imageGraphs (ss 1)).eraseDups, (imageFolds (ss 0) ++ imageFolds (ss 1)).eraseDups)

/-- The units that a switch selects (R45, R51): graph IDs and 16 * quadrant + fold. An entry that names no graph or fold of either image
selects nothing. (DESIGN CHOICE, log 120.) -/
def switchUnits (d : Dev) (all : Bool) : List Nat × List Nat :=
  let (gs, fs) := loadedUnits d
  if all then (gs, fs)
  else
    let sel := (List.range 16).map (fun n => getR d .cfg 0 (0x40 + 4 * n))
    let valid := sel.filter (fun w => fld w 17 1 == 1)
    (gs.filter (fun g => valid.any (fun w => fld w 16 1 == 0 && fld w 0 16 == g)),
     fs.filter (fun f => valid.any (fun w => fld w 16 1 == 1 && 16 * fld w 4 2 + fld w 0 4 == f)))

/-- The shared entries that a release freed, put back as a switch returns to the plane (R49): regions, program, windows and page-table
seed. (DEDUCED, log 128.) -/
def restoreShared (t : Nat) (d : Dev) : Dev :=
  guardDev (planeOf d t).freed (fun d =>
    let ss := (planeOf d t).sections
    let other := otherSects d t
    let d1 := [0, 1, 2, 3].foldl (fun d q => installQuad ss other (planeOf d (1 - t)).inUse q d) d
    updPlane t (fun x => { x with freed := false }) (installSeed t (seedEntries ss) (installWindows ss other d1))) d

/-- SWITCH_ERR set (R45), with EVSUM.SWITCH. -/
def switchError (n : Nat) (d : Dev) : Dev := evsum 5 (setF .cfg 0 0 12 2 n d)

/-- The switch itself, at its commit DT (R45, R46, R48). -/
def switchTo (t : Nat) (all cut : Bool) (d : Dev) : Dev :=
  let x := planeOf d t
  let o := planeOf d (1 - t)
  if !x.loaded then switchError 1 d
  else if !(all && cut) && x.pred != (if o.loaded then o.gen else 0) then switchError 2 d
  else
    let (gs, fs) := switchUnits d all
    let d1 := { d with cfg := { d.cfg with graphs := movePlane gs t d.dt d.cfg.graphs, folds := movePlane fs t d.dt d.cfg.folds,
                                           lastTarget := some t, leaving := some (1 - t, gs) } }
    let d2 := noteUse t (restoreShared t (setPair .cfg 0 0x20 0x24 d.dt d1))
    let d3 := guardDev cut (voidAll 8 (fun d i =>
      let c := getCtx d i.q i.ctx
      c.plane == 1 - t && gs.contains c.gid)) d2
    checkReleases d3

/-- A write of SWITCH_CTL (R45, R51). -/
def switchCtlEffect (v : W32) (d : Dev) : Dev :=
  guardDev (fld v 0 1 == 1) (switchTo (fld v 3 1) (fld v 2 1 == 1) (fld v 1 1 == 1)) (storeFields switchCtlAddr v d)

/-- The regions and windows that a released image used and the image still in use does not are unused from now on (R44). (DEDUCED, log 22.) -/
def freeShared (ss keep : List Sect) (d : Dev) : Dev :=
  let ent (s : List Sect) (w : Nat) := tableEntry (sectOf s 0xC hubScope) 32 w
  let alone (a b : List Byte) : Bool := !entryUnused a && entryUnused b
  let d1 := [0, 1, 2, 3].foldl (fun d q => (List.range 256).foldl (fun d r =>
    guardDev (alone (regionEntry ss q r) (regionEntry keep q r)) (updRegion q r (fun _ => {})) d) d) d
  let ws := (List.range 64).filter (fun w => alone (ent ss w) (ent keep w))
  { d1 with peer := { d1.peer with table := ws.foldl (fun m w => mapSet [] w [] m) d1.peer.table } }

/-- A plane released at the commit of its record (R44, R49): the page-table entries that its image seeded and an image in use did not
seed become invalid, and the shared entries that its image used alone are freed. (DEDUCED, log 22.) -/
def releasePlane (p : Nat) (d : Dev) : Dev :=
  let other := planeOf d (1 - p)
  let keep := if other.inUse then (d.cfg.seeded.getD (1 - p) []).map (·.1) else []
  let gone := ((d.cfg.seeded.getD p []).map (·.1)).filter (fun i => !keep.contains i)
  let d1 := gone.foldl (fun d i => dropPage i (storePte i 0 d)) d
  let d2 := updPlane p (fun x => { x with inUse := false, freed := true })
    (freeShared (planeOf d p).sections (if other.inUse then other.sections else []) d1)
  evsum 5 { d2 with cfg := { d2.cfg with releasing := d2.cfg.releasing.filter (· != p), seeded := setAt p [] d2.cfg.seeded } }

/-! ### The commands -/

/-- LOAD_START (R40). -/
def execLoadStart (by_ : WriteBy) (v : W32) (s : State) : Out State :=
  onDev (guardDev (fld v 0 1 == 1) (fun d => committedWrite (originOf d by_) loadCtlAddr v (loadCtlEffect v) d)) s

/-- LOAD_ABORT (R41). -/
def execLoadAbort (by_ : WriteBy) (v : W32) (s : State) : Out State :=
  onDev (guardDev (fld v 1 1 == 1) (fun d => committedWrite (originOf d by_) loadCtlAddr v (loadCtlEffect v) d)) s

/-- LOAD_DONE (R40). -/
def execLoadDone (by_ : WriteBy) (v : W32) (s : State) : Out State :=
  onDev (guardDev (fld v 2 1 == 1) (fun d => committedWrite (originOf d by_) loadCtlAddr v (loadCtlEffect v) d)) s

/-- LOAD_RECEIVE_END (R42). -/
def execLoadReceiveEnd (s : State) : Out State := onDev loadReceiveEnd s

/-- LOAD_VALIDATION_DONE (R42). -/
def execLoadValidationDone (s : State) : Out State := onDev (loadValidationDone s.fuse) s

/-- LOAD_INSTALL_DONE (R43). -/
def execLoadInstallDone (s : State) : Out State := onDev (loadInstallDone s.fuse) s

/-- LOAD_NAND_STORE_DONE (R456). -/
def execLoadNandStoreDone (s : State) : Out State := onDev loadNandStoreDone s

/-- SWITCH_COMMIT (R45). -/
def execSwitchCommit (by_ : WriteBy) (v : W32) (s : State) : Out State :=
  onDev (guardDev (fld v 0 1 == 1) (fun d => committedWrite (originOf d by_) switchCtlAddr v (switchCtlEffect v) d)) s

end Sys2Proof.Machine
end

