-- ==== Sys2Proof/Machine/Frames.lean ====
section
/-! DEFINITION. What ports, pipes and engines do to the instance of a frame (R62, R67, R181, R190, R195): find it, void it, set a
flag of its record, set a bit of its event word; and a step's share of a ring (R210). -/

namespace Sys2Proof.Machine

/-- Arbiter kinds of R29. -/
def arbDram : Nat := 0
def arbIssuer : Nat := 1
def arbAccept : Nat := 2
def arbDispatch : Nat := 3
def arbPool : Nat := 4
def arbFlock : Nat := 5
def arbTx : Nat := 6
def arbLink : Nat := 7
def arbNotice : Nat := 8
def arbDrv : Nat := 9
def arbEngine : Nat := 10
def arbMe : Nat := 11
def arbFold : Nat := 12
def arbIsp : Nat := 13
def arbCci : Nat := 14
def arbGc : Nat := 15

/-- The live instance that a frame of a stream opened. -/
def findInst (d : Dev) (stream index : Nat) : Option InstRef :=
  (liveInsts d).find? (fun i => (getCtx d i.q i.ctx).stream == stream && (getCtx d i.q i.ctx).index == index)

/-- A notice of the frame is on its way to its Drover, waits there, or is in test (R178). -/
def noticePending (d : Dev) (stream index : Nat) : Bool :=
  let is (n : FsNotice) := n.stream == stream && n.index == index
  d.fab.notices.any is || d.drv.any (fun e => e.2.waiting.any is || (match e.2.test with
    | some (n, _) => is n
    | none => false))

/-- A frame's instance voided with a reason (R194), by a port on the hub (remote) or by its pipe, which its home quadrant holds (R37);
before its admission the void waits for it. (DEDUCED, log 27 and 133.) -/
def voidFrame (reason : Nat) (remote : Bool) (stream index : Nat) (d : Dev) : Dev :=
  match (voidable d).find? (fun i => (getCtx d i.q i.ctx).stream == stream && (getCtx d i.q i.ctx).index == index) with
  | some i => voidInst reason remote i d
  | none =>
    if noticePending d stream index then
      let d1 := dropFrame stream index d
      let v : EarlyVoid := { stream := stream, index := index, reason := reason, remote := remote, dt := d.dt }
      { d1 with rx := { d1.rx with early := d1.rx.early ++ [v] } }
    else d

/-- The cause that counts among those kept for a frame (R193): of the earliest DT, the first by rank. -/
def firstCause (l : List EarlyVoid) : Option EarlyVoid :=
  l.foldl (fun b v => match b with
    | none => some v
    | some b => if v.dt < b.dt ∨ (v.dt = b.dt ∧ causeRank v.reason < causeRank b.reason) then some v else some b) none

/-- Flags of R190 set in the record of a frame's instance, or kept until its admission. -/
def frameFlag (mask stream index : Nat) (d : Dev) : Dev :=
  match findInst d stream index with
  | some i => updInst i (fun c => { c with flags := c.flags ||| mask }) d
  | none => guardDev (noticePending d stream index)
      (fun d => { d with rx := { d.rx with earlyFlags := d.rx.earlyFlags ++ [(stream, index, mask)] } }) d

/-- A bit of the event word of a frame's instance reported (R181). -/
def frameEvent (bitNo stream index : Nat) (d : Dev) : Dev :=
  match findInst d stream index with
  | some i => report { inst := i, tag := bitNo, code := 0 } d
  | none => d

/-- Deadline of a frame's instance, or none (R28). -/
def frameDl (d : Dev) (stream index : Nat) : Nat :=
  match findInst d stream index with
  | some i => (getCtx d i.q i.ctx).dl
  | none => noDeadline

/-- Attachment and deadline of an event posted for an instance (R313). -/
def instDl (d : Dev) : Option InstRef → Nat
  | some i => (getCtx d i.q i.ctx).dl
  | none => noDeadline

/-- A region has a free slot, or k filled slots (R209, R210). -/
def slotFreeIn (d : Dev) (q r : Nat) : Bool := (getRegion d q r).n != 0 && (getRegion d q r).fill < (getRegion d q r).n
def slotsFilled (d : Dev) (q r k : Nat) : Bool := (getRegion d q r).n != 0 && k ≤ (getRegion d q r).fill

/-- A slot of a region written and committed by a party (R209, R211). -/
def produceSlot (p : Party) (q r : Nat) (bytes : List Byte) (inst : Option InstRef) (d : Dev) : Dev :=
  let g := getRegion d q r
  ringCommit q r p.req inst (spadWrite p q (slotAddr g g.h) bytes d)

/-- A tile row of elements (R100): tiles of 64 x 32, the last column and line repeated to fill. -/
def tileRow (w h r : Nat) (elem : Nat → Nat → List Byte) : List Byte :=
  (List.range (ceilDiv w 64)).flatMap (fun t =>
    (List.range 32).flatMap (fun l =>
      (List.range 64).flatMap (fun c => elem (min (h - 1) (32 * r + l)) (min (w - 1) (64 * t + c)))))

/-- Byte offset of an element in a tile row of elements of e bytes (R100). -/
def tileOff (e y x : Nat) : Nat := (x / 64) * 2048 * e + (y % 32) * 64 * e + (x % 64) * e

end Sys2Proof.Machine
end

