-- ==== Sys2Proof/Machine/Memc.lean ====
section
/-! DEFINITION. DRAM and address translation (R241-R252, R399): the interleave hash, the memory channels' queues, what serving a
request does, translation caches and walks, patrol, calibration and the imbalance monitor, with their commands. -/

namespace Sys2Proof.Machine

/-! ### The interleave hash (R248) -/

/-- A nibble rotated left, and reversed. -/
def rotNib (k n : Nat) : Nat := (n * 2 ^ k % 16) ||| (n / 2 ^ (4 - k))
def revNib (n : Nat) : Nat := 8 * bits n 0 1 + 4 * bits n 1 1 + 2 * bits n 2 1 + bits n 3 1

/-- t(v, i) of R248: 0 identity, 1 to 3 rotations, 4 reversal. -/
def hashKind (v i : Nat) : Nat :=
  (match v with
   | 0 => [0, 0, 0, 0, 0, 0, 0]
   | 1 => [0, 1, 2, 3, 0, 1, 2]
   | 2 => [0, 4, 1, 2, 4, 3, 0]
   | _ => [0, 3, 4, 1, 2, 4, 3]).getD i 0

def hashNib (v i n : Nat) : Nat :=
  match hashKind v i with
  | 0 => n
  | 4 => revNib n
  | k => rotNib k n

/-- Exclusive-or of the mapped nibbles of a granule number from nibble i on. -/
def hashFrom (v i g : Nat) : Nat := ((List.range 7).filter (i ≤ ·)).foldl (fun x k => x ^^^ hashNib v k (bits g (4 * k) 4)) 0

/-- Local memory channel of a quadrant offset under a variant (R248). -/
def hashChannel (v off : Nat) : Nat := hashFrom v 0 (off / 256)

/-- Granule number at a place of a channel: the inverse of the hash. -/
def granuleAt (v ch place : Nat) : Nat := 16 * place + (ch ^^^ hashFrom v 1 (16 * place))

/-- The memory channel, 16 * quadrant + channel, of a physical address under the variant in force. -/
def chanOf (d : Dev) (pa : Nat) : Nat := 16 * (pa / 2 ^ 36 % 4) + hashChannel d.cfg.salt (pa % 2 ^ 36)

def getChan (d : Dev) (c : Nat) : MemChan := mapGet {} c d.memsys.chans
def updChan (c : Nat) (f : MemChan → MemChan) (d : Dev) : Dev :=
  { d with memsys := { d.memsys with chans := mapUpd {} c f d.memsys.chans } }

/-! ### Queues (R241) -/

/-- The lowest free entry of a channel's queue of 32, which a new request takes. (DESIGN CHOICE, log 119.) -/
def freeEntry (m : MemChan) : Option Nat := (List.range 32).find? (fun i => (mapGet none i m.queue).isNone)

/-- The channel of a physical address has a free queue entry (R240). -/
def dramRoom (d : Dev) (pa : Nat) : Bool := (freeEntry (getChan d (chanOf d pa))).isSome

/-- A request put into its channel's queue, or made to wait for an entry. -/
def dramEnter (r : DramReq) (d : Dev) : Dev :=
  let c := chanOf d r.pa
  match freeEntry (getChan d c) with
  | some i => updChan c (fun m => { m with queue := mapSet none i (some r) m.queue }) d
  | none => { d with memsys := { d.memsys with stalled := d.memsys.stalled ++ [r] } }

/-- An event of a request's, in a quadrant (R436). -/
def reqEv (q e n : Nat) (f : ReqFor) (d : Dev) : Dev := if f.q = 4 then d else pmuEv q e n f.by_ (.dva f.dva) d

/-- A new request, counted as one to the requester's own controllers or to another quadrant's, whose link a write's bytes cross. -/
def dramQueue (r : DramReq) (d : Dev) : Dev :=
  let home := r.pa / 2 ^ 36 % 4
  let w := if r.write ∧ r.for_.q ≠ home then r.len else 0
  dramEnter r (quadBytes r.for_.q home w (guardDev (r.for_.q != 4) (pmuEv r.for_.q 62 w r.for_.by_ r.for_.src)
    (reqEv r.for_.q (if r.for_.q = home then 36 else 37) 1 r.for_ d)))

/-- The 32-byte blocks that a byte range covers whole, and those it covers in part. -/
def blocksOf (pa len : Nat) : List Nat :=
  if len = 0 then [] else (List.range ((pa + len - 1) / 32 - pa / 32 + 1)).map (· + pa / 32)
def wholeBlock (pa len b : Nat) : Bool := pa ≤ 32 * b && 32 * b + 32 ≤ pa + len

/-- A block whose check bits say that it is uncorrectable (R247). -/
def blockBad (d : Dev) (b : Nat) : Bool := mapGet 0 (b % 2 ^ 33) d.mem.dramBad == 2
def markBlock (b v : Nat) (d : Dev) : Dev := { d with mem := { d.mem with dramBad := mapSet 0 (b % 2 ^ 33) v d.mem.dramBad } }

/-- A write accepted into a memory controller's queue (R233): from here on it counts as made. Blocks covered whole get fresh check
bits; a waiting rewrite of the granule is dropped (R246, R399). -/
def dramAccept (dl pa : Nat) (bs : List Byte) (f : ReqFor) (d : Dev) : Dev :=
  let d1 := dramWrite pa bs d
  let d2 := ((blocksOf pa bs.length).filter (wholeBlock pa bs.length)).foldl (fun d b => markBlock b 0 d) d1
  let d3 := updChan (chanOf d2 pa) (fun m => { m with rewrite := m.rewrite.filter (· != pa / 256) }) d2
  dramQueue { dl := dl, pa := pa, len := bs.length, write := true, for_ := f } d3

/-! ### Serving a request (R241, R246, R247) -/

/-- A counter of a memory controller. -/
def memCnt (q i n : Nat) (d : Dev) : Dev := addCnt .memc q (0xC0 + 4 * i) n d

/-- The check line of a granule: 64 bytes for 1 KiB of the channel's data (R246). (DEDUCED, log 67.) -/
def checkLine (pa : Nat) : Nat := pa % 2 ^ 36 / 4096 / 4

/-- The check line brought to the front of the channel's cache of 512; a miss adds a 64-byte read. -/
def touchCheck (c line : Nat) (f : ReqFor) (d : Dev) : Dev :=
  let m := getChan d c
  let d1 := updChan c (fun m => { m with check := (line :: m.check.filter (· != line)).take 512 }) d
  if m.check.contains line then d1 else reqEv (c / 16) 38 1 f (memCnt (c / 16) 3 1 (addCnt .memc (c / 16) (0x80 + 4 * (c % 16)) 1 d1))

/-- A corrected block noted, its granule to be rewritten in a reserved slot (R247, R399). -/
def noteDramCe (pa : Nat) (d : Dev) : Dev :=
  let q := pa / 2 ^ 36 % 4
  updChan (chanOf d pa) (fun m => { m with rewrite := m.rewrite.filter (· != pa / 256) ++ [pa / 256] })
    (orR .memc q 4 1 (setPair .memc q 8 0xC (pa % 2 ^ 36 / 32 * 32) (memCnt q 0 1 d)))

/-- What the memory hands back for the blocks that an access reads: a new uncorrectable error stays in its block until fresh check bits
are stored. (DEDUCED, log 67.) -/
def eccArrives (e : EccResult) (blocks : List Nat) (d : Dev) : Dev :=
  match e with
  | .uncorrectable k => match blocks[k.val]? with
    | some b => markBlock b 2 d
    | none => d
  | _ => d

/-- The block that a read corrects, where it holds no older error (R247). -/
def correctedBlock (e : EccResult) (blocks : List Nat) (d : Dev) : Option Nat :=
  match e with
  | .corrected k => (blocks[k.val]?).filter (fun b => !blockBad d b)
  | _ => none

/-- The blocks that an access reads: a read its own, a write those that it covers in part (R246). -/
def readBlocks (write : Bool) (pa len : Nat) : List Nat :=
  if write then (blocksOf pa len).filter (fun b => !wholeBlock pa len b) else blocksOf pa len

/-- The quadrant that reads. -/
def MemWho.quad : MemWho → Nat
  | .dmaRead ch _ _ => ch / 64
  | .dmaWrite ch _ => ch / 64
  | .gcData g _ _ => g / 64
  | .gcFetch g _ _ => g / 64
  | .meFetch m _ _ => m / 8
  | .posted => 4

/-- VX cycles that correction and the way to another quadrant add to a read (R15, R19, R247). -/
def readDelay (who : MemWho) (pa : Nat) (corrected : Bool) : Nat :=
  (if corrected then 16 else 0) + (if who.quad = 4 ∨ who.quad = pa / 2 ^ 36 % 4 then 0 else 48)

/-- A read served: its bytes go back to the reader, marked where a block is uncorrectable. -/
def serveRead (r : DramReq) (e : EccResult) (vx : Nat) (d : Dev) : Dev :=
  let bad := (blocksOf r.pa r.len).filter (blockBad d)
  let d1 := bad.foldl (fun d b => noteDramUe (32 * b) d) d
  let ce := correctedBlock e (blocksOf r.pa r.len) d
  let d2 := match ce with
    | some b => noteDramCe (32 * b) d1
    | none => d1
  if r.who = .posted then d2
  else
    let x : MemReturn := { who := r.who, pa := r.pa, bytes := dramPeek d r.pa r.len, bad := !bad.isEmpty,
                           due := vxAt d vx + readDelay r.who r.pa ce.isSome }
    quadBytes (r.pa / 2 ^ 36 % 4) r.who.quad r.len { d2 with memsys := { d2.memsys with returns := d2.memsys.returns ++ [x] } }

/-- A write served: each block covered in part is a read-modify-write, whose read may be corrected (R247), and which keeps an
uncorrectable block poisoned (R246). -/
def serveWrite (r : DramReq) (e : EccResult) (d : Dev) : Dev :=
  let blocks := readBlocks true r.pa r.len
  let d0 := match correctedBlock e blocks d with
    | some b => noteDramCe (32 * b) d
    | none => d
  blocks.foldl (fun d b =>
    guardDev (blockBad d b) (noteDramUe (32 * b))
      (reqEv (r.pa / 2 ^ 36 % 4) 39 1 r.for_ (memCnt (r.pa / 2 ^ 36 % 4) 2 1 d))) d0

/-- Requests that waited for an entry enter the queues that have one. -/
def admitStalled (d : Dev) : Dev :=
  d.memsys.stalled.foldl (fun d r => dramEnter r d) { d with memsys := { d.memsys with stalled := [] } }

/-- The arbiter's choice among the requests whose bank is ready, served (R27, R241). -/
def serveQueue (c : Nat) (ready : BitVec 32) (e : EccResult) (vx : Nat) (d : Dev) : Dev :=
  let m := getChan d c
  let reqs := (List.range 32).filterMap (fun i =>
    match mapGet none i m.queue with
    | some r => if ready.getLsbD i then some (⟨i, r.dl, 0⟩ : ArbReq) else none
    | none => none)
  let w := arbitrate arbDram c 32 reqs d
  match w.1 with
  | none => w.2
  | some i =>
    match mapGet none i m.queue with
    | none => w.2
    | some r =>
      let d1 := updChan c (fun m => { m with queue := mapSet none i none m.queue }) w.2
      let d2 := touchCheck c (checkLine r.pa) r.for_ (addCnt .memc (c / 16) (0x80 + 4 * (c % 16)) 1 (eccArrives e (readBlocks r.write r.pa r.len) d1))
      admitStalled (if r.write then serveWrite r e d2 else serveRead r e vx d2)

/-- The channel works: it is trained and out of self-refresh (R252, R391). -/
def chanWorks (d : Dev) (c : Nat) : Bool := getF d .memc (c / 16) 0 0 1 == 1 && !d.memsys.selfRefresh.contains (c / 16)

/-- One burst slot used, of a block of 200. -/
def useSlot (c : Nat) (reserved : Bool) (d : Dev) : Dev :=
  updChan c (fun m =>
    let s := (m.slot + 1) % 200
    { m with slot := s, reserved := if s = 0 then 0 else m.reserved + b2n reserved }) d

/-- DRAM_REQUEST_SERVE (R241): an ordinary burst slot serves the queue. (DEDUCED, log 67.) -/
def dramServe (c : Nat) (ready : BitVec 32) (e : EccResult) (vx : Nat) (d : Dev) : Dev :=
  let m := getChan d c
  guardDev (chanWorks d c && m.slot < 197 + m.reserved && (List.range 32).any (fun i =>
      ready.getLsbD i && (mapGet none i m.queue).isSome))
    (fun d => serveQueue c ready e vx (useSlot c false d)) d

/-! ### Background work (R241, R399) -/

/-- A patrol read of the channel's next granule (R399), in ascending place. -/
def patrolStep (c : Nat) (e : EccResult) (d : Dev) : Dev :=
  let m := getChan d c
  let q := c / 16
  let pa := 2 ^ 36 * q + 256 * granuleAt d.cfg.salt (c % 16) m.patrol
  let next := if m.patrol + 1 = 15728640 then 0 else m.patrol + 1
  let d1 := updChan c (fun m => { m with patrol := next, patrolAt := d.dt }) (memCnt q 4 1 (eccArrives e (blocksOf pa 256) d))
  let bad := (blocksOf pa 256).filter (blockBad d1)
  let d2 := bad.foldl (fun d b => noteDramUe (32 * b) d) d1
  let d3 := match correctedBlock e (blocksOf pa 256) d with
    | some b => noteDramCe (32 * b) d2
    | none => d2
  if next ≠ 0 then d3
  else
    let n := mapGet 0 q d3.memsys.passes + 1
    guardDev (n == 16) (addCnt .tel 0 (0x80 + 4 * 5) 1)
      { d3 with memsys := { d3.memsys with passes := mapSet 0 q (n % 16) d3.memsys.passes } }

def patrolDue (d : Dev) (c : Nat) : Bool := (getChan d c).patrolAt + 686645 ≤ d.dt
def zqDueNow (d : Dev) (c : Nat) : Bool := (getChan d c).zqAt + 4000000 ≤ d.dt
def zqStep (c : Nat) (d : Dev) : Dev := updChan c (fun m => { m with zqAt := d.dt }) d

/-- One reserved slot of the channel taken by work (R241): three of every 200. -/
def inReserved (c : Nat) (lent : Bool) (f : Dev → Dev) (d : Dev) : Dev :=
  let m := getChan d c
  guardDev (chanWorks d c && m.reserved < 3)
    (fun d => memCnt (c / 16) (if lent then 7 else 6) 1 (f (useSlot c true d))) d

/-- DRAM_RESERVED_SLOT (R241). (DEDUCED, log 68.) -/
def reservedSlot (c : Nat) (w : SlotWork) (ready : BitVec 32) (e : EccResult) (vx : Nat) (d : Dev) : Dev :=
  match w with
  | .refresh => inReserved c false (fun d => d) d
  | .rewrite => guardDev (!(getChan d c).rewrite.isEmpty)
      (inReserved c false (updChan c (fun m => { m with rewrite := m.rewrite.tail }))) d
  | .patrol => guardDev (patrolDue d c) (inReserved c false (patrolStep c e)) d
  | .zq => guardDev (zqDueNow d c) (inReserved c false (zqStep c)) d
  | .retrain last => guardDev (getChan d c).retrain
      (inReserved c false (fun d => addCnt .tel 0 (0x80 + 4 * 6) 1 (updChan c (fun m => { m with retrain := !last }) d))) d
  | .queue => inReserved c true (serveQueue c ready e vx) d

/-- PATROL_READ and ZQ_CALIBRATION (R399), each in a reserved slot. -/
def patrolRead (c : Nat) (e : EccResult) (d : Dev) : Dev := guardDev (patrolDue d c) (inReserved c false (patrolStep c e)) d
def zqCalibration (c : Nat) (d : Dev) : Dev := guardDev (zqDueNow d c) (inReserved c false (zqStep c)) d

/-- DQS_OSCILLATOR_READ (R399): a drift above the training margin starts retraining. -/
def dqsRead (c : Nat) (drift : Bool) (d : Dev) : Dev :=
  guardDev (chanWorks d c && (getChan d c).oscAt + 125000 ≤ d.dt)
    (updChan c (fun m => { m with oscAt := d.dt, retrain := m.retrain || drift })) d

/-! ### The imbalance monitor (R249) -/

/-- Requests queued in a channel. -/
def queueDepth (d : Dev) (c : Nat) : Nat := ((getChan d c).queue.filter (fun e => e.2.isSome)).length

/-- The fullest channel of a quadrant, the lowest of those, with its depth; and the quadrant's total. -/
def fullest (d : Dev) (q : Nat) : Nat × Nat :=
  (List.range 16).foldl (fun b k => let n := queueDepth d (16 * q + k); if b.2 < n then (k, n) else b) (0, 0)
def queuedIn (d : Dev) (q : Nat) : Nat := ((List.range 16).map (fun k => queueDepth d (16 * q + k))).foldl (· + ·) 0

/-- The condition of R249. -/
def imbalanced (d : Dev) (q : Nat) : Bool := 16 ≤ queuedIn d q && 3 * queuedIn d q < 4 * (fullest d q).2

/-- The monitor's sample of one DT. -/
def imbSample (q : Nat) (d : Dev) : Dev :=
  if imbalanced d q then { d with memsys := { d.memsys with imb := mapUpd 0 q (· + 1) d.memsys.imb } }
  else { d with memsys := { d.memsys with imb := mapSet 0 q 0 d.memsys.imb, imbMs := mapSet 0 q 0 d.memsys.imbMs } }

/-- IMBALANCE (R249): a whole millisecond of the condition is counted, and at the first the event is posted. (DEDUCED, log 68.) -/
def imbalance (q : Nat) (d : Dev) : Dev :=
  let ms := mapGet 0 q d.memsys.imbMs
  if mapGet 0 q d.memsys.imb < 125000 * (ms + 1) then d
  else
    let d1 := addCnt .memc q 0x28 1 { d with memsys := { d.memsys with imbMs := mapSet 0 q (ms + 1) d.memsys.imbMs } }
    if ms ≠ 0 then d1
    else
      let ch := (fullest d q).1
      let d2 := orR .memc q 4 4 (setF .memc q 0x24 4 4 ch (memCnt q 5 1 d1))
      post { q := q, src := 170, dl := noDeadline,
             ev := { typ := 0x0A, cls := getF d .memc q 0x2C 24 3, key := getF d .memc q 0x2C 0 24, dl32 := 0xFFFFFFFF, payload := ch } } d2

/-! ### Translation (R242-R245, R251) -/

/-- What a translation gives: a physical address, a wait for a walk, or a fault with its cause. -/
inductive Xlated where
  | pa (a : Nat)
  | wait
  | fault (cause : Nat)
  deriving DecidableEq, Repr

def pageUse : Nat → PageUse
  | 0 => .read
  | 1 => .write
  | _ => .fetch

/-- Entries of a translation cache (R244). -/
def cacheSize (c : Nat) : Nat := if c < 32 then 64 else if c < 64 then 32 else if c < 128 then 64 else 16
def getCache (d : Dev) (c : Nat) : List (Nat × Nat) := mapGet [] c d.memsys.caches
def setCache (c : Nat) (l : List (Nat × Nat)) (d : Dev) : Dev :=
  { d with memsys := { d.memsys with caches := mapSet [] c l d.memsys.caches } }
def walksOf (d : Dev) (q : Nat) : List Walk := mapGet [] q d.memsys.walks

/-- A translation looked up (R251, R436). -/
def xltLookup (q : Nat) (w : Walk) (d : Dev) : Dev := reqEv q 32 1 w.for_ (addCnt .xlt q 0x40 1 d)

/-- A translation through a cache, its walk started on a miss while the quadrant's walker has fewer than 8 in flight. (DEDUCED, log 69.) -/
def translate (q : Nat) (w : Walk) (vx : Nat) (d : Dev) : Xlated × Dev :=
  let p := pageOf w.dva
  if w.dva / 2 ^ 38 ≠ 0 then (.fault 1, reqEv q 35 1 w.for_ (noteFault q w.dva 1 w.source (xltLookup q w d)))
  else
    match (getCache d w.cache).find? (fun e => e.1 == p) with
    | some e =>
      let d1 := setCache w.cache (e :: (getCache d w.cache).filter (fun x => x.1 != p)) (xltLookup q w d)
      let c := pteCause e.2 (pageUse w.use)
      if c = 0 then (.pa (paOf w.dva e.2), d1) else (.fault c, reqEv q 35 1 w.for_ (noteFault q w.dva c w.source d1))
    | none =>
      if (walksOf d q).any (fun x => x.cache == w.cache && pageOf x.dva / 8 == p / 8 && x.who == w.who) || 8 ≤ (walksOf d q).length then (.wait, d)
      else
        let d1 := reqEv q 34 1 w.for_ (addCnt .xlt q 0x48 1 (reqEv q 33 1 w.for_ (addCnt .xlt q 0x44 1 (xltLookup q w d))))
        let x := { w with due := vxAt d vx + (if q = 0 then 80 else 128) }
        (.wait, { d1 with memsys := { d1.memsys with walks := mapUpd [] q (· ++ [x]) d1.memsys.walks } })

/-- The 64-byte page-table line of a page's entry holds an uncorrectable block (R243, R247): the first such block. -/
def badPteBlock (d : Dev) (p : Nat) : Option Nat := [pteAddr p / 64 * 2, pteAddr p / 64 * 2 + 1].find? (blockBad d)

/-- The line's valid entries installed, the wanted one used last (R244). -/
def installLine (cache page : Nat) (d : Dev) : Dev :=
  let others := ((List.range 8).map (· + page / 8 * 8)).filter (fun i => i != page && bit (pteAt d i) 0)
  let old := (getCache d cache).filter (fun e => e.1 / 8 != page / 8)
  setCache cache ((((page :: others).map (fun i => (i, pteAt d i))) ++ old).take (cacheSize cache)) d

def returnMem (x : MemReturn) (d : Dev) : Dev := { d with memsys := { d.memsys with returns := d.memsys.returns ++ [x] } }

/-- TRANSLATION_WALK_DONE (R244): the quadrant's walk that is due first returns. (DEDUCED, log 69.) -/
def walkDone (q vx : Nat) (d : Dev) : Dev :=
  let now := vxAt d vx
  match (walksOf d q).find? (fun w => w.due ≤ now && (walksOf d q).all (fun o => w.due ≤ o.due)) with
  | none => d
  | some w =>
    let d1 := { d with memsys := { d.memsys with walks := mapUpd [] q (·.erase w) d.memsys.walks } }
    let p := pageOf w.dva
    let e := pteAt d1 p
    match badPteBlock d1 p with
    | some blk => returnMem { who := w.who, fault := some (0, w.dva), bad := true, due := now } (reqEv q 35 1 w.for_ (noteDramUe (32 * blk) d1))
    | none =>
      let c := pteCause e (pageUse w.use)
      if c ≠ 0 then returnMem { who := w.who, fault := some (c, w.dva), due := now } (reqEv q 35 1 w.for_ (noteFault q w.dva c w.source d1))
      else
        let d2 := installLine w.cache p d1
        let pa := paOf w.dva e
        match w.who with
        | .dmaRead _ _ _ => d2
        | .dmaWrite _ _ => d2
        | .posted => d2
        | _ => if w.len = 0 then returnMem { who := w.who, pa := pa, due := now } d2
               else dramQueue { dl := w.dl, pa := pa, len := w.len, who := w.who, for_ := w.for_ } d2

/-! ### The image pipes' translations (R244) -/

/-- A page of an image pipe's access, through the cache that the quadrant's pipes share: its entry, or a cause, 0 with the physical
address of an uncorrectable page-table block. The pipe goes on with its line, so that its walk is over within the command. (DEDUCED, log 69.) -/
def pipeXlate (pipe : Nat) (u : PageUse) (dva : Nat) (d : Dev) : Except (Nat × Nat) Nat × Dev :=
  let q := pipe / 4
  let f : ReqFor := { q := q, by_ := byMaster 5 (pipe % 4), dva := dva }
  let p := pageOf dva
  let d1 := reqEv q 32 1 f (addCnt .xlt q 0x40 1 d)
  let judge (e : Nat) (d : Dev) : Except (Nat × Nat) Nat × Dev :=
    if pteCause e u = 0 then (.ok e, d) else (.error (pteCause e u, dva), reqEv q 35 1 f d)
  if dva / 2 ^ 38 ≠ 0 then (.error (1, dva), reqEv q 35 1 f d1)
  else
    match (getCache d (64 + q)).find? (fun e => e.1 == p) with
    | some e => judge e.2 (setCache (64 + q) (e :: (getCache d (64 + q)).filter (fun x => x.1 != p)) d1)
    | none =>
      let d2 := reqEv q 34 1 f (addCnt .xlt q 0x48 1 (reqEv q 33 1 f (addCnt .xlt q 0x44 1 d1)))
      match badPteBlock d2 p with
      | some b => (.error (0, 32 * b), reqEv q 35 1 f d2)
      | none => judge (pteAt d2 p) (guardDev (pteCause (pteAt d2 p) u == 0) (installLine (64 + q) p) d2)

/-- A pipe's ranges translated page by page: the first fault, and the entries met, by page. -/
def pipePages (pipe : Nat) : List (Nat × PageUse) → SMap Nat → Dev → Option (Nat × Nat) × SMap Nat × Dev
  | [], pt, d => (none, pt, d)
  | (a, u) :: r, pt, d =>
    match pipeXlate pipe u a d with
    | (.error f, d1) => (some f, pt, d1)
    | (.ok e, d1) => pipePages pipe r (mapSet 0 (pageOf a) e pt) d1

/-- The physical address of a DVA under the entries that an access has met. -/
def paVia (pt : SMap Nat) (dva : Nat) : Nat := paOf dva (mapGet 0 (pageOf dva) pt)

/-- The first uncorrectable 32-byte block of a DVA range under a translation, as a physical address. -/
def badVia (d : Dev) (pa : Nat → Nat) (dva len : Nat) : Option Nat :=
  if len = 0 then none
  else (((List.range ((dva + len - 1) / 32 - dva / 32 + 1)).map (fun k => pa ((dva / 32 + k) * 32))).find? (fun a => blockBad d (a / 32)))

/-- The ranges that a pipe reads and writes: their first fault, a cause and the DVA or 0 and the physical address of an uncorrectable
block, and the entries met. -/
def pipeRanges (pipe : Nat) (rs : List (Nat × Nat × PageUse)) (pt : SMap Nat) (d : Dev) : Option (Nat × Nat) × SMap Nat × Dev :=
  let r := pipePages pipe (rs.flatMap (fun x => (dvaPages x.1 x.2.1).map (fun a => (a, x.2.2)))) pt d
  match r.1 with
  | some f => (some f, r.2)
  | none =>
    match rs.findSome? (fun x => if x.2.2 == .read then badVia r.2.2 (paVia r.2.1) x.1 x.2.1 else none) with
    | some a => (some (0, a), r.2)
    | none => r

/-- Addresses of Q0.XLT.PTE_CTL and of a quadrant's XLT.INV_CTL. -/
def pteCtlAddr : Nat := addrOf .xlt 0 0x1C
def invCtlAddr (q : Nat) : Nat := addrOf .xlt q 8

/-- The page-table registers of quadrants 1 to 3, which read 0 and ignore writes (R245). -/
def ptePassive (q off : Nat) : Bool := q != 0 && decide (0x10 ≤ off) && decide (off < 0x20)

/-- A control write of XLT waits for its record: the operation that it asks for is in progress (R245, R251). (DEDUCED, log 134.) -/
def xltAsked (d : Dev) (a bit_ : Nat) : Bool :=
  d.log.reqs.any (fun r => match r.act with
    | .write _ x v _ => x == a && fld v bit_ 1 == 1
    | _ => false)

/-- A write of Q0.XLT.PTE_CTL (R245, R251): WRITE stores the entry and drops it from every cache, READ loads it. -/
def pteCtlEffect (v : W32) (d : Dev) : Dev :=
  let i := getF d .xlt 0 0x10 0 24
  let d1 := guardDev (fld v 0 1 == 1) (fun d => dropPage i (storePte i (getPair d .xlt 0 0x14 0x18) d)) d
  guardDev (fld v 1 1 == 1) (fun d => setPair .xlt 0 0x14 0x18 (pteAt d i) d) d1

/-- A write of INV_CTL (R251): the range dropped from this quadrant's caches. -/
def invCtlEffect (q : Nat) (v : W32) (d : Dev) : Dev :=
  let first := getF d .xlt q 0 0 24
  let n := getF d .xlt q 4 0 25
  guardDev (fld v 0 1 == 1)
    (dropEntries (fun c => cacheQuad c == q) (fun p => n == 0 || (first ≤ p && p < first + n))) d

/-! ### The commands -/

/-- TRANSLATION_WALK_DONE (R244). -/
def execTranslationWalkDone (q : Fin 4) (vx : Fin 5) (s : State) : Out State := onDev (walkDone q.val vx.val) s

/-- PTE_WRITE (R245). -/
def execPteWrite (by_ : WriteBy) (v : W32) (s : State) : Out State :=
  onDev (guardDev (fld v 0 1 == 1) (fun d => committedWrite (originOf d by_) pteCtlAddr v (pteCtlEffect v) d)) s

/-- PTE_READ (R251). -/
def execPteRead (by_ : WriteBy) (v : W32) (s : State) : Out State :=
  onDev (guardDev (fld v 1 1 == 1) (fun d => committedWrite (originOf d by_) pteCtlAddr v (pteCtlEffect v) d)) s

/-- XLT_INVALIDATE (R251). -/
def execXltInvalidate (by_ : WriteBy) (q : Fin 4) (v : W32) (s : State) : Out State :=
  onDev (guardDev (fld v 0 1 == 1) (fun d => committedWrite (originOf d by_) (invCtlAddr q.val) v (invCtlEffect q.val v) d)) s

/-- DRAM_REQUEST_SERVE (R241). -/
def execDramRequestServe (chan : Fin 64) (ready : BitVec 32) (ecc : EccResult) (vx : Fin 5) (s : State) : Out State :=
  onDev (dramServe chan.val ready ecc vx.val) s

/-- DRAM_RESERVED_SLOT (R241). -/
def execDramReservedSlot (chan : Fin 64) (work : SlotWork) (ready : BitVec 32) (ecc : EccResult) (vx : Fin 5) (s : State) : Out State :=
  onDev (reservedSlot chan.val work ready ecc vx.val) s

/-- PATROL_READ (R399). -/
def execPatrolRead (chan : Fin 64) (ecc : EccResult) (s : State) : Out State := onDev (patrolRead chan.val ecc) s

/-- ZQ_CALIBRATION (R399). -/
def execZqCalibration (chan : Fin 64) (s : State) : Out State := onDev (zqCalibration chan.val) s

/-- DQS_OSCILLATOR_READ (R399). -/
def execDqsOscillatorRead (chan : Fin 64) (drift : Bool) (s : State) : Out State := onDev (dqsRead chan.val drift) s

/-- IMBALANCE (R249). -/
def execImbalance (q : Fin 4) (s : State) : Out State := onDev (imbalance q.val) s

end Sys2Proof.Machine
end

