-- ==== Sys2Proof/Machine/Dma.lean ====
section
/-! DEFINITION. DMA channels (R228-R240): register sets and starts, shapes and reshuffles, bursts, rings, stops, and the issuer of a
quadrant, with the commands that move data. -/

namespace Sys2Proof.Machine

/-! ### Shape at the start (R230-R232, R234, R235, R331) -/

def volumeOk (s : DmaSet) : Bool :=
  let e := setEsize s
  let p := setPlanes s
  let planar (ll lc pl pc unit div : Nat) := ll % unit == 0 && ll == pl * div && lc == pc
  match setMode s with
  | 0 => srcLen s * srcCount s == dstLen s * dstCount s
  | 1 => planar (srcLen s) (srcCount s) (dstLen s) (dstCount s) (p * e) p
  | 2 => planar (dstLen s) (dstCount s) (srcLen s) (srcCount s) (p * e) p
  | 3 => planar (srcLen s) (srcCount s) (dstLen s) (2 * dstCount s) (2 * e) 2
  | 4 => planar (dstLen s) (dstCount s) (srcLen s) (2 * srcCount s) (2 * e) 2
  | 5 => planar (srcLen s) (srcCount s) (dstLen s) (dstCount s) p p
  | 6 => planar (dstLen s) (dstCount s) (srcLen s) (srcCount s) p p
  | _ => false

/-- Quadrant of a scratchpad end (R230). -/
def srcQuad (s : DmaSet) : Nat := fld (setW s 10) 4 2
def dstQuad (s : DmaSet) : Nat := fld (setW s 10) 20 2

/-- A bound side names a ring region of the channel's own quadrant, with lines in a slot (R234). -/
def boundOk (d : Dev) (q kind quad ring lines : Nat) : Bool :=
  let g := getRegion d q ring
  kind == 1 && quad == q && g.n != 0 && g.kind == 1 && lines != 0

/-- Words of a scratchpad end (R230): its length, stride and, on the planar side, plane stride. -/
def spadShape (s : DmaSet) (len : Nat) (strideWord : W32) (planar : Bool) : Bool :=
  len % 8 == 0 && strideWord.toNat % 8 == 0 && (!planar || (setW s 12).toNat % 8 == 0)

/-- The fields of a set are valid and its sides agree (R231); for code 7 they are not. A destination port needs a TXMAP entry that
names the channel (R331). (DEDUCED, log 61.) -/
def dmaShapeOk (d : Dev) (ch : Nat) (s : DmaSet) : Bool :=
  let q := ch / 64
  let sk := setSrcKind s
  let dk := setDstKind s
  let m := setMode s
  let fields := sk ≤ 3 && dk ≤ 3 && fld (setW s 11) 4 2 != 3
    && (!(m == 1 || m == 2) || (2 ≤ setPlanes s && setPlanes s ≤ 8)) && dstLen s != 0
    && (dk != 1 || spadShape s (dstLen s) (setW s 8) (planarDst s))
    && (!dstBound s || boundOk d q dk (dstQuad s) (dstRing s) (dstSlotLines s))
    && (dk != 3 || (txEntryFor d (s.starter.inst.map (instPlane d)) ch).isSome)
  if sk = 3 then fields && dstBound s && m == 0
  else
    fields && srcLen s != 0 && srcCount s != 0 && dstCount s != 0 && volumeOk s
      && (sk != 1 || spadShape s (srcLen s) (setW s 5) (planarSrc s))
      && (!srcBound s || boundOk d q sk (srcQuad s) (srcRing s) (srcSlotLines s))

/-! ### Starts (R228) -/

/-- The counts of the bound sides at the start (R234). -/
def beginSet (ch : Nat) (d : Dev) (s : DmaSet) : DmaSet :=
  if s.begun then s
  else { s with begun := true, srcFrom := tailFor d (ch / 64) (srcRing s) (ch % 64), dstFrom := (getRegion d (ch / 64) (dstRing s)).h }

/-- NEXT becomes ACTIVE (R236); one that has moved all its bytes under PREARM, or has met a fault, ends at once. (DEDUCED, log 65.) -/
def activateNext (ch : Nat) (d : Dev) : Dev :=
  let c := getCh d ch
  match c.active, c.next with
  | none, some n =>
    if !c.ended then d
    else
      let d1 := updCh ch (fun c => { c with active := some (beginSet ch d n), next := none, ended := false }) d
      match n.fault with
      | some f => dmaEnd ch f.code f.side f.cause f.addr d1
      | none => guardDev (setSrcKind n != 3 && n.written == setVolume n) (dmaEnd ch 0 0 0 0) d1
  | _, _ => d

/-- A start with a register image (R228, R231): into ACTIVE or NEXT, or refused with code 8; with an invalid shape it moves nothing
and ends with code 7. A completion of the same cycle comes first (R239). (DEDUCED, log 61 and 65.) -/
def dmaStart (ch : Nat) (regs : List W32) (dl : Nat) (starter : Starter) (d : Dev) : Dev :=
  let q := ch / 64
  let d0 := activateNext ch { d with serial := d.serial + 1 }
  let s : DmaSet := { no := d.serial, regs := regs, dl := dl, starter := starter }
  let c := getCh d0 ch
  if c.active.isSome && c.next.isSome then
    dmaFinish ch s 8 0 0 0 8 (orR .dmac q 8 1 (addCnt .dmac q 0x20 1 d0))
  else if !dmaShapeOk d0 ch s then dmaFinish ch s 7 0 0 0 7 (orR .dmac q 8 2 d0)
  else
    addCnt .dmac q 0x18 1
      (if c.active.isNone then updCh ch (fun c => { c with active := some (beginSet ch d0 s), ended := false }) d0
       else updCh ch (fun c => { c with next := some s }) d0)

/-- The staging set of a channel as a register image: words 0x00 to 0x7C (R229). -/
def stagingRegs (d : Dev) (ch : Nat) : List W32 := (List.range 32).map (fun i => getR d .ch ch (4 * i))

/-! ### Geometry (R231, R232, R234) -/

/-- Place of a destination byte in the order of its side: plane, line and offset in the line. -/
def dstPlace (s : DmaSet) (p : Nat) : Nat × Nat × Nat :=
  if planarDst s then
    let u := p % unitBytes s
    (u / dstLen s, p / unitBytes s, u % dstLen s)
  else (0, p / dstLen s, p % dstLen s)

/-- The source bytes of a destination byte, as plane, line and offset: one in modes 0 to 4, eight in modes 5 and 6, from whose bits it
is put together (R232). -/
def srcNeeds (s : DmaSet) (p : Nat) : List (Nat × Nat × Nat) :=
  let (k, i, o) := dstPlace s p
  let e := setEsize s
  let n := setPlanes s
  match setMode s with
  | 0 => [(0, p / srcLen s, p % srcLen s)]
  | 1 => [(0, i, (o / e * n + k) * e + o % e)]
  | 2 => [(o / e % n, i, o / e / n * e + o % e)]
  | 3 => [(0, 2 * i + k / 2, (2 * (o / e) + k % 2) * e + o % e)]
  | 4 => [(2 * (i % 2) + o / e % 2, i / 2, o / e / 2 * e + o % e)]
  | 5 => (List.range 8).map (fun t => (0, i, (8 * o + t) * e + k / 8))
  | _ => (List.range 8).map (fun t => (8 * (o % e) + t, i, o / e / 8))

/-- A destination byte from its source bytes (R232). -/
def combineByte (s : DmaSet) (p : Nat) (bs : List Byte) : Byte :=
  let (k, _, o) := dstPlace s p
  let gather (b : Nat) := BitVec.ofNat 8 (((List.range 8).map (fun t => 2 ^ t * bits (byteAt bs t) b 1)).foldl (· + ·) 0)
  match setMode s with
  | 5 => gather (k % 8)
  | 6 => gather (o / setEsize s % 8)
  | _ => bs.getD 0 0#8

/-- Address of a byte of a side: scratchpad byte, DVA, or window offset. -/
def endAddr (d : Dev) (ch : Nat) (s : DmaSet) (src : Bool) (place : Nat × Nat × Nat) : Nat :=
  let (k, i, o) := place
  let stride := if src then srcStride s else dstStride s
  let planes : Int := if (if src then planarSrc s else planarDst s) then (k : Int) * toSigned 32 (setW s 12).toNat else 0
  let a := if src then srcAddr s else dstAddr s
  if (if src then srcBound s else dstBound s) then
    let g := getRegion d (ch / 64) (if src then srcRing s else dstRing s)
    let lines := if src then srcSlotLines s else dstSlotLines s
    let c := (if src then s.srcFrom else s.dstFrom) + i / lines
    ofSigned 26 (((slotAddr g c + 8 * (a % 2 ^ 23) : Nat) : Int) + ((i % lines : Nat) : Int) * stride + planes + (o : Nat))
  else if (if src then setSrcKind s else setDstKind s) = 1 then
    ofSigned 26 (((8 * (a % 2 ^ 23) : Nat) : Int) + (i : Int) * stride + planes + (o : Nat))
  else ofSigned 48 ((a : Int) + (i : Int) * stride + planes + (o : Nat))

/-- An end on which a burst crosses no 256-byte boundary (R233). -/
def aligned256 (kind : Nat) : Bool := kind == 0 || kind == 2

/-- How many of n destination bytes from a place on have their source bytes, on each plane, in one line and, where the source end keeps to
it, in one 256-byte granule (R233). (DEDUCED, log 63.) -/
def srcRun (d : Dev) (ch : Nat) (s : DmaSet) (p n : Nat) : Nat :=
  let spot (x : Nat × Nat × Nat) : Nat × Nat × Nat :=
    (x.1, x.2.1, if aligned256 (setSrcKind s) then endAddr d ch s true x / 256 else 0)
  ((List.range n).foldl (fun (a : Bool × Nat × List (Nat × Nat × Nat)) i =>
    if a.1 then a
    else
      let seen := (srcNeeds s (p + i)).foldl (fun (m : Bool × List (Nat × Nat × Nat)) x =>
        let y := spot x
        match m.2.find? (fun z => z.1 == y.1) with
        | some z => (m.1 || z != y, m.2)
        | none => (m.1, m.2 ++ [y])) (false, a.2.2)
      if seen.1 then (true, a.2.1, a.2.2) else (false, i + 1, seen.2)) (false, 0, [])).2.1

/-- Length of the burst at a place of the destination's order (R233). -/
def burstLen (d : Dev) (ch : Nat) (s : DmaSet) (p : Nat) : Nat :=
  let pl := dstPlace s p
  let a := min 256 (dstLen s - pl.2.2)
  let b := if aligned256 (setDstKind s) then min a (256 - endAddr d ch s false pl % 256) else a
  if setSrcKind s = 3 then b
  else if setMode s ≠ 0 then srcRun d ch s p b
  else
    let c := min b (srcLen s - p % srcLen s)
    if aligned256 (setSrcKind s) then min c (256 - endAddr d ch s true (0, p / srcLen s, p % srcLen s) % 256) else c

/-! ### Rings (R234) -/

/-- Destination lines, and source lines, that the first w destination bytes complete. -/
def dstLinesDone (s : DmaSet) (w : Nat) : Nat := if planarDst s then w / unitBytes s else w / dstLen s
def srcLinesDone (s : DmaSet) (w : Nat) : Nat :=
  if setMode s = 0 then w / srcLen s else w / unitBytes s * (if setMode s = 3 then 2 else 1)

/-- The ring conditions of a burst (R234): its slot is free on a bound destination, its source line's slot is filled. -/
def ringOk (d : Dev) (ch : Nat) (s : DmaSet) (p : Nat) : Bool :=
  let q := ch / 64
  let dstOk :=
    if dstBound s then
      let g := getRegion d q (dstRing s)
      let slot := (dstPlace s p).2.1 / dstSlotLines s
      g.n != 0 && g.fill + (slot - s.committed) < g.n
    else true
  let srcOk :=
    if srcBound s && setSrcKind s != 3 then
      let g := getRegion d q (srcRing s)
      let line := ((srcNeeds s p).map (·.2.1)).foldl max 0
      g.n != 0 && line / srcSlotLines s - s.released < lagOf g (tailFor d q (srcRing s) (ch % 64))
    else true
  dstOk && srcOk

/-- The need time of a set (R240). -/
def needTime (d : Dev) (ch : Nat) (s : DmaSet) : Nat :=
  let q := ch / 64
  let per := fld (setW s 15) 0 24
  if per = 0 then s.dl
  else
    let gd := getRegion d q (dstRing s)
    let gs := getRegion d q (srcRing s)
    let a := if dstBound s then min s.dl (d.dt + gd.fill * per) else s.dl
    if srcBound s && setSrcKind s != 3 then min a (d.dt + (gs.n - gs.fill) * per) else a

/-! ### Issue (R233, R236, R240) -/

/-- A set of a channel: ACTIVE, or NEXT. -/
def theSet (d : Dev) (ch : Nat) (next : Bool) : Option DmaSet := if next then (getCh d ch).next else (getCh d ch).active
def updSet (ch : Nat) (next : Bool) (f : DmaSet → DmaSet) (d : Dev) : Dev :=
  updCh ch (fun c => if next then { c with next := c.next.map f } else { c with active := c.active.map f }) d

/-- Bytes left to issue: of a bulk source, those received of the transfer at hand (R235). -/
def bulkNow (s : DmaSet) : Nat :=
  match s.bulkEnds with
  | (n, _) :: _ => n
  | [] => s.bulk.length
def leftToIssue (s : DmaSet) : Nat := if setSrcKind s = 3 then bulkNow s else setVolume s - s.issued

/-- NEXT may issue under PREARM (R236): it has a bound side, and ACTIVE, no bulk transfer, has waited on its ring for a whole VX cycle. -/
def prearmed (d : Dev) (ch now : Nat) : Bool :=
  match (getCh d ch).active, (getCh d ch).next with
  | some a, some n =>
    fld (setW n 20) 0 1 == 1 && (srcBound n || dstBound n) && setSrcKind a != 3
      && (match a.waitAt with
          | some t => decide (t + 1 ≤ now)
          | none => false)
  | _, _ => false

/-- STATE.NEXT_MOVING (R229, R236): NEXT issues under PREARM, as ACTIVE still waits on its ring and NEXT's own does not hold it up. -/
def nextMoves (d : Dev) (ch : Nat) : Bool :=
  match (getCh d ch).active, (getCh d ch).next with
  | some a, some n => prearmed d ch (vxAt d 0) && !ringOk d ch a a.issued
      && (!n.bursts.isEmpty || (leftToIssue n != 0 && ringOk d ch (beginSet ch d n) n.issued))
  | _, _ => false

/-- A burst that a set could issue: its place, its length, the addresses of its source bytes in DRAM. -/
structure DmaCand where
  ch : Nat
  next : Bool
  len : Nat
  src : List Nat
  deriving DecidableEq, Repr

/-- A fault of a window end (R237): code 5 for an inbound entry or an offset outside the window, code 6 for a link that is down. -/
def winFault (d : Dev) (w off len : Nat) : Option Nat :=
  let e := winEntry d w
  if e.isEmpty || bit (byteAt e 0) 0 || field e 4 4 < off + len then some 5
  else if !(getLink d (winLink e)).up then some 6
  else none

/-- The window fault of a burst, if it has one: on its source side, or else on its destination. -/
def burstWinFault (d : Dev) (ch : Nat) (s : DmaSet) (len : Nat) : Option DmaFault :=
  let a := endAddr d ch s false (dstPlace s s.issued)
  let places := (List.range len).flatMap (fun i => srcNeeds s (s.issued + i))
  let src := if setSrcKind s = 2 then
      places.findSome? (fun pl => let o := endAddr d ch s true pl
                                  (winFault d (fld (setW s 10) 8 6) o 1).map (fun c => { code := c, side := 1, addr := o }))
    else none
  match src with
  | some f => some f
  | none => if setDstKind s = 2 then (winFault d (setDstWin s) a len).map (fun c => { code := c, side := 2, addr := a }) else none

/-! ### What a burst counts (R432, R434-R438) -/

/-- What the events of a channel's DRAM request carry. -/
def dmaFor (d : Dev) (ch dva : Nat) (src : EvAddr) : ReqFor := { q := ch / 64, by_ := byChannel d ch, dva := dva, src := src }

/-- The address of the first source byte of a burst, as an event's and as a number. -/
def burstSrc (d : Dev) (ch : Nat) (s : DmaSet) (pos : Nat) : Nat :=
  match setSrcKind s, srcNeeds s pos with
  | 3, _ => 0
  | _, pl :: _ => endAddr d ch s true pl
  | _, [] => 0
def burstFrom (d : Dev) (ch : Nat) (s : DmaSet) (pos : Nat) : EvAddr :=
  match setSrcKind s with
  | 0 => .dva (burstSrc d ch s pos)
  | 1 => .word (burstSrc d ch s pos / 8)
  | _ => .none

/-- The sampler's key of a burst: its set and its place. -/
def burstKey (s : DmaSet) (pos : Nat) : Nat := s.no * 2 ^ 40 + pos

/-- The record of a burst (R439). -/
def burstRec (d : Dev) (ch : Nat) (s : DmaSet) (len : Nat) : SampleRec :=
  let dst := endAddr d ch s false (dstPlace s s.issued)
  sampleInst d s.starter.inst
    { source := 3, unit := ch % 64, ident := burstSrc d ch s s.issued, dl := s.dl, start := d.dt, cls := getF d .ch ch 0x44 24 3
      detail := len + 2 ^ 16 * setSrcKind s + 2 ^ 20 * setDstKind s + 2 ^ 32 * (dst % 2 ^ 32) }

/-- A burst that becomes ready is an item of source 3, once. -/
def noteReady (ch : Nat) (next : Bool) (s : DmaSet) (len : Nat) (d : Dev) : Dev :=
  guardDev (s.noted < s.issued + 1) (fun d =>
    sampleItem (ch / 64) 3 (burstKey s s.issued) (burstRec d ch s len) (updSet ch next (fun s => { s with noted := s.issued + 1 }) d)) d

/-- The translation of a burst's source addresses in DRAM: a page that the cache lacks starts its walk (R244), and one that an entry or
the address itself refuses is a fault. -/
def burstPages (ch vx : Nat) (s : DmaSet) (addrs : List Nat) (d : Dev) : Option DmaFault × Bool × Dev :=
  let q := ch / 64
  let pages := (addrs.map (fun a => a / 16384)).eraseDups.map (fun p => (addrs.find? (fun a => a / 16384 == p)).getD 0)
  pages.foldl (fun x a =>
    if x.1.isSome then x
    else
      let hit := (getCache x.2.2 (ch / 8)).find? (fun e => e.1 == pageOf a)
      let ok := match hit with
        | some e => a / 2 ^ 38 == 0 && pteCause e.2 .read == 0
        | none => false
      if ok then x
      else
        let w : Walk :=
          { cache := ch / 8, dva := a, use := 0, dl := s.dl, who := .dmaRead ch s.no s.issued, source := ch % 64, due := 0
            for_ := dmaFor x.2.2 ch a .none }
        let t := translate q w vx x.2.2
        match t.1 with
        | .fault c => (some { code := 2, side := 1, cause := c, addr := a }, false, t.2)
        | .pa _ => (x.1, x.2.1, t.2)
        | .wait => (none, false, t.2)) (none, true, d)

/-- The physical address of a DVA whose page the channel's cache holds. -/
def cachedPa (d : Dev) (ch dva : Nat) : Nat :=
  match (getCache d (ch / 8)).find? (fun e => e.1 == pageOf dva) with
  | some e => paOf dva e.2
  | none => 0

/-- The memory controllers' queues that a burst targets have a free entry (R240): those of its source, and of a destination whose page the
cache holds. (DEDUCED, log 63.) -/
def roomFor (d : Dev) (c : DmaCand) : Bool :=
  (c.src.map (cachedPa d c.ch)).all (dramRoom d)
    && (match theSet d c.ch c.next with
        | none => true
        | some s0 =>
          let s := beginSet c.ch d s0
          let dva := endAddr d c.ch s false (dstPlace s s.issued)
          setDstKind s != 0 || (getCache d (c.ch / 8)).all (fun e => e.1 != pageOf dva || dramRoom d (paOf dva e.2)))

/-- A set looked at by the issuer: the burst that it has ready, if any; a ring that holds it up is noted. -/
def prepare (ch vx : Nat) (next : Bool) (d : Dev) : Option DmaCand × Dev :=
  match theSet d ch next with
  | none => (none, d)
  | some s0 =>
    let s := beginSet ch d s0
    let d1 := guardDev (!next) (updSet ch next (fun _ => s)) d
    let left := leftToIssue s
    let len := min left (burstLen d1 ch s s.issued)
    let bulkShort := setSrcKind s = 3 ∧ s.bulkEnds.isEmpty ∧ left < burstLen d1 ch s s.issued
    if s.fault.isSome || 8 ≤ s.bursts.length || left == 0 || bulkShort then (none, d1)
    else if !ringOk d1 ch s s.issued then
      (none, updSet ch next (fun s => { s with waitAt := some (s.waitAt.getD (vxAt d vx)) }) d1)
    else
      let d2 := updSet ch next (fun s => { s with waitAt := none }) d1
      match burstWinFault d2 ch s len with
      | some f => (none, updSet ch next (fun s => { s with fault := some f }) d2)
      | none =>
        if setSrcKind s ≠ 0 then
          (if roomFor d2 ⟨ch, next, len, []⟩ then (some ⟨ch, next, len, []⟩, noteReady ch next s len d2) else (none, d2))
        else
          let addrs := (List.range len).flatMap (fun i => (srcNeeds s (s.issued + i)).map (endAddr d2 ch s true))
          let t := burstPages ch vx s addrs d2
          match t.1, t.2.1 with
          | some f, _ => (none, updSet ch next (fun s => { s with fault := some f }) t.2.2)
          | none, false => (none, t.2.2)
          | none, true =>
            if roomFor t.2.2 ⟨ch, next, len, addrs⟩ then (some ⟨ch, next, len, addrs⟩, noteReady ch next s len t.2.2) else (none, t.2.2)

/-- A chosen burst issued: bulk data and scratchpad sources wait for nothing, a DRAM source sends one read for each granule. -/
def issueBurst (vx : Nat) (c : DmaCand) (d : Dev) : Dev :=
  match theSet d c.ch c.next with
  | none => d
  | some s0 =>
    let s := beginSet c.ch d s0
    let q := c.ch / 64
    let pas := c.src.map (cachedPa d c.ch)
    let grans := (pas.map (· / 256)).eraseDups
    let span (g : Nat) : Nat × Nat :=
      let l := pas.filter (fun a => a / 256 == g)
      (l.foldl min (256 * g + 255), l.foldl max 0)
    let pages := (c.src.map (fun a => a / 16384)).eraseDups.map (fun p => (c.src.find? (fun a => a / 16384 == p)).getD 0)
    let d1 := pages.foldl (fun d a => (translate q { cache := c.ch / 8, dva := a, use := 0, dl := s.dl, who := .dmaRead c.ch s.no s.issued,
                                                     source := c.ch % 64, due := 0, for_ := dmaFor d c.ch a .none } vx d).2) d
    let bulk := setSrcKind s = 3
    let b : DmaBurst := { pos := s.issued, len := c.len, src := pas, pend := grans.map (fun g => (span g).1),
                          data := if bulk then some (s.bulk.take c.len) else none }
    let d2 := updSet c.ch c.next (fun x => { beginSet c.ch d1 x with
      issued := s.issued + c.len, bursts := s.bursts ++ [b], bulk := if bulk then s.bulk.drop c.len else s.bulk
      bulkEnds := match s.bulkEnds with
        | (n, k) :: r => (n - c.len, k) :: r
        | [] => [] }) d1
    let d3 := grans.foldl (fun d g =>
      dramQueue { dl := s.dl, pa := (span g).1, len := (span g).2 - (span g).1 + 1, who := .dmaRead c.ch s.no s.issued,
                  for_ := dmaFor d c.ch (burstSrc d c.ch s s.issued) .none } d) d2
    let d4 := sampleStage q 3 (burstKey s s.issued) 1 d3
    addCnt .dmac q 0x10 1 (guardDev c.next (addCnt .dmac q 0x28 1)
      (guardDev (!grans.isEmpty) (sampleStage q 3 (burstKey s s.issued) 2) d4))

/-- Up to n bursts chosen one after another under R27, each channel at most once, while the queues have room for them. -/
def issueChosen (q vx : Nat) : Nat → List DmaCand → Dev → Dev
  | 0, cs, d => guardDev (!cs.isEmpty) (addCnt .dmac q 0x2C 1)
      (cs.foldl (fun d c => pmuEv q 30 1 (byChannel d c.ch) .none d) d)
  | n + 1, cs0, d =>
    let cs := cs0.filter (roomFor d)
    let reqs := cs.filterMap (fun c => (theSet d c.ch c.next).map (fun s =>
      (⟨c.ch % 64, needTime d c.ch s, fld (setW s 20) 4 3⟩ : ArbReq)))
    let w := arbitrate arbIssuer q 64 reqs d
    match w.1 with
    | none => w.2
    | some k =>
      match cs.find? (fun c => c.ch % 64 == k) with
      | none => w.2
      | some c => issueChosen q vx n (cs.filter (fun c => c.ch % 64 != k)) (issueBurst vx c w.2)

/-- DMA_BURST_ISSUE (R240): one decision of a quadrant's issuer, in each VX cycle. -/
def dmaIssue (q vx : Nat) (d0 : Dev) : Dev :=
  let now := vxAt d0 vx
  if now < mapGet 0 q d0.memsys.issueAt then d0
  else
  let d := { d0 with memsys := { d0.memsys with issueAt := mapSet 0 q (now + 1) d0.memsys.issueAt } }
  let x := (List.range 64).foldl (fun (x : List DmaCand × Dev) k =>
    let ch := 64 * q + k
    let a := prepare ch vx false x.2
    match a.1 with
    | some c => (x.1 ++ [c], a.2)
    | none =>
      if prearmed a.2 ch now then
        let b := prepare ch vx true a.2
        (x.1 ++ b.1.toList, b.2)
      else (x.1, a.2)) ([], d)
  issueChosen q vx 4 x.1 x.2

/-! ### Data arrives (R233, R237, R239) -/

/-- Returns that belong to no set any more are dropped. -/
def purgeReturns (ch : Nat) (d : Dev) : Dev :=
  let c := getCh d ch
  let has (no : Nat) := (c.active.map (·.no)) == some no || (c.next.map (·.no)) == some no
  { d with memsys := { d.memsys with returns := d.memsys.returns.filter (fun r =>
      match r.who with
      | .dmaRead k no _ => k != ch || has no
      | .dmaWrite k no => k != ch || has no
      | _ => true) } }

/-- Place of a code in the precedence of R239. -/
def codeRank (c : Nat) : Nat := ([4, 3, 2, 5, 6, 1].findIdx? (· == c)).getD 6

/-- The fault that a walk brought to a set (R243). -/
def walkFault (d : Dev) (ch no now : Nat) : Option DmaFault :=
  d.memsys.returns.findSome? (fun r =>
    let side := match r.who with
      | .dmaRead k n _ => if k = ch ∧ n = no then 1 else 0
      | .dmaWrite k n => if k = ch ∧ n = no then 2 else 0
      | _ => 0
    match r.fault with
    | some (c, a) => if side ≠ 0 ∧ r.due ≤ now then some { code := if c = 0 then 3 else 2, side := side, cause := c, addr := a } else none
    | none => none)

/-- The data of a burst from its source bytes, in the order of srcNeeds. (DESIGN CHOICE, log 63.) -/
def burstData (s : DmaSet) (b : DmaBurst) (bs : List Byte) : List Byte :=
  let per := if setMode s = 5 ∨ setMode s = 6 then 8 else 1
  (List.range b.len).map (fun i => combineByte s (b.pos + i) ((bs.drop (per * i)).take per))

/-- Data or an error for the oldest burst of a set that has none. -/
def burstArrive (ch now : Nat) (s : DmaSet) (d : Dev) : Option (DmaBurst × List Byte × Option DmaFault × Dev) :=
  match s.bursts.find? (fun b => b.data.isNone) with
  | none => none
  | some b =>
    let places := (List.range b.len).flatMap (fun i => srcNeeds s (b.pos + i))
    let addrs := places.map (endAddr d ch s true)
    match setSrcKind s with
    | 1 =>
      let q := if srcBound s then ch / 64 else srcQuad s
      let words := (addrs.map (· / 16)).eraseDups
      let lo := addrs.foldl min (2 ^ 26)
      let hi := addrs.foldl max 0
      let whole := setMode s == 0
      let ranges := if whole then [(lo, hi + 1 - lo)] else words.map (fun k => (16 * k, 16))
      let t := ranges.foldl (fun (x : Option Nat × Dev) r =>
        let y := spadRead { req := 64 + ch % 64, idx := ch + 1 } q r.1 r.2 x.2
        (if x.1.isNone && y.2.1 then some r.1 else x.1, y.2.2)) (none, d)
      some (b, burstData s b (addrs.map (spadByte d q)),
        t.1.map (fun a => { code := 4, side := 1, addr := a }), t.2)
    | 2 =>
      let d1 := { d with freeCount := d.freeCount + 1 }
      some (b, burstData s b (addrs.map (Config.windowByte d.freeCount)), none, d1)
    | _ =>
      let rs := d.memsys.returns.filter (fun r => r.who == .dmaRead ch s.no b.pos && r.fault.isNone && r.due ≤ now)
      if b.pend.all (fun p => rs.any (fun r => r.pa == p)) then
        let get (a : Nat) : Byte := match rs.find? (fun r => r.pa ≤ a && a < r.pa + r.bytes.length) with
          | some r => r.bytes.getD (a - r.pa) 0
          | none => 0
        let bad := rs.find? (·.bad)
        let f := bad.map (fun r =>
          let i := (b.src.findIdx? (fun a => r.pa ≤ a && a < r.pa + r.bytes.length)).getD 0
          ({ code := 3, side := 1, addr := addrs.getD i 0 } : DmaFault))
        some (b, burstData s b (b.src.map get), f,
          { d with memsys := { d.memsys with returns := d.memsys.returns.filter (fun r => !(rs.contains r)) } })
      else none

/-- The end of a set by a fault found at a translation or read (R238, R239): at once for ACTIVE, and for NEXT once it is ACTIVE. -/
def faultSet (ch : Nat) (next : Bool) (f : DmaFault) (d : Dev) : Dev :=
  if next then updSet ch next (fun s => { s with fault := some f }) d else dmaEnd ch f.code f.side f.cause f.addr d

/-- The faults known of a set, and the data that has arrived, taken up; of several faults the first by R239 is recorded. -/
def returnTo (ch now : Nat) (next : Bool) (d : Dev) : Option Dev :=
  match theSet d ch next with
  | none => none
  | some s =>
    let found := (match s.fault with | some f => [f] | none => []) ++ (match walkFault d ch s.no now with | some f => [f] | none => [])
    let arr := burstArrive ch now s d
    let fs := found ++ (match arr with
      | some (_, _, some f, _) => [f]
      | _ => [])
    let d1 := match arr with
      | some (_, _, _, d') => d'
      | none => d
    match fs with
    | f :: r =>
      if next && s.fault.isSome && arr.isNone && walkFault d ch s.no now == none then none
      else some (faultSet ch next (r.foldl (fun b f => if codeRank f.code < codeRank b.code then f else b) f) d1)
    | [] =>
      match arr with
      | some (b, bytes, _, _) =>
        let q := ch / 64
        let d2 := updSet ch next (fun s => { s with
          bursts := s.bursts.map (fun x => if x.pos = b.pos then { x with data := some bytes } else x) }) d1
        let d3 := guardDev (setSrcKind s == 0) (pmuEv q 24 b.len (byChannel d2 ch) (burstFrom d2 ch s b.pos)) d2
        some (sampleStage q 3 (burstKey s b.pos) 3
          (guardDev (setSrcKind s == 1 && !srcBound s) (quadBytes (srcQuad s) q b.len) d3))
      | none => none

/-- DMA_READ_RETURN (R233): a burst's source data, a fault or an error reaches the channel. -/
def dmaReturn (ch vx : Nat) (d : Dev) : Dev :=
  let now := vxAt d vx
  let d0 := purgeReturns ch d
  match returnTo ch now false d0 with
  | some d1 => purgeReturns ch d1
  | none => (returnTo ch now true d0).getD d0

/-! ### The destination accepts (R233, R234, R237, R332-R335, R346-R348) -/

/-- What became of a burst's destination write. -/
inductive Accepted where
  | stall (d : Dev)
  | fault (f : DmaFault) (d : Dev)
  | ok (s : DmaSet) (d : Dev)

/-- Bytes of packets that a port has queued (R335). -/
def txQueued (t : TxPort) : Nat :=
  (t.frames.map (fun f => (f.parts.map (fun p => p.buf.length)).foldl (· + ·) 0 + (if f.record.isSome && !f.recordSent then 64 else 0)
    + (if f.headerSent || f.header.isEmpty then 0 else 64))).foldl (· + ·) 0

/-- Bytes put into a part of a frame. -/
def putPart' (part : Nat) (bs : List Byte) (f : TxFrame) : TxFrame :=
  { f with parts := f.parts.map (fun p => if p.part == part then { p with buf := p.buf ++ bs } else p) }

/-- A burst into a port (R332, R334, R335): it opens the instance's frame, or a drain frame for a set of no instance. Bytes of an
instance that has no record to come any more are taken and dropped. (DEDUCED, log 62.) -/
def acceptPort (ch : Nat) (s : DmaSet) (bs : List Byte) (d : Dev) : Accepted :=
  match txEntryFor d (s.starter.inst.map (instPlane d)) ch with
  | none => .ok s d
  | some e =>
    if 262144 < txQueued (getTx d e.port) + bs.length then .stall d
    else
      match s.starter.inst with
      | some i =>
        if !instLive d i then .ok s d
        else
          let d1 := openFrame (instTxMap d i) e.port e.vc i d
          .ok s (updTx e.port (fun t => { t with frames := t.frames.map (fun f =>
            if f.vc == e.vc && f.inst == some i && !f.closed then putPart' e.part bs f else f) }) d1)
      | none =>
        let mine (f : TxFrame) := f.vc == e.vc && f.inst == none && f.record == none && !f.ended && f.parts.any (fun p => p.part == e.part)
        let t := getTx d e.port
        let no := 1 + (Config.drainFrame d.freeCount).toNat % 65535
        let d1 := if t.frames.any mine then d
          else updTx e.port (fun t => { t with frames := t.frames ++
            [{ vc := e.vc, inst := none, frameNo := no, dl := noDeadline, parts := [{ part := e.part, typ := e.typ, line := e.line }] }] })
            { d with freeCount := d.freeCount + 1 }
        .ok s (updTx e.port (fun t => { t with frames := t.frames.map (fun f => if mine f then putPart' e.part bs f else f) }) d1)

/-- A burst into an outbound window (R346, R348): a burst that opens a far slot needs a credit; consecutive bursts share a segment. -/
def acceptWindow (ch : Nat) (s : DmaSet) (off : Nat) (bs : List Byte) (d : Dev) : Accepted :=
  let w := setDstWin s
  match winFault d w off bs.length with
  | some c => .fault { code := c, side := 2, addr := off } d
  | none =>
    let ring := winRing (winEntry d w)
    let slot := off / Config.farSlotBytes w
    let st := getWin d w
    let opens := ring && st.opened != some slot
    if opens && Config.farSlots w ≤ st.used then .stall d
    else
      let d1 := guardDev opens (updWin w (fun x => { x with used := x.used + 1, opened := some slot })) d
      let joins := match s.seg with
        | some (o, b) => o + b.length == off && b.length + bs.length ≤ 3944
        | none => false
      let d2 := guardDev (!joins) (flushSeg ch false s) d1
      let s1 := { s with seg := match s.seg, joins with
        | some (o, b), true => some (o, b ++ bs)
        | _, _ => some (off, bs) }
      let closes := ring && (off + bs.length) % Config.farSlotBytes w == 0
      if closes then .ok { s1 with seg := none } (updWin w (fun x => { x with opened := none }) (flushSeg ch true s1 d2)) else .ok s1 d2

/-- A burst into DRAM (R233, R242): translated with the right to write, accepted by a memory controller's queue. -/
def acceptDram (ch vx : Nat) (s : DmaSet) (dva : Nat) (src : EvAddr) (bs : List Byte) (d : Dev) : Accepted :=
  let hit := (getCache d (ch / 8)).find? (fun e => e.1 == pageOf dva)
  let room := match hit with
    | some e => pteCause e.2 .write != 0 || dramRoom d (paOf dva e.2)
    | none => true
  if !room then .stall d
  else
    let t := translate (ch / 64) { cache := ch / 8, dva := dva, use := 1, dl := s.dl, who := .dmaWrite ch s.no, source := ch % 64, due := 0,
                                    for_ := dmaFor d ch dva src } vx d
    match t.1 with
    | .wait => .stall t.2
    | .fault c => .fault { code := 2, side := 2, cause := c, addr := dva } t.2
    | .pa a => .ok s (pmuEv (ch / 64) 25 bs.length (byChannel d ch) (.dva dva) (dramAccept s.dl a bs (dmaFor d ch dva src) t.2))

/-- A burst into a scratchpad (R206, R230), over the link of another quadrant's. -/
def acceptSpad (ch : Nat) (s : DmaSet) (a : Nat) (src : EvAddr) (bs : List Byte) (d : Dev) : Dev :=
  let q := ch / 64
  let to_ := if dstBound s then q else dstQuad s
  let d1 := guardDev (to_ != q) (fun d => quadBytes q to_ bs.length (pmuEv q 62 bs.length (byChannel d ch) src d)) d
  spadWrite { req := 64 + ch % 64, idx := ch + 1 } to_ a bs (pmuEv q 26 1 (byChannel d ch) (.word (a / 8)) d1)

/-- Events of a burst accepted (R434-R436): windows 27, ports 28, whose bytes leave over the hub link; the burst completed. -/
def burstDone (ch vx : Nat) (s : DmaSet) (b : DmaBurst) (d : Dev) : Dev :=
  let q := ch / 64
  let k := setDstKind s
  let d1 := guardDev (k == 2 || k == 3) (fun d => bytesFrom q b.len (pmuEv q (25 + k) 1 (byChannel d ch) .none d)) d
  let d2 := guardDev (k == 0) (sampleStage q 3 (burstKey s b.pos) 2) (pmuUc q (320 + 2 * (ch % 64)) 1 d1)
  sampleEnd q 3 (burstKey s b.pos) vx false (sampleStage q 3 (burstKey s b.pos) 4 d2)

def acceptBurst (ch vx : Nat) (s : DmaSet) (b : DmaBurst) (bs : List Byte) (d : Dev) : Accepted :=
  let a := endAddr d ch s false (dstPlace s b.pos)
  match setDstKind s with
  | 0 => acceptDram ch vx s a (burstFrom d ch s b.pos) bs d
  | 1 => .ok s (acceptSpad ch s a (burstFrom d ch s b.pos) bs d)
  | 2 => acceptWindow ch s a bs d
  | _ => acceptPort ch s bs d

/-- Slots that an accepted burst completes: the destination's are committed, the source's released (R234); the last of each, partial
or not, at completion. -/
def moveSlots (ch : Nat) (next : Bool) (s : DmaSet) (done : Bool) (d : Dev) : Dev :=
  let q := ch / 64
  let slots (lines per : Nat) := if done then ceilDiv lines per else lines / per
  let c := if dstBound s then slots (dstLinesDone s s.written) (dstSlotLines s) else 0
  let r := if srcBound s && setSrcKind s != 3 then slots (srcLinesDone s s.written) (srcSlotLines s) else 0
  let d1 := updSet ch next (fun s => { s with committed := max c s.committed, released := max r s.released }) d
  let d2 := (List.range (c - s.committed)).foldl (fun d _ => ringCommit q (dstRing s) (64 + ch % 64) s.starter.inst d) d1
  if r ≤ s.released then d2 else ringRelease q (srcRing s) (r - s.released) (some (ch % 64)) d2

/-- The bulk transfers that have ended, and whose bytes are all written, end at their channel (R235). -/
def bulkFinished (ch : Nat) : Nat → Dev → Dev
  | 0, d => d
  | n + 1, d =>
    match (getCh d ch).active with
    | some s => (match s.bulkEnds, s.bursts with
        | (0, k) :: _, [] => bulkFinished ch n (bulkFinish ch k d)
        | _, _ => d)
    | none => d

/-- The first burst of a set goes to its destination. (DEDUCED, log 66.) -/
def acceptFor (ch vx : Nat) (next : Bool) (d : Dev) : Option Dev :=
  match theSet d ch next with
  | none => none
  | some s =>
    match s.bursts with
    | [] => none
    | b :: rest =>
      match b.data with
      | none => none
      | some bs =>
        if vxAt d vx < (getCh d ch).nextAt || s.fault.isSome then none
        else
          match acceptBurst ch vx s b bs d with
          | .stall d' => some d'
          | .fault f d' => some (faultSet ch next f d')
          | .ok s' d' =>
            let s1 := { s' with bursts := rest, written := s'.written + b.len, moved := s'.moved + b.len }
            let m := (getCh d' ch).moved
            let d1 := updCh ch (fun c => { c with moved := m + b.len, nextAt := vxAt d vx + 4 }) (updSet ch next (fun _ => s1) d')
            let d2 := burstDone ch vx s b (addCnt .dmac (ch / 64) 0x14 ((m + b.len) / 256 - m / 256) d1)
            let bulk := setSrcKind s = 3
            let done := !bulk && s1.written == setVolume s1
            let d3 := moveSlots ch next s1 done d2
            let still := (theSet d3 ch next).map (·.no) == some s.no
            if done && !next && still then some (dmaEnd ch 0 0 0 0 d3)
            else
              some (guardDev (bulk && still) (bulkFinished ch s1.bulkEnds.length) d3)

/-- DMA_BURST_ACCEPT (R233): the oldest burst of ACTIVE, or of a prearmed NEXT while ACTIVE waits. -/
def dmaAccept (ch vx : Nat) (d : Dev) : Dev :=
  match acceptFor ch vx false d with
  | some d1 => d1
  | none => (acceptFor ch vx true d).getD d

/-- A stop of the ACTIVE set by ABORT or a void: a fault that is known already is the code that is recorded (R239). -/
def dmaStop (ch : Nat) (d : Dev) : Dev :=
  match (getCh d ch).active.bind (·.fault) with
  | some f => dmaEnd ch f.code f.side f.cause f.addr d
  | none => dmaEnd ch 1 0 0 0 d

/-! ### Stops (R238) -/

/-- NEXT dropped: it leaves bound rings empty under EMPTY_ON_STOP and writes a record with code 1. (DEDUCED, log 62.) -/
def dropNext (ch : Nat) (d : Dev) : Dev :=
  match (getCh d ch).next with
  | none => d
  | some s =>
    let q := ch / 64
    let d1 := updCh ch (fun c => { c with next := none }) (endDrain ch s (flushSeg ch false s d))
    let empty := fld (setW s 20) 1 1 == 1
    let d2 := guardDev (empty && srcBound s && setSrcKind s != 3) (ringEmpty q (srcRing s)) d1
    let d3 := guardDev (empty && dstBound s) (ringEmpty q (dstRing s)) d2
    dmaFinish ch s 1 0 0 0 1 d3

/-- A write of CTL (R229): START, ABORT and ABORT_NEXT, in the order of their bits. -/
def chCtlAddr (ch : Nat) : Nat := addrOf .ch ch 0x80
/-- (DEDUCED, log 61.) -/
def chCtlEffect (ch : Nat) (starter : Starter) (v : W32) (d : Dev) : Dev :=
  let start (d : Dev) : Dev := dmaStart ch (stagingRegs d ch) (getPair d .ch ch 0x48 0x4C) starter d
  guardDev (fld v 2 1 == 1) (dropNext ch)
    (guardDev (fld v 1 1 == 1) (dmaStop ch) (guardDev (fld v 0 1 == 1 && (getSpd d (ch / 64)).initDone) start d))

/-- The staging set loaded from a register image (R228): its bytes 0x00 to 0x7F. -/
def loadStaging (ch : Nat) (image : List Byte) (d : Dev) : Dev :=
  (List.range 32).foldl (fun d i => storeFields (addrOf .ch ch (4 * i)) (BitVec.ofNat 32 (field image (4 * i) 4)) d) d

/-- DMA_VOID_STOP (R238): a void's stop ends every set of the channel that the instance started. -/
def dmaVoidStop (ch : Nat) (d : Dev) : Dev :=
  match takeFirst (fun m : StopMsg => m.kind == .dma && m.unit == ch && stopReady d m) d.fab.stops with
  | none => d
  | some (m, rest) =>
    let d1 := { d with fab := { d.fab with stops := rest } }
    let mine (s : Option DmaSet) := match s with
      | some s => s.starter.inst == some m.inst
      | none => false
    let d2 := guardDev (mine (getCh d1 ch).active) (dmaStop ch) d1
    guardDev (mine (getCh d2 ch).next) (dropNext ch) d2

/-! ### The commands -/

/-- A DMA start on its way to a channel reaches it (R21, R228), once its quadrant takes work (R203). -/
def dmaStartArrives (ch : Nat) (d : Dev) : Dev :=
  match takeFirst (fun m : DmaStartMsg => m.ch == ch && dmaStartReady d m) d.fab.dmaStarts with
  | none => d
  | some (m, rest) =>
    if !(getSpd d (ch / 64)).initDone then d
    else
      let d1 := loadStaging ch m.image { d with fab := { d.fab with dmaStarts := rest } }
      dmaStart ch (stagingRegs d1 ch) m.dl m.starter d1

/-- DMA_START (R228): a write of CTL.START, or without one the next start that a Drover of another quadrant has sent (R21). (DESIGN CHOICE, log 6.) -/
def execDmaStart (by_ : Option WriteBy) (ch : Fin 256) (v : W32) (s : State) : Out State :=
  match by_ with
  | some b => onDev (guardDev (fld v 0 1 == 1) (fun d =>
      committedWrite (originOf d b) (chCtlAddr ch.val) v (chCtlEffect ch.val .write v) d)) s
  | none => onDev (dmaStartArrives ch.val) s

/-- DMA_ABORT (R229, R238). -/
def execDmaAbort (by_ : WriteBy) (ch : Fin 256) (v : W32) (s : State) : Out State :=
  onDev (guardDev (fld v 1 1 == 1) (fun d =>
    committedWrite (originOf d by_) (chCtlAddr ch.val) v (chCtlEffect ch.val .write v) d)) s

/-- DMA_ABORT_NEXT (R229, R238). -/
def execDmaAbortNext (by_ : WriteBy) (ch : Fin 256) (v : W32) (s : State) : Out State :=
  onDev (guardDev (fld v 2 1 == 1) (fun d =>
    committedWrite (originOf d by_) (chCtlAddr ch.val) v (chCtlEffect ch.val .write v) d)) s

/-- DMA_VOID_STOP (R194, R238). -/
def execDmaVoidStop (ch : Fin 256) (s : State) : Out State := onDev (dmaVoidStop ch.val) s

/-- DMA_BURST_ISSUE (R240). -/
def execDmaBurstIssue (q : Fin 4) (vx : Fin 5) (s : State) : Out State := onDev (dmaIssue q.val vx.val) s

/-- DMA_READ_RETURN (R233). -/
def execDmaReadReturn (ch : Fin 256) (vx : Fin 5) (s : State) : Out State := onDev (dmaReturn ch.val vx.val) s

/-- DMA_BURST_ACCEPT (R233). -/
def execDmaBurstAccept (ch : Fin 256) (vx : Fin 5) (s : State) : Out State := onDev (dmaAccept ch.val vx.val) s

/-- DMA_NEXT_ACTIVATE (R236). -/
def execDmaNextActivate (ch : Fin 256) (s : State) : Out State := onDev (activateNext ch.val) s

end Sys2Proof.Machine
end

