-- ==== Sys2Proof/Machine/IspMath.lean ====
section
/-! DEFINITION. The stage chain of an image pipe as arithmetic on lines (R82, R83, R87, R88, R90): unpacking, black level, defects,
merge, temporal reduction, shading, white balance, colour correction, tone curve and conversion. -/

namespace Sys2Proof.Machine

/-- The companding function q (R83). -/
def compand (v : Nat) : Nat := min 65535 (isqrt (256 * v))

/-- Bits of a pixel of a CSI-2 data type (R55); 0 for a type that carries no pixels. (PRESUMED, log 25.) -/
def typeBits : Nat → Nat
  | 0x1E => 16
  | 0x1F => 20
  | 0x22 => 16
  | 0x24 => 24
  | 0x2A => 8
  | 0x2B => 10
  | 0x2C => 12
  | 0x2D => 14
  | 0x2E => 16
  | _ => 0

/-- Payload bytes of a line of a width (R65). -/
def lineBytes (typ width : Nat) : Nat := ceilDiv (width * typeBits typ) 8

/-- One RAW value of a line, in the packings of MIPI CSI-2 (R55). (PRESUMED, log 25.) -/
def rawValue (typ : Nat) (bs : List Byte) (x : Nat) : Nat :=
  let b (i : Nat) := byteAt bs i
  match typ with
  | 0x2A => b x
  | 0x2B => b (5 * (x / 4) + x % 4) * 4 + bits (b (5 * (x / 4) + 4)) (2 * (x % 4)) 2
  | 0x2C => b (3 * (x / 2) + x % 2) * 16 + bits (b (3 * (x / 2) + 2)) (4 * (x % 2)) 4
  | 0x2D =>
    let o := 7 * (x / 4)
    let low := b (o + 4) + 256 * b (o + 5) + 65536 * b (o + 6)
    b (o + x % 4) * 64 + bits low (6 * (x % 4)) 6
  | 0x2E => b (2 * x) * 256 + b (2 * x + 1)
  | _ => 0

/-- Stage 1 for a RAW stream: U16, MSB-aligned (R82). (PRESUMED, log 25.) -/
def unpackRaw (typ : Nat) (bs : List Byte) (x : Nat) : Nat :=
  if 0x2A ≤ typ ∧ typ ≤ 0x2E then rawValue typ bs x * 2 ^ (16 - typeBits typ)
  else (Config.mixedRaw typ (byteAt bs x)).toNat

/-- Stage 1 for a developed stream: three channels of U24, MSB-aligned; chroma of YUV is doubled horizontally. (PRESUMED, log 25.) -/
def unpackDeveloped (typ : Nat) (bs : List Byte) (x ch : Nat) : Nat :=
  let b (i : Nat) := byteAt bs i
  match typ with
  | 0x24 => b (3 * x + (2 - ch)) * 65536
  | 0x22 =>
    let v := b (2 * x) + 256 * b (2 * x + 1)
    match ch with
    | 0 => bits v 11 5 * 2 ^ 19
    | 1 => bits v 5 6 * 2 ^ 18
    | _ => bits v 0 5 * 2 ^ 19
  | 0x1E =>
    let o := 4 * (x / 2)
    match ch with
    | 0 => b (o + 1 + 2 * (x % 2)) * 65536
    | 1 => b o * 65536
    | _ => b (o + 2) * 65536
  | 0x1F =>
    let o := 5 * (x / 2)
    let ten (i : Nat) := (b (o + i) * 4 + bits (b (o + 4)) (2 * i) 2) * 16384
    match ch with
    | 0 => ten (1 + 2 * (x % 2))
    | 1 => ten 0
    | _ => ten 2
  | _ => (Config.mixedDeveloped typ (byteAt bs x)).toNat

/-- The colour at a position of the pattern: 0 red, 1 green, 2 blue (R99, CFA). -/
def cfaColour (cfa pos : Nat) : Nat :=
  match cfa, pos with
  | 0, 0 => 0
  | 0, 3 => 2
  | 1, 1 => 0
  | 1, 2 => 2
  | 2, 2 => 0
  | 2, 1 => 2
  | 3, 3 => 0
  | 3, 0 => 2
  | _, _ => 1

/-- Position of a pixel in the pattern. -/
def cfaPos (x y : Nat) : Nat := 2 * (y % 2) + x % 2

/-- Offsets of the 8 nearest pixels of the same colour (R87). -/
def sameColour (cfa pos : Nat) : List (Int × Int) :=
  if cfaColour cfa pos = 1 then [(-1, -1), (1, -1), (-1, 1), (1, 1), (0, -2), (0, 2), (-2, 0), (2, 0)]
  else [(-2, -2), (0, -2), (2, -2), (-2, 0), (2, 0), (-2, 2), (0, 2), (2, 2)]

/-- A sorted insertion. -/
def insertSorted (x : Nat) : List Nat → List Nat
  | [] => [x]
  | y :: r => if x ≤ y then x :: y :: r else y :: insertSorted x r

/-- A list of numbers in rising order. -/
def sortNat (l : List Nat) : List Nat := l.foldr insertSorted []

/-- The median of 8 values: the mean of the middle two, rounded once. -/
def median8 (l : List Nat) : Nat :=
  let s := sortNat l
  roundDiv (s.getD 3 0 + s.getD 4 0) 2

/-- What the pixel arithmetic of a frame reads: sizes, the registers in force, the stage-1 values by exposure, line and column,
whether a line was repaired, and the tables of the frame. -/
structure PixEnv where
  w : Nat
  h : Nat
  reg : Nat → W32
  raw : Nat → Nat → Nat → Nat
  repaired : Nat → Bool
  exps : Nat
  defects : List (Nat × Nat)
  knees : List (Nat × Nat)
  shade : List Byte
  tone : List Byte

/-- A register field in force. -/
def PixEnv.f (p : PixEnv) (o lo len : Nat) : Nat := fld (p.reg o) lo len

/-- A coordinate kept inside the frame: its edges are replicated, as R85 says of the bottom. (DESIGN CHOICE, log 126.) -/
def inside (n : Nat) (i : Int) : Nat := (clampInt 0 ((n : Int) - 1) i).toNat

/-- Stage 2 (R87): black level by exposure and pattern position. -/
def stage2 (p : PixEnv) (e y x : Nat) : Nat :=
  let k := cfaPos x y
  p.raw e y x - p.f (0xC + 8 * e + 4 * (k / 2)) (16 * (k % 2)) 16

/-- The neighbours of a pixel at stage 2. -/
def neighbours (p : PixEnv) (e y x : Nat) : List Nat :=
  (sameColour (p.f 8 0 2) (cfaPos x y)).map (fun o => stage2 p e (inside p.h ((y : Int) + o.2)) (inside p.w ((x : Int) + o.1)))

/-- The pixel is dynamically defective: more than the threshold above its neighbours' maximum, or below their minimum. -/
def dynamicDefect (p : PixEnv) (e y x : Nat) : Bool :=
  p.f 8 4 1 == 1 &&
    (let n := neighbours p e y x
     let v := stage2 p e y x
     let th := p.f 0x24 0 16
     decide (n.foldl max 0 + th < v) || decide (v + th < n.foldl min 65535))

/-- The pixel is in the static map. -/
def staticDefect (p : PixEnv) (y x : Nat) : Bool := p.defects.contains (x, y)

/-- Stage 3 (R87). -/
def stage3 (p : PixEnv) (e y x : Nat) : Nat :=
  if staticDefect p y x || dynamicDefect p e y x then median8 (neighbours p e y x) else stage2 p e y x

/-- The scale of an exposure, U8.8 (R87). -/
def ratioOf (p : PixEnv) : Nat → Nat
  | 0 => 256
  | 1 => p.f 0x28 0 16
  | _ => p.f 0x28 16 16

/-- Decompanding over the knees: linear between them, the last slope beyond, and the first one below (R87), rounded once. (DESIGN CHOICE, log 127.) -/
def decompand (k : List (Nat × Nat)) (v : Nat) : Nat :=
  let pairs := List.zip k (k.drop 1)
  let seg := match pairs.find? (fun s => v ≤ s.2.1) with
    | some s => some s
    | none => pairs.getLast?
  match seg with
  | none => v
  | some ((x0, y0), (x1, y1)) =>
    if x1 ≤ x0 then y0
    else (clampInt 0 0xFFFFFF (roundDivInt ((y0 : Int) * (x1 - x0 : Nat) + ((y1 : Int) - y0) * ((v : Int) - x0)) (x1 - x0))).toNat

/-- Stage 4 (R87): value, exposure index, and whether the pixel is saturated. (DEDUCED, log 36.) -/
def stage4 (p : PixEnv) (y x : Nat) : Nat × Nat × Bool :=
  let raw (e : Nat) := stage3 p e y x
  let lo := p.f 0x2C 0 16
  let hi := p.f 0x2C 16 16
  let scaled (e : Nat) := raw e * ratioOf p e
  let out (n den : Nat) := min 0xFFFFFF (roundDiv n den)
  if p.f 8 2 2 = 3 then (decompand p.knees (raw 0), 0, decide (hi ≤ raw 0))
  else if p.exps = 1 then (raw 0, 0, decide (hi ≤ raw 0))
  else
    match (List.range p.exps).find? (fun e => raw e < hi) with
    | none => (out (scaled (p.exps - 1)) 256, p.exps - 1, true)
    | some i =>
      if raw i < lo ∨ p.exps ≤ i + 1 ∨ hi ≤ lo then (out (scaled i) 256, i, false)
      else
        let a := hi - raw i
        let b := raw i - lo
        (out (scaled i * a + scaled (i + 1) * b) (256 * (hi - lo)), if b ≤ a then i else i + 1, false)

/-- Stage 5 (R88): the bilateral filter, whose weights the spec leaves open. -/
def stage5 (p : PixEnv) (y x : Nat) : Nat :=
  let (v, e, _) := stage4 p y x
  if p.f 8 5 1 = 0 then v
  else
    let n := [((-2 : Int), (-2 : Int)), (0, -2), (2, -2), (-2, 0), (0, 0), (2, 0), (-2, 2), (0, 2), (2, 2)].map (fun o =>
      (stage4 p (inside p.h ((y : Int) + o.2)) (inside p.w ((x : Int) + o.1))).1)
    (Config.bilateral (p.f (0x30 + 4 * e) 0 16) (p.f (0x30 + 4 * e) 16 16) n).toNat

/-- What temporal reduction reads beside the frame (R88, R89): the mode, the exposure scale in U8.8, the history of frame N - 1 by
line and column, and the motion vector at a pixel in 1/32 pixel, when valid. -/
structure TnrEnv where
  on : Bool
  mode : Nat
  scale : Nat
  hist : Nat → Nat → Nat
  vec : Nat → Nat → Option (Int × Int)

/-- The two places of a pixel's colour phase around a position in 1/32 pixel along one axis of n, k being the pixel's own place, and the
weight of the second over 64 (R88). -/
def phasePlaces (n k : Nat) (pos : Int) : Nat × Nat × Nat :=
  let r := pos - 32 * (k % 2 : Nat)
  let i := r / 64
  let f := (r % 64).toNat
  let clampPhase (j : Int) : Nat :=
    (clampInt 0 (((n - 1 - k % 2) / 2 : Nat) : Int) j).toNat * 2 + k % 2
  (clampPhase i, clampPhase (i + 1), f)

/-- The position, by line and column in 1/32 pixel, at which a pixel samples the history; none where it is reset (R88). -/
def tnrPos (w h : Nat) (t : TnrEnv) (y x : Nat) : Option (Int × Int) :=
  match (if t.mode = 0 then t.vec y x else some (0, 0)) with
  | none => none
  | some (fx, fy) =>
    let px := 32 * (x : Int) - fx
    let py := 32 * (y : Int) - fy
    if t.mode = 2 ∨ px < 0 ∨ py < 0 ∨ 32 * ((w : Int) - 1) < px ∨ 32 * ((h : Int) - 1) < py then none else some (py, px)

/-- Bilinear sum of the four nearest history values of the pixel's colour phase, over 4,096 (R88); position in 1/32 pixel. -/
def histSample (p : PixEnv) (t : TnrEnv) (y x : Nat) (py px : Int) : Nat :=
  let (x0, x1, fx) := phasePlaces p.w x px
  let (y0, y1, fy) := phasePlaces p.h y py
  (64 - fy) * ((64 - fx) * t.hist y0 x0 + fx * t.hist y0 x1) + fy * ((64 - fx) * t.hist y1 x0 + fx * t.hist y1 x1)

/-- Stage 6 (R88): the blended value, and whether the pixel was reset. -/
def stage6 (p : PixEnv) (t : TnrEnv) (y x : Nat) : Nat × Bool :=
  let v := stage5 p y x
  if !t.on then (v, false)
  else
    match tnrPos p.w p.h t y x with
    | none => (v, true)
    | some (py, px) =>
      let e := (stage4 p y x).2.1
      let sum := histSample p t y x py px
      let den := 2 ^ 40
      let h := sum * sum * t.scale
      let s := p.f (0x30 + 4 * e) 0 16 * v + 4096 * p.f (0x30 + 4 * e) 16 16
      let diff := absDiff (v * den) h
      let k := p.f 0x3C 8 8
      let alpha := if s = 0 then (if diff = 0 then 0 else 256)
        else (isqrt (4 * (256 * k * diff) * (256 * k * diff) / (den * den * s)) + 1) / 2
      let al := max (p.f 0x3C 0 8) (min 256 alpha)
      (min 0xFFFFFF (roundDiv (h * (256 - al) + al * v * den) (256 * den)), false)

/-- A gain of the shading grid (R90). -/
def shadeGain (p : PixEnv) (j i k : Nat) : Nat := field p.shade (8 * (33 * j + i) + 2 * k) 2

/-- Stage 7 (R90): bilinear gains between nodes, U4.12, saturating. -/
def stage7 (p : PixEnv) (t : TnrEnv) (y x : Nat) : Nat :=
  let v := (stage6 p t y x).1
  if p.f 8 8 1 = 0 then v
  else
    let k := cfaPos x y
    let dx := p.w - 1
    let dy := p.h - 1
    let i := min 31 (32 * x / dx)
    let j := min 23 (24 * y / dy)
    let a := 32 * x - i * dx
    let b := 24 * y - j * dy
    let g (jj ii : Nat) := shadeGain p jj ii k
    let n := (dy - b) * ((dx - a) * g j i + a * g j (i + 1)) + b * ((dx - a) * g (j + 1) i + a * g (j + 1) (i + 1))
    min 0xFFFFFF (roundDiv (v * n) (4096 * dx * dy))

/-- Stage 8: white balance, U4.12, saturating. -/
def stage8 (p : PixEnv) (t : TnrEnv) (y x : Nat) : Nat :=
  let k := cfaPos x y
  min 0xFFFFFF (roundDiv (stage7 p t y x * p.f (0x40 + 4 * (k / 2)) (16 * (k % 2)) 16) 4096)

/-- Stage 9 (R90): the demosaic, whose rule the spec leaves open, over 5 x 5 values with the phase of the pixel in the pattern. -/
def stage9 (p : PixEnv) (t : TnrEnv) (y x ch : Nat) : Nat :=
  let n := (List.range 25).map (fun m =>
    stage8 p t (inside p.h ((y : Int) + (m / 5 : Nat) - 2)) (inside p.w ((x : Int) + (m % 5 : Nat) - 2)))
  (Config.demosaic ch (4 * p.f 8 0 2 + cfaPos x y) n).toNat

/-- Colour-correction coefficient n, S4.12 (R99). -/
def ccm (p : PixEnv) (n : Nat) : Int := toSigned 16 (p.f (0x48 + 4 * (n / 2)) (16 * (n % 2)) 16)

/-- Stage 10: a channel of the colour correction. -/
def stage10 (p : PixEnv) (v : Nat → Nat) (ch : Nat) : Nat :=
  let s := ccm p (3 * ch) * (v 0 : Nat) + ccm p (3 * ch + 1) * (v 1 : Nat) + ccm p (3 * ch + 2) * (v 2 : Nat)
  (clampInt 0 0xFFFFFF (roundDivInt s 4096)).toNat

/-- Stage 11 (R90): the tone curve; with no table named, U24 to U16 alone. -/
def stage11 (p : PixEnv) (v : Nat) : Nat :=
  if p.tone.isEmpty then min 65535 (roundDiv v 256)
  else
    let t := compand v
    let e (i : Nat) := field p.tone (2 * i) 2
    roundDiv (e (t / 64) * (64 - t % 64) + e (t / 64 + 1) * (t % 64)) 64

/-- Luma weights of red and blue, over 10,000, of a conversion (R90). -/
def cscWeights : Nat → Nat × Nat
  | 1 => (2990, 1140)
  | 2 => (2126, 722)
  | _ => (2627, 593)

/-- Stage 12 (R90): conversion to YCbCr at 16 bits, full range for BT.601, limited for the others. -/
def stage12 (p : PixEnv) (r g b ch : Nat) : Nat :=
  let mode := p.f 0x5C 0 2
  if mode = 0 then (match ch with
    | 0 => r
    | 1 => g
    | _ => b)
  else
    let (kr, kb) := cscWeights mode
    let y := kr * r + (10000 - kr - kb) * g + kb * b
    let clamp16 (v : Int) : Nat := (clampInt 0 65535 v).toNat
    match ch with
    | 0 => if mode = 1 then clamp16 (roundDivInt y 10000) else clamp16 (4096 + roundDivInt ((y : Int) * 56064) (10000 * 65535))
    | _ =>
      let c := if ch = 1 then b else r
      let k := if ch = 1 then kb else kr
      let n : Int := 10000 * (c : Int) - y
      if mode = 1 then clamp16 (32768 + roundDivInt n (2 * (10000 - k)))
      else clamp16 (32768 + roundDivInt (n * 57344) (2 * (10000 - k) * 65535))

/-- The three U16 channels of a pixel after stage 12. -/
def pixelOut (p : PixEnv) (t : TnrEnv) (developed : Bool) (dev : Nat → Nat → Nat → Nat) (y x : Nat) : Nat × Nat × Nat :=
  let v (ch : Nat) := if developed then dev y x ch else stage9 p t y x ch
  let a := [0, 1, 2].map (fun ch => stage11 p (stage10 p v ch))
  let c (ch : Nat) := stage12 p (a.getD 0 0) (a.getD 1 0) (a.getD 2 0) ch
  (c 0, c 1, c 2)

/-- The RGB values after stage 11, for the luma statistics (R92). -/
def pixelTone (p : PixEnv) (t : TnrEnv) (developed : Bool) (dev : Nat → Nat → Nat → Nat) (y x : Nat) : Nat × Nat × Nat :=
  let v (ch : Nat) := if developed then dev y x ch else stage9 p t y x ch
  (stage11 p (stage10 p v 0), stage11 p (stage10 p v 1), stage11 p (stage10 p v 2))

/-- The flag byte of a pixel (R87). -/
def pixelFlags (p : PixEnv) (t : TnrEnv) (developed : Bool) (y x : Nat) : Nat :=
  let rep := if p.repaired y then 32 else 0
  if developed then rep
  else
    let e := (stage4 p y x).2.1
    let s := (stage4 p y x).2.2
    let defect := staticDefect p y x || dynamicDefect p e y x
    b2n defect + 2 * b2n s + 4 * b2n (stage6 p t y x).2 + 8 * e + rep

end Sys2Proof.Machine
end

