-- ==== Sys2Proof/Machine/Isp.lean ====
section
/-! DEFINITION. Image pipes (R84-R99): frames of a context, lines through the stage chain, output rings, statistics, settings and
epochs, and the ISP commands. A context's number is 16 * pipe + context, as in getIsp. -/

namespace Sys2Proof.Machine

/-- A register of a set, reset value where unlisted. -/
def setReg (s : SMap W32) (o : Nat) : W32 := mapGet (ispReset o) o s

/-- A field of a frame's register in force. -/
def IspFrame.f (x : IspFrame) (o lo len : Nat) : Nat := fld (setReg x.set o) lo len

/-- DVA of a frame's table j (R99, TABj). -/
def IspFrame.tab (x : IspFrame) (j : Nat) : Nat := (setReg x.set (0x60 + 8 * j)).toNat + 2 ^ 32 * x.f (0x64 + 8 * j) 0 16

/-- Requester number of a pipe among open-pool requesters, and its number among posting sources (R29). -/
def ispParty (pipe : Nat) : Party := { req := 128 + pipe % 4 }

/-- A counter of a pipe (R99). -/
def ispCnt (pipe i n : Nat) (d : Dev) : Dev := addCnt .isp pipe (0x10 + 4 * i) n d

/-- A fault of a pipe's DRAM access: recorded, and the instance voided with reason 2 or 3 (R98, R251). -/
def ispFault (pipe stream index cause addr : Nat) (d : Dev) : Dev :=
  if cause = 0 then voidFrame 3 false stream index (noteDramUe addr d)
  else voidFrame 2 false stream index (noteFault (pipe / 4) addr cause 72 d)

/-- Exposures that the pipe merges (R59, R87). -/
def mergedExps (x : IspFrame) : Nat := if x.f 8 2 2 = 1 ∨ x.f 8 2 2 = 2 then x.exps else 1

/-- Temporal reduction runs for the frame (R89). -/
def tnrRuns (x : IspFrame) : Bool := x.f 8 6 1 == 1 && !x.developed

/-- Bytes of one history buffer, rounded up to 16 KiB (R88). -/
def histBytes (x : IspFrame) : Nat := ceilDiv (x.width * x.height * 2) 16384 * 16384

/-- DVA of a pixel of the history of a frame index (R88). -/
def histAddr (x : IspFrame) (n y c : Nat) : Nat := x.tab 5 + n % 2 * histBytes x + 2 * (y * x.width + c)

/-- DVA of the flow plane of the frame before, and size in elements of a line (R89). -/
def flowPlaneAt (x : IspFrame) : Nat :=
  x.tab 6 + (x.index + 2 ^ 32 - 1) % 2 ^ 32 % max 1 (x.f 0x3C 20 4) * (setReg x.set 0xA0).toNat

def flowWidth (x : IspFrame) : Nat := ceilDiv x.width (2 ^ x.f 0x3C 16 4)

/-- DVA of the flow vector of a pixel (R88, R89). -/
def flowAddr (x : IspFrame) (y c : Nat) : Nat :=
  let sh := x.f 0x3C 16 4
  flowPlaneAt x + y / 2 ^ sh / 32 * (ceilDiv (flowWidth x) 64 * 8192) + tileOff 4 (y / 2 ^ sh) (c / 2 ^ sh)

/-- The lines whose stage-6 values output line y needs: those of the demosaic's neighbourhood (R90). -/
def nearLines (x : IspFrame) (y : Nat) : List Nat :=
  ((List.range 5).map (fun k => inside x.height ((y : Int) + (k : Nat) - 2))).eraseDups

/-- The 32-byte blocks of a list of addresses, as ranges to be read. -/
def blockReads (l : List Nat) : List (Nat × Nat × PageUse) := ((l.map (· / 32)).eraseDups).map (fun b => (32 * b, 32, PageUse.read))

/-- Ranges of DRAM that the processing of output line y of a frame reads before its history: the tables named, and the flow vectors
(R87, R88, R90). -/
def tableRanges (x : IspFrame) (y : Nat) : List (Nat × Nat × PageUse) :=
  let raw := !x.developed
  (if raw && x.f 0x24 16 16 != 0 then [(x.tab 0, 4 * x.f 0x24 16 16, PageUse.read)] else [])
  ++ (if raw && x.f 8 2 2 == 3 then [(x.tab 2, 128, PageUse.read)] else [])
  ++ (if raw && x.f 8 8 1 == 1 then [(x.tab 3, 6600, PageUse.read)] else [])
  ++ (if x.tab 4 != 0 then [(x.tab 4, 2050, PageUse.read)] else [])
  ++ (if tnrRuns x && x.mode == 0 then
        blockReads ((nearLines x y).flatMap (fun l => (List.range x.width).map (flowAddr x l)))
      else [])

/-- Ranges of the history that output line y reads, where its pixels sample it, and writes (R88). -/
def histRanges (x : IspFrame) (t : TnrEnv) (y : Nat) : List (Nat × Nat × PageUse) :=
  let one (l c : Nat) : List Nat :=
    match tnrPos x.width x.height t l c with
    | none => []
    | some (py, px) =>
      let (x0, x1, _) := phasePlaces x.width c px
      let (y0, y1, _) := phasePlaces x.height l py
      [histAddr x (x.index + 1) y0 x0, histAddr x (x.index + 1) y0 x1, histAddr x (x.index + 1) y1 x0, histAddr x (x.index + 1) y1 x1]
  if !tnrRuns x then []
  else blockReads ((nearLines x y).flatMap (fun l => (List.range x.width).flatMap (one l)))
    ++ [(histAddr x x.index y 0, 2 * x.width, PageUse.write)]

/-- The pixel environment of a frame in a state of memory, under a translation. -/
def pixEnv (d : Dev) (pa : Nat → Nat) (x : IspFrame) : PixEnv :=
  let row (e y : Nat) := ((x.taken.getD e []).getD y ([], false)).1
  { w := x.width, h := x.height, reg := setReg x.set, raw := fun e y c => unpackRaw x.typ (row e y) c
    repaired := fun y => (List.range (mergedExps x)).any (fun e => ((x.taken.getD e []).getD y ([], false)).2)
    exps := mergedExps x
    defects := (chunks 4 (x.f 0x24 16 16) (peekVia d pa (x.tab 0) (4 * x.f 0x24 16 16))).map (fun e => (field e 0 2, field e 2 2))
    knees := (chunks 8 16 (peekVia d pa (x.tab 2) 128)).map (fun e => (field e 0 2, field e 4 3))
    shade := peekVia d pa (x.tab 3) 6600
    tone := if x.tab 4 = 0 then [] else peekVia d pa (x.tab 4) 2050 }

/-- The temporal environment of a frame (R88, R89). -/
def tnrEnv (d : Dev) (pa : Nat → Nat) (x : IspFrame) : TnrEnv :=
  let sh := x.f 0x3C 16 4
  { on := tnrRuns x, mode := x.mode, scale := x.scale
    hist := fun y c => leNat (peekVia d pa (histAddr x (x.index + 1) y c) 2)
    vec := fun y c =>
      let v := leNat (peekVia d pa (flowAddr x y c) 4)
      if v % 65536 = 0x8000 then none
      else some (toSigned 16 v * 2 ^ sh, toSigned 16 (v / 65536) * 2 ^ sh) }

/-- Stage-1 channels of a developed frame. -/
def devValue (x : IspFrame) (y c ch : Nat) : Nat := unpackDeveloped x.typ (((x.taken.getD 0 []).getD y ([], false)).1) c ch

/-! ### Statistics (R92) -/

/-- Cell of a coordinate among n cells over w. (DEDUCED, log 36.) -/
def cellOf (n w c : Nat) : Nat := ((List.range n).find? (fun i => c < (i + 1) * w / n)).getD (n - 1)

def bump (k v : Nat) (m : SMap Nat) : SMap Nat := mapUpd 0 k (· + v) m

/-- The counts of one pixel added: AE after stage 4, AWB after stage 7, luma after stage 11. (DEDUCED, log 36.) -/
def statPixel (p : PixEnv) (t : TnrEnv) (x : IspFrame) (y c : Nat) (s : StatsAcc) : StatsAcc :=
  let fl := pixelFlags p t x.developed y c
  if bit fl 0 then s
  else
    let dv := devValue x
    let aeV := if x.developed then dv y c 1 else (stage4 p y c).1
    let s1 := { s with ae := bump (compand aeV / 256) 1 s.ae }
    let cell := 32 * cellOf 24 x.height y + cellOf 32 x.width c
    let s2 :=
      if bit fl 1 then s1
      else if x.developed then
        { s1 with awbR := bump cell (dv y c 0 / 256) s1.awbR, awbG := bump cell (dv y c 1 / 256) s1.awbG
                  awbB := bump cell (dv y c 2 / 256) s1.awbB, awbN := bump cell 1 s1.awbN }
      else
        let v := stage7 p t y c / 256
        let s3 := { s1 with awbN := bump cell 1 s1.awbN }
        match cfaColour (p.f 8 0 2) (cfaPos c y) with
        | 0 => { s3 with awbR := bump cell v s3.awbR }
        | 1 => { s3 with awbG := bump cell v s3.awbG }
        | _ => { s3 with awbB := bump cell v s3.awbB }
    let (r, g, b) := pixelTone p t x.developed dv y c
    let lum := (77 * r + 150 * g + 29 * b) / 256
    let lc := 16 * cellOf 12 x.height y + cellOf 16 x.width c
    { s2 with lumaSum := bump lc lum s2.lumaSum, lumaN := bump lc 1 s2.lumaN, lumaMax := mapUpd 0 lc (max lum) s2.lumaMax }

/-- DVA of the statistics block of a frame (R92). -/
def statsAddr (x : IspFrame) : Nat := x.tab 7 + x.index % max 1 (x.f 0xA4 4 4) * 16384

/-- The header of the statistics block (R92). -/
def statsHeader (d : Dev) (x : IspFrame) (flags dt : Nat) : List Byte :=
  leBytes 2 0x0101 ++ leBytes 1 flags ++ leBytes 1 x.stream ++ leBytes 4 x.index ++ leBytes 8 x.fs
    ++ leBytes 2 x.epoch ++ leBytes 2 0 ++ leBytes 4 (planeOf d x.plane).gen ++ leBytes 8 dt

/-- The whole statistics block (R92): a luma cell holds the mean and the maximum. -/
def statsBlock (d : Dev) (x : IspFrame) : List Byte :=
  let s := x.stats
  let u32 (m : SMap Nat) (k : Nat) := leBytes 4 (mapGet 0 k m)
  statsHeader d x 7 d.dt
    ++ (List.range 256).flatMap (u32 s.ae)
    ++ (List.range 768).flatMap (fun k => u32 s.awbR k ++ u32 s.awbG k ++ u32 s.awbB k ++ u32 s.awbN k)
    ++ (List.range 192).flatMap (fun k =>
        let n := mapGet 0 k s.lumaN
        leBytes 2 (if n = 0 then 0 else mapGet 0 k s.lumaSum / n) ++ leBytes 2 (mapGet 0 k s.lumaMax))

/-- The statistics block complete: written, STATS_DONE posted, EV bit 26 reported (R92, R181, R314). -/
def statsComplete (pipe : Nat) (x : IspFrame) (d : Dev) : Dev :=
  match pipeRanges pipe [(statsAddr x, 14112, .write)] [] d with
  | (some (c, a), _, d) => ispFault pipe x.stream x.index c a d
  | (none, pt, d) =>
    let a := statsAddr x
    let i := findInst d x.stream x.index
    let e := typedEvent d (pipe / 4) 6 (2 ^ 31 + a / 16384 % 2 ^ 24 + a % 16384 / 128 * 2 ^ 24)
    frameEvent 26 x.stream x.index
      (post { q := pipe / 4, src := 144 + pipe % 4, ev := { e with key := e.key / 256 * 256 + x.stream }, dl := instDl d i, attach := i }
        (writeVia (paVia pt) a (statsBlock d x) d))

/-! ### Outputs (R91) -/

/-- Size of an output, the input's where 0. -/
def outSize (x : IspFrame) (o : Nat) : Nat × Nat :=
  let w := x.f (0xB4 + 16 * o) 0 16
  let h := x.f (0xB4 + 16 * o) 16 16
  (if w = 0 then x.width else w, if h = 0 then x.height else h)

/-- Channel ch of the input picture after stage 12. -/
def chan (ch : Nat) (v : Nat × Nat × Nat × Nat) : Nat :=
  match ch with
  | 0 => v.1
  | 1 => v.2.1
  | _ => v.2.2.1

/-- A pixel of an output (R91): the picture itself at full size, otherwise the polyphase filter, whose taps the spec leaves
open. -/
def outPixel (x : IspFrame) (w h y c ch : Nat) : Nat :=
  if w = x.width ∧ h = x.height then chan ch ((x.out.getD y []).getD c (0, 0, 0, 0))
  else
    let lo := y * x.height / h - 3
    let lines := ((x.out.drop lo).take (ceilDiv x.height h + 7)).map (fun l => l.map (chan ch))
    (Config.scaled [ch, x.width, x.height, w, h, c, y] lines).toNat

/-- A scaled flag byte (R91): the OR over the footprint, the exposure index of the nearest pixel. -/
def outFlags (x : IspFrame) (w h y c : Nat) : Nat :=
  let fl (yy cc : Nat) := ((x.out.getD yy []).getD cc (0, 0, 0, 0)).2.2.2
  let y0 := y * x.height / h
  let y1 := max (y0 + 1) (ceilDiv ((y + 1) * x.height) h)
  let c0 := c * x.width / w
  let c1 := max (c0 + 1) (ceilDiv ((c + 1) * x.width) w)
  let all := (List.range (y1 - y0)).foldl (fun a i => (List.range (c1 - c0)).foldl (fun a j => a ||| fl (y0 + i) (c0 + j)) a) 0
  let near := fl ((2 * y + 1) * x.height / (2 * h)) ((2 * c + 1) * x.width / (2 * w))
  putBits all 3 2 (bits near 3 2)

/-- A value reduced by s bits, saturating (R91). -/
def reduceBits (s v : Nat) : Nat := min (2 ^ (16 - s) - 1) ((v + 2 ^ (s - 1)) / 2 ^ s)

/-- The bytes of tile row r of an output in its format (R91). -/
def outTileRow (x : IspFrame) (o r : Nat) : List Byte :=
  let (w, h) := outSize x o
  let px := outPixel x w h
  let u8 (v : Nat) := leBytes 1 (reduceBits 8 v)
  let u16 (v : Nat) := leBytes 2 v
  let chroma (fmt y c : Nat) : Nat :=
    let yy := 2 * y
    let cc := c / 2 * 2
    let ch := 1 + c % 2
    (Config.chroma fmt ch [px (min (h - 1) yy) (min (w - 1) cc) ch, px (min (h - 1) yy) (min (w - 1) (cc + 1)) ch,
      px (min (h - 1) (yy + 1)) (min (w - 1) cc) ch, px (min (h - 1) (yy + 1)) (min (w - 1) (cc + 1)) ch]).toNat
  let chromaRow (fmt : Nat) (put : Nat → List Byte) :=
    let last := ceilDiv h 2 - 1
    tileRow w (32 * (r + 1)) r (fun y c => put (chroma fmt (min last (16 * r + min 15 (y - 32 * r))) c))
  match x.f (0xB0 + 16 * o) 1 4 with
  | 0 => tileRow w h r (fun y c => u8 (px y c 0) ++ u8 (px y c 1) ++ u8 (px y c 2))
  | 1 => [0, 1, 2].flatMap (fun ch => tileRow w h r (fun y c => u8 (px y c ch)))
  | 2 => [0, 1, 2].flatMap (fun ch => tileRow w h r (fun y c => u16 (px y c ch)))
  | 3 => tileRow w h r (fun y c => u8 (px y c 0)) ++ chromaRow 3 u8
  | 4 => tileRow w h r (fun y c => u16 (reduceBits 6 (px y c 0))) ++ chromaRow 4 (fun v => u16 (reduceBits 6 v))
  | 5 => tileRow w h r (fun y c => u8 (px y c 0))
  | _ => tileRow w h r (fun y c => u16 (px y c 0))

/-- The input line that completes tile row r of an output (R85, R91). -/
def tileRowNeeds (x : IspFrame) (o r : Nat) : Nat :=
  let h := (outSize x o).2
  let last := min (32 * r + 31) (h - 1)
  if h = x.height then last else min (x.height - 1) ((last + 1) * x.height / h + 2)

/-- The tile rows of an output that the lines out of stage 12 complete, in order, with their flag rows. -/
def formRows (x : IspFrame) (o : Nat) : Nat → List IspRow × Nat → List IspRow × Nat
  | 0, a => a
  | fuel + 1, (rows, r) =>
    let (w, h) := outSize x o
    if r < ceilDiv h 32 ∧ tileRowNeeds x o r < x.done then
      let pic : IspRow := { ring := x.f (0xB0 + 16 * o) 8 8, bytes := outTileRow x o r, stream := x.stream, index := x.index }
      let side : List IspRow :=
        if x.f (0xB0 + 16 * o) 5 1 = 1 then
          [{ ring := x.f (0xB0 + 16 * o) 16 8, bytes := tileRow w h r (fun y c => leBytes 1 (outFlags x w h y c)), stream := x.stream
             index := x.index }]
        else []
      formRows x o fuel (rows ++ pic :: side, r + 1)
    else (rows, r)

/-- The tile rows that have become complete, both outputs, and the frame with them counted. -/
def takeRows (x : IspFrame) : List IspRow × IspFrame :=
  [0, 1].foldl (fun a o =>
    if a.2.f (0xB0 + 16 * o) 0 1 = 0 then a
    else
      let (rs, n) := formRows a.2 o 129 (a.1, a.2.rows.getD o 0)
      (rs, { a.2 with rows := setAt o n a.2.rows })) ([], x)

/-- Waiting tile rows of a context written while their rings have free slots (R86, R91); with one left the context stalls. -/
def flushRows (pipe i : Nat) : Nat → Dev → Dev
  | 0, d => d
  | fuel + 1, d =>
    match (getIsp d i).rows with
    | [] => updIsp i (fun x => { x with stalled := false }) d
    | r :: rest =>
      if slotFreeIn d (pipe / 4) r.ring then
        flushRows pipe i fuel
          (produceSlot (ispParty pipe) (pipe / 4) r.ring r.bytes (findInst d r.stream r.index) (updIsp i (fun x => { x with rows := rest }) d))
      else updIsp i (fun x => { x with stalled := true }) d

/-! ### Lines through the chain (R85) -/

/-- A line processed (R434, R436). -/
def ispLineCount (pipe : Nat) (d : Dev) : Dev :=
  pmuEv (pipe / 4) 60 1 (byMaster 5 (pipe % 4)) .none (pmuUc (pipe / 4) (512 + 8 * (pipe % 4) + 6) 1 d)

/-- Output line y of the frame in a context: pixels, history, statistics and the rows it completes. -/
def processLine (pipe i : Nat) (d : Dev) : Dev :=
  match (getIsp d i).frame with
  | none => d
  | some x =>
    let y := x.done
    let a := pipeRanges pipe (tableRanges x y) [] d
    let b := match a.1 with
      | some _ => a
      | none => pipeRanges pipe (histRanges x (tnrEnv a.2.2 (paVia a.2.1) x) y) a.2.1 a.2.2
    let d := b.2.2
    let pa := paVia b.2.1
    match b.1 with
    | some (c, a) => ispFault pipe x.stream x.index c a d
    | none =>
      let p := pixEnv d pa x
      let t := tnrEnv d pa x
      let cols := List.range x.width
      let line := cols.map (fun c =>
        let (r, g, b) := pixelOut p t x.developed (devValue x) y c
        (r, g, b, pixelFlags p t x.developed y c))
      let hist := cols.flatMap (fun c => leBytes 2 (compand (stage6 p t y c).1))
      let dyn := if x.developed then 0 else
        (List.range p.exps).foldl (fun n e => cols.foldl (fun n c => n + b2n (dynamicDefect p e y c)) n) 0
      let stats := if x.f 0xA4 0 1 = 1 then cols.foldl (fun s c => statPixel p t x y c s) x.stats else x.stats
      let d1 := if tnrRuns x then writeVia pa (histAddr x x.index y 0) hist d else d
      let x1 := { x with done := y + 1, out := x.out ++ [line], stats := stats }
      let (rows, x2) := takeRows x1
      let d2 := updIsp i (fun c => { c with frame := some x2, rows := c.rows ++ rows }) (ispLineCount pipe (ispCnt pipe 0 dyn d1))
      flushRows pipe i (rows.length + (getIsp d i).rows.length + 1) d2

/-- The frame of a context is complete: its last line has left stage 12 (R181 bit 25), and the next frame of the stream takes the
context. -/
def frameDone (pipe i : Nat) (x : IspFrame) (d : Dev) : Dev :=
  let d1 := updIsp i (fun c =>
    { c with frame := c.next, next := none
             prev := some { stream := x.stream, index := x.index, passed := true, tab5 := x.tab 5, tnrEn := tnrRuns x,
                            vals := x.vals } }) (frameEvent 25 x.stream x.index d)
  guardDev (x.f 0xA4 0 1 == 1) (statsComplete pipe x) d1

/-- Place in the HDR staging table of a line that waits as the k-th of its exposures (R87): 128 lines of twice the width in bytes for
each additional exposure. (DESIGN CHOICE, log 130.) -/
def stageAddr (x : IspFrame) (k y : Nat) : Nat := x.tab 1 + (128 * k + y % 128) * (2 * x.width)

/-- The line y that exposure e has brought to a frame of several exposures (R87): while the same line of another is still to come it
goes into the staging table; with the last one the waiting lines come back from there. A fault of the table, and the frame. -/
def stageLine (pipe e y : Nat) (x : IspFrame) (d : Dev) : Option (Nat × Nat) × IspFrame × Dev :=
  let order := mapGet [] y x.staged
  let len := min (lineBytes x.typ x.width) (2 * x.width)
  if mergedExps x ≤ 1 then (none, x, d)
  else if order.length + 1 < mergedExps x then
    match pipeRanges pipe [(stageAddr x order.length y, len, .write)] [] d with
    | (some f, _, d1) => (some f, x, d1)
    | (none, pt, d1) =>
      let line := (((x.taken.getD e []).getD y ([], false)).1 ++ List.replicate len 0#8).take len
      (none, { x with staged := mapSet [] y (order ++ [e]) x.staged }, writeVia (paVia pt) (stageAddr x order.length y) line d1)
  else
    match pipeRanges pipe (order.zipIdx.map (fun o => (stageAddr x o.2 y, len, PageUse.read))) [] d with
    | (some f, _, d1) => (some f, x, d1)
    | (none, pt, d1) =>
      let back := order.zipIdx.foldl (fun t o => t.modify o.1 (fun l =>
        l.modify y (fun r => (peekVia d1 (paVia pt) (stageAddr x o.2 y) len, r.2)))) x.taken
      (none, { x with taken := back, staged := mapSet [] y [] x.staged }, d1)

/-- The output lines that the lines taken make possible (R85): line k once line k + D has passed stage 1, all at the bottom. -/
def runLines (pipe i : Nat) : Nat → Dev → Dev
  | 0, d => d
  | fuel + 1, d =>
    match (getIsp d i).frame with
    | none => d
    | some x =>
      let have_ := (List.range (mergedExps x)).foldl (fun m e => min m (x.taken.getD e []).length) x.height
      let delay := if x.developed then 0 else 6
      if x.done = x.height then frameDone pipe i x d
      else if have_ = x.height ∨ x.done + delay < have_ then runLines pipe i fuel (processLine pipe i d)
      else d

/-- ISP_LINE_DONE (R85): the line in work has passed the chain. (DEDUCED, log 38.) -/
def ispLineDone (pipe vx : Nat) (d : Dev) : Dev :=
  match mapGet none pipe d.isp.work with
  | none => d
  | some w =>
    if vxAt d vx < w.due then d
    else
      let d1 := { d with isp := { d.isp with work := mapSet none pipe none d.isp.work } }
      let i := 16 * pipe + w.ctx
      match (getIsp d1 i).frame with
      | none => d1
      | some x =>
        if x.index ≠ w.line.index then d1
        else
          let x1 := { x with taken := x.taken.modify w.line.exp (· ++ [(w.line.data, w.line.repaired)]) }
          let y := (x.taken.getD w.line.exp []).length
          match stageLine pipe w.line.exp y x1 d1 with
          | (some f, x2, d2) => ispFault pipe x.stream x.index f.1 f.2 (updIsp i (fun c => { c with frame := some x2 }) d2)
          | (none, x2, d2) => runLines pipe i (x.height + 2) (updIsp i (fun c => { c with frame := some x2 }) d2)

/-- The contexts of a pipe with a line that may be taken: not stalled, the line of the frame in the context (R85, R86). -/
def readyLines (d : Dev) (pipe : Nat) : List (Nat × IspLine) :=
  (List.range 16).filterMap (fun c =>
    let x := getIsp d (16 * pipe + c)
    match x.frame, x.buf with
    | some f, l :: _ => if !x.stalled && l.index == f.index then some (c, l) else none
    | _, _ => none)

/-- The element with the smallest arrival number. -/
def firstLine : List (Nat × IspLine) → Option (Nat × IspLine)
  | [] => none
  | a :: r => match firstLine r with
    | none => some a
    | some b => if a.2.arr ≤ b.2.arr then some a else some b

/-- The n lines that arrived first. -/
def oldestLines : Nat → List (Nat × IspLine) → List (Nat × IspLine)
  | 0, _ => []
  | n + 1, l => match firstLine l with
    | none => []
    | some a => a :: oldestLines n (l.filter (fun b => b.1 != a.1))

/-- ISP_LINE_START (R85): the pipe takes the line that arrived first; of n that became ready in one VX cycle, the winner of
R27. (DEDUCED, log 38.) -/
def ispLineStart (pipe n vx : Nat) (d : Dev) : Dev :=
  if getF d .isp pipe 0 0 1 = 0 ∨ (mapGet none pipe d.isp.work).isSome ∨ d.dt < d.wakeAt then d
  else
    let ls := oldestLines (max 1 n) (readyLines d pipe)
    let reqs := ls.map (fun l =>
      let f := (getIsp d (16 * pipe + l.1)).frame
      ({ id := l.1, dl := (match f with
          | some x => frameDl d x.stream x.index
          | none => noDeadline), rank := 0 } : ArbReq))
    let (win, d1) := arbitrate arbIsp pipe 16 reqs d
    match win with
    | none => d
    | some c =>
      match ls.find? (fun l => l.1 == c), (getIsp d1 (16 * pipe + c)).frame with
      | some (_, l), some x =>
        let due := vxAt d vx + ceilDiv x.width 4 + 24
        let d2 := updIsp (16 * pipe + c) (fun y => { y with buf := y.buf.drop 1 }) d1
        { d2 with isp := { d2.isp with work := mapSet none pipe (some { ctx := c, line := l, due := due }) d2.isp.work } }
      | _, _ => d

/-- ISP_STALL_RESUME (R86): the rows that waited are written as their rings allow. -/
def ispStallResume (pipe c : Nat) (d : Dev) : Dev :=
  let i := 16 * pipe + c
  let x := getIsp d i
  if !x.stalled then d else flushRows pipe i (x.rows.length + 1) d

/-- A line arrives at its context (R85, R86): into the line buffer of 8, or discarded with its frame voided, reason 4. -/
def ispArrive (pipe stream index exp : Nat) (data : List Byte) (repaired : Bool) (d : Dev) : Dev :=
  let i := 16 * pipe + stream % 16
  let x := getIsp d i
  let has := (match x.frame with
      | some f => f.stream == stream && f.index == index
      | none => false) || (match x.next with
      | some f => f.stream == stream && f.index == index
      | none => false)
  if !has then d
  else if 8 ≤ x.buf.length then voidFrame 4 false stream index (ispCnt pipe 5 1 d)
  else
    let n := mapGet 0 pipe d.isp.arr
    let l : IspLine := { index := index, exp := exp, data := data, repaired := repaired, arr := n }
    updIsp i (fun x => { x with buf := x.buf ++ [l] }) { d with isp := { d.isp with arr := mapSet 0 pipe (n + 1) d.isp.arr } }

/-! ### Settings, epochs and modes (R89, R93, R95, R96) -/

/-- The shadow set of a context: its registers, by offset. -/
def shadowSet (d : Dev) (i : Nat) : SMap W32 :=
  (List.range 128).foldl (fun m k => mapSet (ispReset (4 * k)) (4 * k) (getR d .ispCtx i (4 * k)) m) []

/-- COMMIT (R93): the shadow set is copied and made pending from this DT. It replaces what is pending, but for the last set committed
before this DT, which a Frame Start stamped at this DT would still make active (R10, R32). -/
def ispCommit (i : Nat) (d : Dev) : Dev :=
  updIsp i (fun x => { x with pending := ((x.pending.filter (fun p => p.1 < d.dt)).getLast?).toList ++ [(d.dt, shadowSet d i)] }) d

/-- Address of a context's COMMIT register. -/
def ispCommitAddr (i : Nat) : Nat := addrOf .ispCtx i 4

/-- A write of COMMIT. -/
def ispCommitEffect (i : Nat) (v : W32) (d : Dev) : Dev := guardDev (fld v 0 1 == 1) (ispCommit i) d

/-- A frame index has reached another: frame indices wrap at 2^32 (R61). -/
def reached (f index : Nat) : Bool := decide ((index + 2 ^ 32 - f % 2 ^ 32) % 2 ^ 32 < 2 ^ 31)

/-- The predicted sensor values of a frame: each value's latest write that holds from this frame or before (R95). -/
def predicted (x : IspCtx) (index : Nat) : SensorVals :=
  x.predict.foldl (fun v e =>
    if reached e.1 index then
      match e.2.1 with
      | 0 => { v with expo := e.2.2 }
      | 1 => { v with again := e.2.2 }
      | _ => { v with dgain := e.2.2 }
    else v) x.vals

/-- The exposure scale of R96 in U8.8; none where it is unavailable or lies outside [1/16, 16], and under EXPO_SCALE 0 when a
value changed. (DEDUCED, log 37.) -/
def expoScale (mode : Nat) (now before : SensorVals) : Option Nat :=
  let ratio (a b : Nat) : Option Nat :=
    if b = 0 ∨ 16 * a < b ∨ 16 * b < a then none else some (roundDiv (256 * a) b)
  match mode with
  | 1 => ratio now.expo before.expo
  | 2 => ratio (now.expo * now.again) (before.expo * before.again)
  | _ => if now = before then some 256 else none

/-- The TNR mode of a frame at its Frame Start (R89), its sensor values as predicted. (DEDUCED, log 37.) -/
def tnrModeAt (d : Dev) (c : IspCtx) (x : IspFrame) : Nat :=
  match c.frame, c.prev with
  | none, some p =>
    if !(p.stream == x.stream && (p.index + 1) % 2 ^ 32 == x.index && p.passed && p.tnrEn && p.tab5 == x.tab 5)
        || (expoScale (x.f 8 9 2) x.vals p.vals).isNone then 2
    else
      let flow := (mapGet [] x.stream d.flowDone).any (fun e => (e.1 + 1) % 2 ^ 32 == x.index && decide (e.2 < x.fs))
      if x.f 8 7 1 == 1 && flow && !p.voided then 0 else 1
  | _, _ => 2

/-- Flags and counts of a mode (R89). -/
def noteMode (pipe : Nat) (x : IspFrame) (d : Dev) : Dev :=
  if !tnrRuns x then d
  else match x.mode with
    | 0 => d
    | 1 => frameFlag 2 x.stream x.index (ispCnt pipe 1 1 d)
    | _ => frameFlag 4 x.stream x.index (ispCnt pipe 2 1 d)

/-- The settings epoch after another (R96): it wraps from 0xFFFF to 1. -/
def nextEpoch (e : Nat) : Nat := if e = 65535 then 1 else e + 1

/-- E of a frame of a stream with the frame's sensor values (R96): 1 more than the frame before's where a set became active at its Frame
Start, its values differ, or it is the stream's first accepted frame, before which alone E is 0. -/
def stepEpoch (stream : Nat) (activated : Bool) (vals : SensorVals) (d : Dev) : Dev :=
  let old := mapGet 0 stream d.epochs
  let e := if activated || old == 0 || mapGet {} stream d.lastVals != vals then nextEpoch old else old
  { d with epochs := mapSet 0 stream e d.epochs, lastVals := mapSet {} stream vals d.lastVals }

/-- The sensor values used for a frame (R95): the embedded report or the prediction. -/
def frameVals (c : IspCtx) (x : IspFrame) : SensorVals :=
  if x.embedded then x.report.getD (predicted c x.index) else predicted c x.index

/-- A frame that ended before its first pixel line takes its part in the stream's epochs before the next frame opens (R96). (DEDUCED, log 37.) -/
def settleEpoch (i : Nat) (d : Dev) : Dev :=
  match (getIsp d i).lost with
  | none => d
  | some x => stepEpoch x.stream x.activated (frameVals (getIsp d i) x) (updIsp i (fun c => { c with lost := none }) d)

/-- A Frame Start opens a frame in its context: the last set committed before it becomes active (R93), and the TNR mode is chosen, once
(R89). (DEDUCED, log 37.) -/
def ispOpen (pipe : Nat) (x : IspFrame) (d : Dev) : Dev :=
  let i := 16 * pipe + x.stream % 16
  let d := settleEpoch i d
  let c := getIsp d i
  let ripe := (c.pending.filter (fun p => p.1 < x.fs)).getLast?
  let set := (ripe.map (·.2)).getD c.active
  let x1 := { x with set := set, activated := ripe.isSome, first := mapGet 0 x.stream d.epochs == 0, vals := predicted c x.index }
  let m := tnrModeAt d c x1
  let x2 := { x1 with mode := m, scale := (expoScale (x1.f 8 9 2) x1.vals (mapGet {} x.stream d.lastVals)).getD 256 }
  noteMode pipe x2 (updIsp i (fun c =>
    { c with active := set, pending := c.pending.filter (fun p => x.fs ≤ p.1), tnrLast := m
             frame := if c.frame.isNone then some x2 else c.frame
             next := if c.frame.isNone then none else some x2 }) d)

/-- The frame of a context changed, be it the frame in the pipe or the next. -/
def updIspFrame (i stream index : Nat) (f : IspFrame → IspFrame) (d : Dev) : Dev :=
  let g (o : Option IspFrame) := o.map (fun x => if x.stream == stream && x.index == index then f x else x)
  updIsp i (fun c => { c with frame := g c.frame, next := g c.next }) d

/-- The frame of a stream in its context. -/
def ispFrameOf (d : Dev) (i stream index : Nat) : Option IspFrame :=
  let ok (o : Option IspFrame) := o.filter (fun x => x.stream == stream && x.index == index)
  match ok (getIsp d i).frame with
  | some x => some x
  | none => ok (getIsp d i).next

/-- The first pixel line of a frame (R95, R96): the embedded report or the prediction decides the sensor values, and the epoch is fixed.
The mode stays as chosen at the Frame Start (R89); where the values make the scale unavailable, the one of the Frame Start holds. (DEDUCED, log 37.) -/
def fixEpoch (pipe stream index : Nat) (d : Dev) : Dev :=
  let i := 16 * pipe + stream % 16
  match ispFrameOf d i stream index with
  | none => d
  | some x =>
    if x.fixed then d
    else
      let c := getIsp d i
      let pred := predicted c index
      let vals := frameVals c x
      let miss := x.embedded && x.report.isNone
      let differ := x.embedded && x.report.isSome && vals != pred
      let d1 := guardDev differ (fun d => frameFlag 8 stream index (ispCnt pipe 3 1 d)) d
      let d2 := guardDev miss (fun d => frameFlag 8 stream index (ispCnt pipe 4 1 d)) d1
      let d3 := stepEpoch stream x.activated vals d2
      let e := mapGet 0 stream d3.epochs
      let scale := expoScale (x.f 8 9 2) vals (mapGet {} stream d.lastVals)
      let x1 := { x with fixed := true, epoch := e, vals := vals, scale := scale.getD x.scale }
      let d4 := updIspFrame i stream index (fun _ => x1) d3
      let d5 := updIsp i (fun c => { c with vals := pred, predict := c.predict.filter (fun p => !reached p.1 index) }) d4
      let d6 := match findInst d5 stream index with
        | some n => updInst n (fun c => { c with epoch := some e }) d5
        | none => d5
      if x1.f 0xA4 0 1 = 0 then d6
      else
        match pipeRanges pipe [(statsAddr x1, 32, .write)] [] d6 with
        | (some (c, a), _, d7) => ispFault pipe stream index c a d7
        | (none, pt, d7) => writeVia (paVia pt) (statsAddr x1) (statsHeader d7 x1 0 0) d7

/-- The embedded report of a frame reaches its context (R95). -/
def ispReport (pipe stream index : Nat) (expo again : Nat) (d : Dev) : Dev :=
  let i := 16 * pipe + stream % 16
  updIspFrame i stream index (fun x =>
    { x with report := some { expo := expo, again := again, dgain := (predicted (getIsp d i) index).dgain } }) d

/-! ### The commands -/

/-- ISP_LINE_START (R85). -/
def execIspLineStart (pipe : Fin 16) (batch : Nat) (vx : Fin 5) (s : State) : Out State :=
  onDev (ispLineStart pipe.val batch vx.val) s

/-- ISP_LINE_DONE (R85). -/
def execIspLineDone (pipe : Fin 16) (vx : Fin 5) (s : State) : Out State := onDev (ispLineDone pipe.val vx.val) s

/-- ISP_STALL_RESUME (R86). -/
def execIspStallResume (pipe : Fin 16) (ctx : Fin 16) (s : State) : Out State := onDev (ispStallResume pipe.val ctx.val) s

/-- ISP_COMMIT (R93). -/
def execIspCommit (by_ : WriteBy) (pipe : Fin 16) (ctx : Fin 16) (v : W32) (s : State) : Out State :=
  onDev (guardDev (fld v 0 1 == 1) (fun d =>
    committedWrite (originOf d by_) (ispCommitAddr (16 * pipe.val + ctx.val)) v (ispCommitEffect (16 * pipe.val + ctx.val) v) d)) s

end Sys2Proof.Machine
end

