-- ==== Sys2Proof/Machine/Rx.lean ====
section
/-! DEFINITION. Camera ingress (R52-R70): receive ports, slots, frames and lines, embedded data, bulk transfers and sync windows,
and their commands. A slot's number is its stream ID, 16 * port + slot (R12). -/

namespace Sys2Proof.Machine

def getPort (d : Dev) (n : Nat) : RxPort := mapGet {} n d.rx.ports
def updPort (n : Nat) (f : RxPort → RxPort) (d : Dev) : Dev :=
  { d with rx := { d.rx with ports := mapUpd {} n f d.rx.ports } }

/-- Offset of a slot's register group in its port's block (R79). -/
def slotOff (stream o : Nat) : Nat := 0x100 + 0x40 * (stream % 16) + o

/-- A receive counter advanced, with its ERR bit (R65, R79). -/
def rxCnt (n i k : Nat) (d : Dev) : Dev :=
  if k = 0 then d
  else orR .rxp n 0x14 (2 ^ i) (addCnt .rxp n (0x20 + 4 * i) k (guardDev (i != 0 && i != 6) (hubUc (4 * n + 3) k) d))

/-- A long packet accepted, with its payload bytes (R435). -/
def rxAccepted (n len : Nat) (d : Dev) : Dev := hubUc (4 * n + 1) len (hubUc (4 * n) 1 d)

/-- The port takes packets: enabled, locked, calibrated where R53 requires it, and not stopped by failover or a power target
(R65, R381, R389). -/
def portAccepts (d : Dev) (n : Nat) : Bool :=
  let p := getPort d n
  p.en && getF d .rxp n 0xC 0 1 == 1 && !d.rx.stopped && (p.cphy || p.rate ≤ 1500 || p.calibrated)

/-- The enabled slot of a port that follows a virtual channel, as a stream ID (R56); a D-PHY port has virtual channels 0 to 15 (R55). -/
def slotOfVc (d : Dev) (n vc : Nat) : Option Nat :=
  if !(getPort d n).cphy && 16 ≤ vc then none
  else ((List.range 16).map (· + 16 * n)).find? (fun s => (getSlot d s).en && (getSlot d s).vc == vc)

/-- The enabled pixel slot that owns an exposure slot, with the exposure index (R59). -/
def ownerOf (d : Dev) (stream : Nat) : Option (Nat × Nat) :=
  let own (e : Nat) : Option (Nat × Nat) :=
    if stream % 16 < e then none
    else
      let s := getSlot d (stream - e)
      if s.en && s.kind == 0 && e ≤ s.exposures then some (stream - e, e) else none
  match own 1 with
  | some x => some x
  | none => own 2

/-! ### Register writes of ports and slots (R53, R54, R56, R59, R67) -/

def portCtlAddr (n : Nat) : Nat := addrOf .rxp n 0
def slotCtlAddr (stream : Nat) : Nat := addrOf .rxp (stream / 16) (slotOff stream 0)

/-- The rate lies within R52. -/
def rateOk (cphy : Bool) (r : Nat) : Bool := 80 ≤ r && r ≤ (if cphy then 6000 else 4500)

/-- Every open frame of a port ends as a bad frame (R54, R68). -/
def closePortFrames (n : Nat) (d : Dev) : Dev :=
  (List.range 16).foldl (fun d k =>
    match (getSlot d (16 * n + k)).frame with
    | some f => updSlot (16 * n + k) (fun s => { s with frame := none, discard := true }) (voidFrame 4 true (16 * n + k) f.index d)
    | none => updSlot (16 * n + k) (fun s => { s with bulk := none }) d) d

/-- A write of PORT_CTL (R54): EN from 0 to 1 takes PHY, LANES, RATE and LANE_MAP, if the rate is allowed; EN = 0 closes the open
frames. (DEDUCED, log 29.) -/
def portCtlEffect (n : Nat) (v : W32) (d : Dev) : Dev :=
  let p := getPort d n
  let d1 := storeFields (portCtlAddr n) v d
  match p.en, fld v 0 1 == 1 with
  | false, true =>
    let cphy := fld v 1 1 == 1
    let rate := getF d1 .rxp n 8 0 16
    if rateOk cphy rate then
      let lag := 2 + Config.tsLag cphy (fld v 2 2) rate % 11
      setR .rxp n 0x10 lag (setR .rxp n 0xC 0 (updPort n (fun p =>
        { p with en := true, calibrated := false, cphy := cphy, lanes := fld v 2 2, rate := rate, laneMap := (getR d1 .rxp n 4).toNat }) d1))
    else setF .rxp n 0 0 1 0 d1
  | true, false => setF .rxp n 0xC 0 1 0 (updPort n (fun p => { p with en := false, buf := [] }) (closePortFrames n d1))
  | _, _ => d1

/-- The enable of a slot is refused (R56, R59): another enabled slot has its virtual channel, or a slot that it would own does
not fit. -/
def slotConflict (d : Dev) (stream vc kind exposures : Nat) : Bool :=
  let n := stream / 16
  let k := stream % 16
  ((List.range 16).any (fun j => j != k && (getSlot d (16 * n + j)).en && (getSlot d (16 * n + j)).vc == vc))
  || (kind == 0 && exposures != 0 &&
      (decide (15 < k + exposures) || (List.range exposures).any (fun i =>
        let s := getSlot d (stream + i + 1)
        !(s.en && s.kind == 2) || (ownerOf d (stream + i + 1)).isSome)))

/-- A write of SLOT_CTL (R56, R59, R67). -/
def slotCtlEffect (stream : Nat) (v : W32) (d : Dev) : Dev :=
  let s := getSlot d stream
  let d1 := storeFields (slotCtlAddr stream) v d
  match s.en, fld v 0 1 == 1 with
  | false, true =>
    let ex := if fld v 6 2 = 0 then min 2 (fld v 16 2) else 0
    if slotConflict d1 stream (fld v 1 5) (fld v 6 2) ex then
      orR .rxp (stream / 16) (slotOff stream 4) 2 (setF .rxp (stream / 16) (slotOff stream 0) 0 1 0 d1)
    else updSlot stream (fun s => { s with en := true, vc := fld v 1 5, kind := fld v 6 2, exposures := ex }) d1
  | true, false =>
    let d2 := match s.frame with
      | some f => voidFrame 11 true stream f.index d1
      | none => d1
    let d3 := match ownerOf d stream with
      | some (o, _) =>
        if s.kind = 2 then (match (getSlot d2 o).frame with
          | some f => voidFrame 4 true o f.index d2
          | none => d2)
        else d2
      | none => d2
    updSlot stream (fun s => { s with en := false, frame := none, bulk := none }) d3
  | _, _ => d1

/-- A calibration sequence of a kind is one that the port accepts (R53): on D-PHY the initial and the periodic one at any rate, the
alternate one above 2,500 Mb/s; on C-PHY the preamble. -/
def skewAccepted (p : RxPort) : SkewKind → Bool
  | .initial => !p.cphy
  | .periodic => !p.cphy
  | .alternate => !p.cphy && decide (2500 < p.rate)
  | .preamble => p.cphy

/-- SKEW_CALIBRATION (R53): DESKEW_DONE at the first accepted sequence after the enable; the initial one opens a fast D-PHY port. -/
def skewCalibration (n : Nat) (k : SkewKind) (d : Dev) : Dev :=
  let p := getPort d n
  guardDev (p.en && skewAccepted p k) (fun d =>
    orR .rxp n 0xC 2 (updPort n (fun p => { p with calibrated := p.calibrated || k == .initial }) d)) d

/-! ### Sync windows (R63, R64) -/

/-- The sync group of a stream on a plane, when it has one that is enabled. -/
def syncGroup (d : Dev) (p stream : Nat) : Option Nat :=
  let r := routeOf (planeOf d p).sections stream
  if r.configured && r.sync < 64 && getF d .hub 0 (0x1000 + 4 * r.sync) 0 16 != 0 then some r.sync else none

/-- The streams of a group now: those whose ROUTE entry names it on the plane of their next Frame Start (R63). -/
def groupMembers (d : Dev) (g : Nat) : List Nat :=
  (List.range 256).filter (fun s => syncGroup d (routePlane d s d.dt) s == some g)

/-- A window closes (R63, R64): an absent member is counted, and every member's home Drover gets the notice; a member that joined is
that of the plane on which its Frame Start was placed. (DEDUCED, log 118.) -/
def syncClose (g : Nat) (d : Dev) : Dev :=
  match mapGet none g d.rx.sync with
  | none => d
  | some w =>
    let present := w.joined.map (·.1)
    let all := groupMembers d g
    let absent := all.filter (fun s => !present.contains s)
    let homes := (w.homes ++ absent.filterMap (fun s =>
      let p := routePlane d s d.dt
      (findGraph (planeOf d p).sections (routeOf (planeOf d p).sections s).gid).map (·.home))).eraseDups
    let ns : List GroupNotice := homes.map (fun q => { q := q, group := g, start := w.start, present := w.joined, absent := absent })
    let d1 := { d with rx := { d.rx with sync := mapSet none g none d.rx.sync }, fab := { d.fab with groups := d.fab.groups ++ ns } }
    guardDev (!absent.isEmpty) (setR .hub 0 (0x1100 + 4 * g) ((getR d .hub 0 (0x1100 + 4 * g)).toNat + 1)) d1

/-- An accepted Frame Start of a member, with the home of its graph, opens its group's window, joins it, or closes it and opens the
next (R63). The window's width is that of WINDOW now. (DESIGN CHOICE, log 123.) -/
def syncJoin (g stream index fs : Nat) (home : List Nat) (d : Dev) : Dev :=
  let width := getF d .hub 0 (0x1000 + 4 * g) 0 16
  let opened (d : Dev) : Dev :=
    { d with rx := { d.rx with sync := mapSet none g (some { start := fs, joined := [(stream, index)], homes := home }) d.rx.sync } }
  match mapGet none g d.rx.sync with
  | none => opened d
  | some w =>
    if w.start + width ≤ fs ∨ w.joined.any (fun e => e.1 == stream) then opened (syncClose g d)
    else { d with rx := { d.rx with sync := mapSet none g (some { w with joined := w.joined ++ [(stream, index)], homes := w.homes ++ home }) d.rx.sync } }

/-! ### Frames (R61-R67) -/

/-- The notice of an accepted Frame Start, and its sync window (R62, R63, R197): to the home Drover of the stream's graph, or to
Q0.DRV for a stream without one. -/
def sendNotice (stream index fs : Nat) (d : Dev) : Dev :=
  let n : FsNotice := match streamPlane d stream fs with
    | some p =>
      let gid := (routeOf (planeOf d p).sections stream).gid
      { q := (match findGraph (planeOf d p).sections gid with
          | some g => g.home
          | none => 0), stream := stream, index := index, fs := fs, plane := p, gid := gid, hasGraph := true }
    | none => { q := 0, stream := stream, index := index, fs := fs, plane := strayPlane d, gid := 0xFFFF, hasGraph := false }
  let d1 := ctlTo n.q { d with fab := { d.fab with notices := d.fab.notices ++ [n] } }
  match syncGroup d n.plane stream with
  | some g => syncJoin g stream index fs (if n.hasGraph then [n.q] else []) d1
  | none => d1

/-- A line handed to the pipe of a frame (R85); further exposures only where the pipe merges them (R59). -/
def deliverLine (stream : Nat) (f : RxFrame) (e : Nat) (data : List Byte) (repaired : Bool) (d : Dev) : Dev :=
  match ispFrameOf d (16 * f.pipe + stream % 16) stream f.index with
  | some x => if e < mergedExps x then ispArrive f.pipe stream f.index e data repaired d else d
  | none => d

/-- Copies of a line that stand for bad lines (R66): each arrives at the pipe's line buffer as any line does (R86). (DEDUCED, log 26.) -/
def deliverCopies (stream : Nat) (f : RxFrame) (e k : Nat) (data : List Byte) (d : Dev) : Dev :=
  (List.range k).foldl (fun d _ => deliverLine stream f e data true d) d

/-- LINE_POLICY is REPAIR, and the bad lines tolerated per frame (R66, R79). -/
def repairs (d : Dev) (n : Nat) : Bool := getF d .rxp n 0 5 1 == 1
/-- (DEDUCED, log 26.) -/
def maxRepair (d : Dev) (n : Nat) : Nat := getF d .rxp n 0 8 4

/-- k bad lines of a frame repaired by copies of a line, counted and flagged (R66). (DEDUCED, log 26.) -/
def repairLines (stream : Nat) (f : RxFrame) (e k : Nat) (data : List Byte) (d : Dev) : Dev :=
  frameFlag 1 stream f.index (rxCnt (stream / 16) 6 k (deliverCopies stream f e k data d))

/-- The missing lines of one exposure of a closing frame repaired. -/
def repairMissing (stream : Nat) (f : RxFrame) (e : Nat) (d : Dev) : Dev :=
  let k := f.height - f.lines.getD e 0
  match f.good.getD e none with
  | some data => guardDev (k != 0) (repairLines stream f e k data) d
  | none => d

/-- The close of a slot's frame (R59, R65, R66): missing lines are bad, those of every exposure alike. (DEDUCED, log 27; DESIGN CHOICE, log 122.) -/
def closeFrame (stream : Nat) (d : Dev) : Dev :=
  match (getSlot d stream).frame with
  | none => d
  | some f =>
    let es := List.range f.exps
    let d1 := updSlot stream (fun s => { s with frame := none }) d
    let missing := es.foldl (fun a e => a + (f.height - f.lines.getD e 0)) 0
    let unjoined := es.any (fun e => !f.joined.getD e false)
    let noGood := es.any (fun e => (f.good.getD e none).isNone)
    let n := stream / 16
    if unjoined || (missing != 0 && !repairs d n) || (repairs d n && noGood) || decide (maxRepair d n < f.bad + missing ∧ missing ≠ 0) then
      voidFrame 4 true stream f.index d1
    else es.foldl (fun d e => repairMissing stream f e d) d1

/-- SENSOR_FN of a Frame Start: the number, and a step other than one counted (R61). -/
def noteFrameNumber (stream fn : Nat) (d : Dev) : Dev :=
  let n := stream / 16
  let old := getF d .rxp n (slotOff stream 0xC) 0 16
  let skip := fn != 0 && old != 0 && fn != old + 1 && !(old == 0xFFFF && fn == 1)
  setR .rxp n (slotOff stream 0xC) (fn + 65536 * ((getF d .rxp n (slotOff stream 0xC) 16 16 + b2n skip) % 65536)) d

/-- An accepted Frame Start of a pixel slot (R61-R65): the frame before it closes; the new frame takes the count as its index;
the notice goes out; without a graph the stream's packets are discarded (R67). -/
def pixelFrameStart (stream fn : Nat) (d : Dev) : Dev :=
  let n := stream / 16
  let s := getSlot d stream
  let d1 := match s.frame with
    | some _ => closeFrame stream (rxCnt n 7 1 d)
    | none => d
  let index := (getR d1 .rxp n (slotOff stream 8)).toNat
  let fs := d1.dt
  let d2 := setPair .rxp n (slotOff stream 0x10) (slotOff stream 0x14) fs
    (setR .rxp n (slotOff stream 8) (index + 1) (noteFrameNumber stream fn d1))
  let d3 := updSlot stream (fun s => { s with discard := false, emb := [], embSeen := false }) d2
  match streamPlane d3 stream fs with
  | none => sendNotice stream index fs (updSlot stream (fun s => { s with frame := none, discard := true })
      (guardDev (mapGet 0 stream d3.epochs == 0) (fun d => { d with epochs := mapSet 0 stream 1 d.epochs }) d3))
  | some p =>
    let r := routeOf (planeOf d3 p).sections stream
    let exps := 1 + s.exposures
    let f : RxFrame :=
      { fs := fs, index := index, plane := p, gid := r.gid, pipe := r.pipe, sensor := r.sensor, typ := r.typ, width := r.width
        height := r.height, developed := r.developed, embedded := r.embedded, exps := exps }
    let x : IspFrame :=
      { stream := stream, index := index, fs := fs, plane := p, gid := r.gid, width := r.width, height := r.height, typ := r.typ
        developed := r.developed, embedded := r.embedded, exps := exps }
    ispOpen r.pipe x (sendNotice stream index fs (updSlot stream (fun s => { s with frame := some f }) d3))

/-- A Frame Start of an additional exposure joins its owner's open frame, or is discarded with its lines (R59). -/
def exposureFrameStart (stream fn : Nat) (d : Dev) : Dev :=
  match ownerOf d stream with
  | none => d
  | some (o, e) =>
    let d1 := setPair .rxp (stream / 16) (slotOff stream 0x10) (slotOff stream 0x14) d.dt (noteFrameNumber stream fn d)
    match (getSlot d1 o).frame with
    | some f => updSlot o (fun s => { s with frame := some { f with joined := setAt e true f.joined } })
        (updSlot stream (fun s => { s with discard := false }) d1)
    | none => updSlot stream (fun s => { s with discard := true }) d1

/-- A firmware load ends with a code (R418): FW_STATE failed. -/
def fwFail (code : Nat) (d : Dev) : Dev :=
  match d.sec.fwLoad with
  | none => d
  | some _ => setR .sec 0 0x24 (4 + 256 * code) { d with sec := { d.sec with fwLoad := none } }

/-- Bytes of a firmware load (R418): the bank's old content becomes invalid at the first of them. -/
def fwBytes (bs : List Byte) (d : Dev) : Dev :=
  match d.sec.fwLoad with
  | none => d
  | some w =>
    if !w.open_ || bs.isEmpty then d
    else { d with sec := { d.sec with fwLoad := some { w with bytes := w.bytes ++ bs }, valid := setAt w.bank false d.sec.valid
                                      banks := setAt w.bank (w.bytes ++ bs) d.sec.banks } }

/-- A packet's header (R65): whether the packet is used, with the counts; a load that receives on the port ends at an
uncorrectable one (R41, R418). (DESIGN CHOICE, log 30.) -/
def packetHeader (n : Nat) (h : PacketHealth) (d : Dev) : Bool × Dev :=
  if !portAccepts d n then (false, d)
  else
    match h with
    | .headerUncorrectable =>
      let d1 := rxCnt n 1 1 d
      let l := d1.cfg.load
      let d2 := guardDev (l.state == 1 && l.src == 1 && l.rxp == n) (loadFail { code := 16 }) d1
      let d3 := match d2.sec.fwLoad with
        | some w => guardDev (w.rxp == n && w.open_)
            (fwFail 16) d2
        | none => d2
      (false, d3)
    | .headerCorrected => (true, rxCnt n 0 1 d)
    | _ => (true, d)

/-- A packet whose header is usable, at the slot it belongs to, or counted as a packet without one (R56, R65). -/
def withAnySlot (n vc : Nat) (h : PacketHealth) (f : Nat → Dev → Dev) (d : Dev) : Dev :=
  match packetHeader n h d with
  | (false, d1) => d1
  | (true, d1) => match slotOfVc d1 n vc with
    | none => rxCnt n 5 1 d1
    | some s => f s d1

/-- A slot of KIND 2 that no enabled pixel slot owns (R59). -/
def unowned (d : Dev) (s : Nat) : Bool := (getSlot d s).kind == 2 && (ownerOf d s).isNone

/-- The same, but that a slot of KIND 2 without an owner discards its packets and counts them in CNT5 (R59). -/
def withSlot (n vc : Nat) (h : PacketHealth) (f : Nat → Dev → Dev) (d : Dev) : Dev :=
  withAnySlot n vc h (fun s d => if unowned d s then rxCnt n 5 1 d else f s d) d

/-- A generic short packet on an enabled slot is counted and discarded (R55, R59, R79). -/
def genericShort (n vc : Nat) (h : PacketHealth) (d : Dev) : Dev :=
  withAnySlot n vc h (fun s d => guardDev (unowned d s) (rxCnt n 5 1) (addCnt .rxp n 0x40 1 d)) d

/-- The load that receives on a slot (R40, R69), and the firmware load (R418). -/
def loadOn (d : Dev) (s : Nat) : Bool :=
  let l := d.cfg.load
  l.state == 1 && l.src == 1 && 16 * l.rxp + l.vc == s
def fwLoadOn (d : Dev) (s : Nat) : Bool :=
  match d.sec.fwLoad with
  | some w => 16 * w.rxp + w.slot == s && getF d .sec 0 0x24 0 3 == 1
  | none => false

/-- A payload CRC error on the slot of a load that receives ends the load (R41). -/
def loadCrc (s : Nat) (h : PacketHealth) (d : Dev) : Dev := guardDev (h == .crcBad && loadOn d s) (loadFail { code := 16 }) d

/-- FRAME_START (R62). -/
def frameStart (n vc fn : Nat) (h : PacketHealth) (d : Dev) : Dev :=
  withSlot n vc h (fun s d =>
    match (getSlot d s).kind with
    | 0 => pixelFrameStart s fn (hubUc (4 * n + 2) 1 d)
    | 2 => exposureFrameStart s fn (hubUc (4 * n + 2) 1 d)
    | 1 => d
    | _ => rxCnt n 5 1 d) d

/-- FRAME_END (R65): stamped, and the frame closes once every exposure that joined has ended. -/
def frameEnd (n vc : Nat) (h : PacketHealth) (d : Dev) : Dev :=
  withSlot n vc h (fun s d =>
    if (getSlot d s).kind = 1 then d
    else
      let owner := if (getSlot d s).kind = 0 then some (s, 0) else ownerOf d s
      match owner with
      | none => rxCnt n 5 1 d
      | some (o, e) =>
        if (getSlot d s).discard || (getSlot d o).discard then d
        else
        match (getSlot d o).frame.filter (fun f => f.joined.getD e false) with
        | none => rxCnt n 7 1 d
        | some f =>
          let f1 := { f with ended := setAt e true f.ended }
          let d1 := setPair .rxp n (slotOff s 0x18) (slotOff s 0x1C) d.dt (updSlot o (fun x => { x with frame := some f1 }) d)
          guardDev ((List.range f.exps).all (fun i => f1.ended.getD i false || !f1.joined.getD i false)) (closeFrame o) d1) d

/-- The packet's bytes put into the port's receive buffer when they fit (R58). -/
def bufferFits (d : Dev) (n len : Nat) : Bool := (getPort d n).buf.foldl (fun a b => a + b.len) 0 + len ≤ 65536

def bufferPut (n q len dl : Nat) (d : Dev) : Dev := updPort n (fun p => { p with buf := p.buf ++ [{ q := q, len := len, dl := dl }] }) d

/-- The data types that a pixel slot takes as lines where its ROUTE entry names them (R55). -/
def pixelType (t : Nat) : Bool := t == 0x1E || t == 0x1F || t == 0x22 || t == 0x24 || (0x2A ≤ t && t ≤ 0x2E)

/-- The next line of exposure e of a slot's frame, good or bad (R59, R65, R66); how far it lies from the same line of another exposure
is counted from the lines that exposure has taken. (DESIGN CHOICE, log 121.) -/
def takeLine (o e : Nat) (f : RxFrame) (data : List Byte) (good : Bool) (d : Dev) : Dev :=
  let n := o / 16
  let k := f.lines.getD e 0
  let first := e == 0 && k == 0
  let f1 := { f with lines := setAt e (k + 1) f.lines }
  let d1 := guardDev first (fixEpoch f.pipe o f.index) (updSlot o (fun s => { s with frame := some f1 }) d)
  if (List.range f.exps).any (fun i => 128 < absDiff k (f.lines.getD i 0) && i != e) then voidFrame 4 true o f.index d1
  else if good then
    let lead := f.lead.getD e 0
    let keep := data.take (lineBytes f.typ f.width)
    let f2 := { f1 with good := setAt e (some keep) f1.good, lead := setAt e 0 f1.lead }
    let d2 := guardDev (lead != 0) (repairLines o f e lead keep) (updSlot o (fun s => { s with frame := some f2 }) d1)
    deliverLine o f e keep false d2
  else
    let f2 := { f1 with bad := f.bad + 1 }
    if !repairs d n || maxRepair d n < f.bad + 1 then voidFrame 4 true o f.index (updSlot o (fun s => { s with frame := some f2 }) d1)
    else
      match f.good.getD e none with
      | some g => repairLines o f e 1 g (updSlot o (fun s => { s with frame := some f2 }) d1)
      | none => updSlot o (fun s => { s with frame := some { f2 with lead := setAt e (f.lead.getD e 0 + 1) f2.lead } }) d1

/-- LONG_PACKET (R55, R58, R65): a packet of the ROUTE data type is the frame's next line. -/
def longPacket (n vc typ : Nat) (data : List Byte) (h : PacketHealth) (d : Dev) : Dev :=
  withSlot n vc h (fun s d =>
    let x := getSlot d s
    let owner := if x.kind = 0 then some (s, 0) else if x.kind = 2 then ownerOf d s else none
    match owner with
    | none => rxCnt n 5 1 (loadCrc s h d)
    | some (o, e) =>
      if x.discard || (getSlot d o).discard then d
      else
        match (getSlot d o).frame.filter (fun f => f.joined.getD e false) with
        | none => rxCnt n 7 1 d
        | some f =>
          if typ ≠ f.typ ∨ !pixelType typ ∨ f.height ≤ f.lines.getD e 0 then rxCnt n 5 1 d
          else if !bufferFits d n data.length then voidFrame 4 true o f.index (rxCnt n 4 1 d)
          else
            let crc := h == .crcBad
            let wc := h == .wordCountBad || data.length != lineBytes f.typ f.width
            let d1 := bufferPut n (f.pipe / 4) data.length (frameDl d o f.index)
              (rxAccepted n data.length <| guardDev wc (rxCnt n 3 1) (guardDev crc (rxCnt n 2 1) d))
            takeLine o e f data (!crc && !wc) d1) d

/-- A field of the captured embedded data, when it has been captured whole (R60, R72). -/
def embField (bs : List Byte) (off width : Nat) (msb : Bool) : Option Nat :=
  if width = 0 ∨ bs.length < off + width then none
  else
    let b := (bs.drop off).take width
    some (leNat (if msb then b.reverse else b))

/-- EMBEDDED_DATA (R60): captured up to 2 KiB; exposure and gain are extracted once both lie in the captured bytes. The packet takes
its room in the receive buffer as a line does (R58). (DEDUCED, log 129.) -/
def embeddedData (n vc : Nat) (data : List Byte) (h : PacketHealth) (d : Dev) : Dev :=
  withSlot n vc h (fun s d =>
    let x := getSlot d s
    if x.kind ≠ 0 then rxCnt n 5 1 (loadCrc s h d)
    else if x.discard then d
    else
      match x.frame with
      | none => rxCnt n 7 1 d
      | some f =>
        if !bufferFits d n data.length then voidFrame 4 true s f.index (rxCnt n 4 1 d)
        else
        let bs := (x.emb ++ data).take 2048
        let d1 := updSlot s (fun x => { x with emb := bs }) (bufferPut n (f.pipe / 4) data.length (frameDl d s f.index)
          (rxAccepted n data.length (guardDev (h == .crcBad) (rxCnt n 2 1) d)))
        let prof := sensorEntry (planeOf d f.plane).sections f.sensor
        let msb := bit (byteAt prof 4) 2
        if !f.embedded || f.sensor == 0xFF || x.embSeen then d1
        else
          match embField bs (field prof 0x18 2) (byteAt prof 0x1A) msb, embField bs (field prof 0x1C 2) (byteAt prof 0x1E) msb with
          | some ex, some ga =>
            let d2 := setR .rxp n (slotOff s 0x20) ex (setR .rxp n (slotOff s 0x24) ga d1)
            ispReport f.pipe s f.index ex ga (updSlot s (fun x => { x with embSeen := true }) d2)
          | _, _ => d1) d

/-! ### Bulk transfers (R69, R70, R235) -/

/-- The DMA channel of a bulk slot, when its ACTIVE set takes bulk data (R69, R235). -/
def bulkChannel (d : Dev) (s : Nat) : Option Nat :=
  let ch := getF d .rxp (s / 16) (slotOff s 0) 8 8
  match (getCh d ch).active with
  | some x => if setSrcKind x = 3 then some ch else none
  | none => none

/-- The ACTIVE set of a channel changed. -/
def updActive (ch : Nat) (f : DmaSet → DmaSet) (d : Dev) : Dev := updCh ch (fun c => { c with active := c.active.map f }) d

/-- BULK_FRAME_START (R61, R62, R69): the Frame Start is stamped, its number noted, and the channel posts BULK_START. A transfer still
open begins again. (DESIGN CHOICE, log 124.) -/
def bulkFrameStart (n vc fn : Nat) (h : PacketHealth) (d : Dev) : Dev :=
  withSlot n vc h (fun s d =>
    if (getSlot d s).kind ≠ 1 then d
    else
      let d0 := setPair .rxp n (slotOff s 0x10) (slotOff s 0x14) d.dt (noteFrameNumber s fn d)
      let d1 := setR .rxp n (slotOff s 0x28) 0 (updSlot s (fun x => { x with bulk := some {} }) (hubUc (4 * n + 2) 1 d0))
      if loadOn d s then updLoad (fun l => if l.open_ || l.ended then l else { l with open_ := true }) d1
      else if fwLoadOn d s then { d1 with sec := { d1.sec with fwLoad := d1.sec.fwLoad.map (fun w => { w with open_ := true }) } }
      else
        match bulkChannel d s with
        | none => d1
        | some ch =>
          let d2 := updActive ch (fun x => { x with bulkOpen := true }) d1
          match (getCh d2 ch).active with
          | some x => post { q := ch / 64, src := 64 + ch % 64, ev := dmaEvent x 4 0, dl := x.dl, attach := x.starter.inst } d2
          | none => d2) d

/-- BULK_PACKET (R41, R70): the payload goes to the loader, where an error ends the load, or to the channel as received; each takes its
room in the receive buffer (R58). (DESIGN CHOICE, log 124; DEDUCED, log 129.) -/
def bulkPacket (n vc : Nat) (data : List Byte) (h : PacketHealth) (d : Dev) : Dev :=
  withSlot n vc h (fun s d =>
    let crc := h == .crcBad
    let d0 := guardDev crc (rxCnt n 2 1) d
    match (getSlot d s).bulk, (getSlot d s).kind == 1 with
    | _, false => rxCnt n 5 1 d
    | none, true => rxCnt n 7 1 (loadCrc s h d)
    | some b, true =>
      if b.past then d0
      else if loadOn d s then
        if crc then loadFail { code := 16 } d0
        else if !d.cfg.load.open_ then d0
        else if !bufferFits d n data.length then rxCnt n 4 1 d0
        else loadBytes data (bufferPut n 0 data.length noDeadline (rxAccepted n data.length d0))
      else if fwLoadOn d s then
        if crc then fwFail 16 d0
        else if !bufferFits d n data.length then rxCnt n 4 1 d0
        else fwBytes data (rxAccepted n data.length d0)
      else if !bufferFits d n data.length then
        updSlot s (fun x => { x with bulk := some { b with bad := true } }) (rxCnt n 4 1 d0)
      else
        let count := b.count + data.length
        let past := 2 ^ 32 ≤ count
        let b1 := { b with count := count, bad := b.bad || crc || past, past := past }
        let d1 := setR .rxp n (slotOff s 0x28) count (updSlot s (fun x => { x with bulk := some b1 }) (rxAccepted n data.length d0))
        match bulkChannel d s with
        | none => d1
        | some ch => updActive ch (fun x => { x with bulk := x.bulk ++ data, bulkBad := x.bulkBad || b1.bad })
            (bufferPut n (ch / 64) data.length noDeadline d1)) d

/-- BULK_FRAME_END (R235): the loader has its bytes; the channel ends the transfer once it has written what it received. -/
def bulkFrameEnd (n vc : Nat) (h : PacketHealth) (d : Dev) : Dev :=
  withSlot n vc h (fun s d =>
    match (getSlot d s).bulk, (getSlot d s).kind == 1 with
    | _, false => d
    | none, true => rxCnt n 7 1 d
    | some b, true =>
      let d1 := setPair .rxp n (slotOff s 0x18) (slotOff s 0x1C) d.dt (updSlot s (fun x => { x with bulk := none }) d)
      if loadOn d s then updLoad (fun l => if l.open_ then { l with open_ := false, ended := true } else l) d1
      else if fwLoadOn d s then
        match d1.sec.fwLoad with
        | some w => guardDev w.open_ (fun d => setF .sec 0 0x24 0 3 2 { d with sec := { d.sec with fwLoad := some { w with open_ := false } } }) d1
        | none => d1
      else
        match bulkChannel d s with
        | none => d1
        | some ch =>
          let code := if b.bad then 9 else 0
          match (getCh d1 ch).active with
          | some x =>
            let before := (x.bulkEnds.map (·.1)).foldl (· + ·) 0
            let d2 := updActive ch (fun x => { x with bulkEnds := x.bulkEnds ++ [(x.bulk.length - before, code)] }) d1
            guardDev (x.bulk.isEmpty && x.bursts.isEmpty && x.bulkEnds.isEmpty) (bulkFinish ch code) d2
          | none => d1) d

/-! ### The commands -/

/-- PORT_ENABLE (R54). -/
def execPortEnable (by_ : WriteBy) (port : Fin 16) (v : W32) (s : State) : Out State :=
  onDev (guardDev (fld v 0 1 == 1) (fun d => committedWrite (originOf d by_) (portCtlAddr port.val) v (portCtlEffect port.val v) d)) s

/-- PORT_DISABLE (R54). -/
def execPortDisable (by_ : WriteBy) (port : Fin 16) (v : W32) (s : State) : Out State :=
  onDev (guardDev (fld v 0 1 == 0) (fun d => committedWrite (originOf d by_) (portCtlAddr port.val) v (portCtlEffect port.val v) d)) s

/-- SKEW_CALIBRATION (R53). -/
def execSkewCalibration (sequence : SkewSequence) (s : State) : Out State := onDev (skewCalibration sequence.port.val sequence.kind) s

/-- LOSS_OF_LOCK (R65). -/
def execLossOfLock (port : Fin 16) (s : State) : Out State :=
  onDev (fun d => guardDev (getF d .rxp port.val 0xC 0 1 == 1) (fun d => evsum 9 (setF .rxp port.val 0xC 0 1 0 d)) d) s

/-- PHY_LOCK (R65). -/
def execPhyLock (port : Fin 16) (s : State) : Out State :=
  onDev (fun d => guardDev (getPort d port.val).en (setF .rxp port.val 0xC 0 1 1) d) s

/-- SLOT_ENABLE (R56). -/
def execSlotEnable (by_ : WriteBy) (stream : Fin 256) (v : W32) (s : State) : Out State :=
  onDev (guardDev (fld v 0 1 == 1) (fun d =>
    committedWrite (originOf d by_) (slotCtlAddr stream.val) v (slotCtlEffect stream.val v) d)) s

/-- SLOT_DISABLE (R67). -/
def execSlotDisable (by_ : WriteBy) (stream : Fin 256) (v : W32) (s : State) : Out State :=
  onDev (guardDev (fld v 0 1 == 0) (fun d =>
    committedWrite (originOf d by_) (slotCtlAddr stream.val) v (slotCtlEffect stream.val v) d)) s

/-- FRAME_START (R62). -/
def execFrameStart (port : Fin 16) (vc : Fin 32) (number : W16) (health : PacketHealth) (s : State) : Out State :=
  onDev (frameStart port.val vc.val number.toNat health) s

/-- FRAME_END (R65). -/
def execFrameEnd (port : Fin 16) (vc : Fin 32) (health : PacketHealth) (s : State) : Out State :=
  onDev (frameEnd port.val vc.val health) s

/-- LONG_PACKET (R65). -/
def execLongPacket (port : Fin 16) (vc : Fin 32) (typ : Fin 64) (data : List Byte) (health : PacketHealth) (s : State) : Out State :=
  onDev (longPacket port.val vc.val typ.val data health) s

/-- EMBEDDED_DATA (R60). -/
def execEmbeddedData (port : Fin 16) (vc : Fin 32) (data : List Byte) (health : PacketHealth) (s : State) : Out State :=
  onDev (embeddedData port.val vc.val data health) s

/-- GENERIC_SHORT_PACKET (R55). -/
def execGenericShortPacket (port : Fin 16) (vc : Fin 32) (health : PacketHealth) (s : State) : Out State :=
  onDev (genericShort port.val vc.val health) s

/-- LINE_START_END (R55). -/
def execLineStartEnd (port : Fin 16) (vc : Fin 32) (health : PacketHealth) (s : State) : Out State :=
  onDev (withSlot port.val vc.val health (fun _ d => d)) s

/-- NULL_BLANKING_PACKET (R55). -/
def execNullBlankingPacket (port : Fin 16) (vc : Fin 32) (health : PacketHealth) (s : State) : Out State :=
  onDev (withSlot port.val vc.val health (fun _ d => d)) s

/-- BULK_FRAME_START (R69). -/
def execBulkFrameStart (port : Fin 16) (start : BulkStart) (health : PacketHealth) (s : State) : Out State :=
  onDev (bulkFrameStart port.val start.vc.val start.number.toNat health) s

/-- BULK_PACKET (R70). -/
def execBulkPacket (port : Fin 16) (vc : Fin 32) (data : List Byte) (health : PacketHealth) (s : State) : Out State :=
  onDev (bulkPacket port.val vc.val data health) s

/-- BULK_FRAME_END (R235). -/
def execBulkFrameEnd (port : Fin 16) (vc : Fin 32) (health : PacketHealth) (s : State) : Out State :=
  onDev (bulkFrameEnd port.val vc.val health) s

/-- SYNC_WINDOW_CLOSE (R63). -/
def execSyncWindowClose (group : Fin 64) (s : State) : Out State :=
  onDev (fun d =>
    match mapGet none group.val d.rx.sync with
    | some w => guardDev (w.start + getF d .hub 0 (0x1000 + 4 * group.val) 0 16 ≤ d.dt) (syncClose group.val) d
    | none => d) s

end Sys2Proof.Machine
end

