-- ==== Sys2Proof/Machine/Peer.lean ====
section
/-! DEFINITION. Peer links (R344-R352, R354): training, go-back-N, segments that land or are forwarded, credits, records, job aborts and
what a link that goes down ends. -/

namespace Sys2Proof.Machine

def plCtlAddr (n : Nat) : Nat := addrOf .pl n 0

/-- A link's count i (R354). -/
def plCnt (n i k : Nat) (d : Dev) : Dev := addCnt .pl n (0x20 + 4 * i) k d

def plEnabled (d : Dev) (n : Nat) : Bool := getF d .pl n 0 0 1 == 1

def moduleId (d : Dev) : Nat := getF d .peer 0 0 0 8

/-! ### Down, training and HELLO (R345, R346, R352) -/

/-- A window whose route begins on a link (R347). -/
def winOverLink (d : Dev) (n w : Nat) : Bool := winOutbound (winEntry d w) && winLink (winEntry d w) == n

/-- A set with an end in a window whose route begins on a link: its sides, 1 source and 2 destination. -/
def setOverLink (d : Dev) (n : Nat) (s : DmaSet) : Option Nat :=
  if setSrcKind s = 2 ∧ winOverLink d n (fld (setW s 10) 8 6) then some 1
  else if setDstKind s = 2 ∧ winOverLink d n (setDstWin s) then some 2
  else none

/-- A channel's sets over a link end with code 6 (R352). -/
def endOverLink (n ch : Nat) (d : Dev) : Dev :=
  let past (s : Option DmaSet) : Option Nat := s.bind (setOverLink d n)
  let d1 := match past (getCh d ch).next with
    | some side => faultSet ch true { code := 6, side := side } d
    | none => d
  match past (getCh d ch).active with
  | some side => dmaEnd ch 6 side 0 0 d1
  | none => d1

/-- Streams whose STEP_OPEN slots came over a link (R350, R352). (DEDUCED, log 89.) -/
def stepStreams (d : Dev) (n : Nat) : List Nat :=
  (d.peer.table.filter (fun e =>
    bit (byteAt e.2 0) 0 && bit (byteAt e.2 0) 3 && (getWin d e.1).link == some n)).map (fun e => byteAt e.2 0x14)

/-- A link goes down (R345, R352): its retry buffer, queue and segment in progress are gone, and it is to train again; sets over it
end with code 6, and instances that its slots opened are void with reason 12. (DEDUCED, log 89.) -/
def linkDown (n : Nat) (d : Dev) : Dev :=
  let wasUp := (getLink d n).up
  let d1 := updLink n (fun l => { l with up := false, trained := false, txSeq := 0, rxSeq := 0, retry := [], sent := 0, queue := []
                                         lastNak := none, nakDue := false, seg := none }) d
  let d2 := guardDev wasUp (fun d => evsum 8 (orR .pl n 8 1 (plCnt n 7 1 d))) d1
  let d3 := (List.range 256).foldl (fun d ch => endOverLink n ch d) d2
  let ss := stepStreams d3 n
  voidAll 12 (fun d i => ss.contains (getCtx d i.q i.ctx).stream) d3

/-- The flit with which training ends on this side (R346). -/
def helloFlit (f : FuseSt) (d : Dev) : FlitBody := { typ := 8, body := leBytes 8 (fuseInstallId f) ++ leBytes 1 (moduleId d) }

/-- PEER_TRAINING_DONE (R346). -/
def trainingDone (f : FuseSt) (n : Nat) (d : Dev) : Dev :=
  guardDev (plEnabled d n && !(getLink d n).trained)
    (updLink n (fun l => { l with trained := true, foreign := false, txSeq := 0, rxSeq := 0, retry := [], sent := 0, queue := [helloFlit f d] })) d

/-- PEER_LINK_DOWN (R345): flits unacknowledged, and no acknowledgement progress for PEER.DOWN_DT. -/
def linkStuck (n : Nat) (d : Dev) : Dev :=
  let l := getLink d n
  guardDev (!l.retry.isEmpty && decide (l.progress + getF d .peer 0 4 0 24 ≤ d.dt)) (linkDown n) d

/-- A write of PLn.CTL (R354): RETRAIN, and a link disabled, take it down. -/
def plCtlEffect (n : Nat) (v : W32) (d : Dev) : Dev :=
  guardDev (fld v 1 1 == 1 || (plEnabled d n && fld v 0 1 == 0)) (linkDown n) (storeFields (plCtlAddr n) v d)

/-! ### Sending (R344, R345) -/

/-- Types that take a sequence number and are kept for resending: all but IDLE and NAK. -/
def sequenced (typ : Nat) : Bool := typ != 0 && typ != 3

/-- A flit leaves the connector with a sequence number and the acknowledgement of the last flit accepted. (DEDUCED, log 87.) -/
def emitFlit (n seq : Nat) (b : FlitBody) (d : Dev) : Dev :=
  plCnt n 0 1 (updLink n (fun l => { l with wire := (b.typ, seq, (l.rxSeq + 4095) % 4096, b.body) :: l.wire }) d)

/-- PEER_FLIT_SLOT (R344, R345): a NAK that is due and allowed, a flit to send again, the next of the queue while the retry buffer has
room, or IDLE. -/
def flitSlot (n : Nat) (d : Dev) : Dev :=
  let l := getLink d n
  if !plEnabled d n || !l.trained then d
  else
    let nakOk := l.nakDue && (match l.lastNak with
      | some t => decide (t + 64 ≤ d.dt)
      | none => true)
    if nakOk then
      emitFlit n l.txSeq { typ := 3, body := leBytes 2 l.rxSeq } (updLink n (fun l => { l with nakDue := false, lastNak := some d.dt }) d)
    else
      match l.retry[l.sent]? with
      | some (seq, b) => plCnt n 4 1 (emitFlit n seq b (updLink n (fun l => { l with sent := l.sent + 1 }) d))
      | none =>
        match l.queue with
        | b :: rest =>
          if l.retry.length < 2047 then
            emitFlit n l.txSeq b (updLink n (fun l =>
              { l with queue := rest, retry := l.retry ++ [(l.txSeq, b)], sent := l.sent + 1, txSeq := (l.txSeq + 1) % 4096
                       progress := if l.retry.isEmpty then d.dt else l.progress }) d)
          else emitFlit n l.txSeq { typ := 0, body := [] } d
        | [] => emitFlit n l.txSeq { typ := 0, body := [] } d

/-! ### Receiving (R345) -/

/-- An acknowledged sequence number: the flits up to it leave the retry buffer. -/
def takeAck (n ack : Nat) (d : Dev) : Dev :=
  match (getLink d n).retry.findIdx? (fun e => e.1 == ack) with
  | some k => updLink n (fun l => { l with retry := l.retry.drop (k + 1), sent := l.sent - (k + 1), progress := d.dt }) d
  | none => d

/-- A flit discarded with a NAK to follow (R345). -/
def badFlit (n : Nat) (d : Dev) : Dev := plCnt n 2 1 (updLink n (fun l => { l with nakDue := true }) d)

/-- A flit of a type with a good CRC arrives (R345): the expected one is accepted, its acknowledgement taken; any other is discarded.
Before HELLO has brought the link up it carries nothing else. (DEDUCED, log 87.) -/
def receive (n typ seq ack : Nat) (f : Dev → Dev) (d : Dev) : Dev :=
  let l := getLink d n
  if !plEnabled d n || !l.trained then d
  else if seq ≠ l.rxSeq then badFlit n d
  else
    let d1 := takeAck n ack (updLink n (fun l => { l with rxSeq := if sequenced typ then (seq + 1) % 4096 else seq }) d)
    if l.up || typ == 8 || !sequenced typ then f (plCnt n 1 1 d1) else plCnt n 2 1 d1

/-- PEER_NAK (R345): what follows the named sequence number is sent again. -/
def receiveNak (n expected : Nat) (d : Dev) : Dev :=
  let l := getLink d n
  plCnt n 3 1 (match l.retry.findIdx? (fun e => e.1 == expected) with
    | some k => updLink n (fun l => { l with sent := min l.sent k }) d
    | none => d)

/-- PEER_BAD_FLIT (R344, R345): a flit of an unknown type in its turn is passed over. -/
def receiveBad (n : Nat) (b : BadFlit) (d : Dev) : Dev :=
  if !plEnabled d n || !(getLink d n).trained then d
  else
    match b with
    | .flitType seq ack =>
      if seq.toNat = (getLink d n).rxSeq then
        plCnt n 2 1 (takeAck n ack.toNat (updLink n (fun l => { l with rxSeq := (seq.toNat + 1) % 4096 }) d))
      else badFlit n d
    | _ => badFlit n d

/-- PEER_HELLO (R346): the installation ID fused into this module brings the link up. (DEDUCED, log 87.) -/
def receiveHello (f : FuseSt) (n install module : Nat) (d : Dev) : Dev :=
  if install = fuseInstallId f then
    guardDev (!(getLink d n).up) (evsum 8) (updLink n (fun l => { l with up := true, foreign := false, peer := module }) d)
  else updLink n (fun l => { l with foreign := true, peer := module }) (linkDown n d)

/-! ### Segments (R346-R350) -/

def segLen (h : List Byte) : Nat := field h 0xC 2

/-- Where an inbound window's bytes lie: a scratchpad byte of its quadrant, or a DVA (R347). -/
def winStore (e : List Byte) (off : Nat) (bs : List Byte) (d : Dev) : Dev :=
  if bit (byteAt e 0) 5 then spadWrite { req := 152 } (byteAt e 2 % 4) (8 * (field e 8 8 % 2 ^ 23) + off) bs
      (bytesTo (byteAt e 2 % 4) bs.length d)
  else hubWriteDva (field e 8 8 + off) bs d

/-- PEER_MSG posted for a window with notification enabled (R349). -/
def peerMsg (w : Nat) (e : List Byte) (record : Bool) (n : Nat) (d : Dev) : Dev :=
  let a := field e 0x18 4
  let ev : Event := { typ := 0x0C, cls := bits a 24 3, order := bits a 27 2, key := bits a 0 24, dl32 := 0xFFFFFFFF
                      payload := w + 128 * b2n record + 256 * (n % 2 ^ 24) }
  guardDev (bit a 31) (fun d => ctlTo (byteAt e 2 % 4) (post { q := byteAt e 2 % 4, src := 168, ev := ev, dl := noDeadline } d)) d

/-- A slot commit of a STEP_OPEN window acts as an accepted Frame Start whose index is the header's step (R350). (DEDUCED, log 89.) -/
def stepOpen (e : List Byte) (q r : Nat) (d : Dev) : Dev :=
  let g := getRegion d q r
  let step := leNat (spadPeek d q (slotAddr g g.h) 4)
  let d1 := ringCommit q r 152 none d
  let stream := byteAt e 0x14
  guardDev (bit (byteAt e 0) 3 && (routeOf (planeOf d1 (routePlane d1 stream d1.dt)).sections stream).configured)
    (sendNotice stream step d1.dt) d1

/-- A complete segment of an inbound window in its region's slots (R348). -/
def landRing (e : List Byte) (off : Nat) (bs : List Byte) (commit : Bool) (d : Dev) : Dev :=
  let q := byteAt e 2 % 4
  let r := byteAt e 3
  let g := getRegion d q r
  if g.n = 0 ∨ g.slot = 0 then d
  else
    let per := 8 * g.slot
    let first := per - off % per
    let pieces := (off, bs.take first) :: ((chunks per bs.length (bs.drop first)).zipIdx).map (fun x => ((off / per + 1 + x.2) * per, x.1))
    let d1 := pieces.foldl (fun d x => spadWrite { req := 152 } q (slotAddr g (x.1 / per) + x.1 % per) x.2 d) (bytesTo q bs.length d)
    guardDev commit (stepOpen e q r) d1

/-- A segment lands, or is answered with a REJECT (R348, R349, R40). -/
def landSegment (n : Nat) (h bs : List Byte) (d : Dev) : Dev :=
  let w := byteAt h 6
  let e := winEntry d w
  let off := field h 8 4
  if w < 64 ∧ winUsed e ∧ bit (byteAt e 0) 0 ∧ byteAt h 0 = byteAt e 1 ∧ off + segLen h ≤ field e 4 4 then
    let d1 := updWin w (fun x => { x with link := some n }) d
    let l := d1.cfg.load
    let d2 := if bit (byteAt e 0) 2 then guardDev (l.state == 1 && l.src == 2 && l.win == w && !l.ended) (loadBytes bs) d1
      else if winRing e then landRing e off bs (bit (byteAt h 7) 0) d1
      else winStore e off bs d1
    guardDev (bit (byteAt h 7) 1) (peerMsg w e false (off / 256)) d2
  else linkQueue n { typ := 9, body := leBytes 1 w ++ leBytes 4 off } (plCnt n 5 1 d)

/-- A segment for another module goes to the link of its next hop (R346). -/
def forwardSegment (n : Nat) (h bs : List Byte) (d : Dev) : Dev :=
  let hop := byteAt h 2 + 1
  let out := bits (field h 4 2) (3 * hop) 3
  let head := h.take 2 ++ leBytes 1 hop ++ h.drop 3
  let flits : List FlitBody := { typ := 1, body := head ++ bs.take 224 } :: (chunks 248 16 (bs.drop 224)).map (fun b => { typ := 2, body := b })
  plCnt n 6 1 (flits.foldl (fun d b => linkQueue out b d) d)

/-- The segment being received, once it is complete. (DEDUCED, log 88.) -/
def segmentDone (n : Nat) (s : RxSegment) (d : Dev) : Dev :=
  if s.data.length < segLen s.header then updLink n (fun l => { l with seg := some s }) d
  else
    let d1 := updLink n (fun l => { l with seg := none }) d
    let bs := s.data.take (segLen s.header)
    if byteAt s.header 1 = moduleId d then landSegment n s.header bs d1 else forwardSegment n s.header bs d1

/-- PEER_HEAD and PEER_DATA (R346): the body's bytes, 24 of header and 224 of data, or 248 of data. -/
def receiveHead (n : Nat) (body : List Byte) (d : Dev) : Dev :=
  segmentDone n { header := (body ++ List.replicate 24 0#8).take 24, data := ((body ++ List.replicate 248 0#8).take 248).drop 24 } d

def receiveData (n : Nat) (body : List Byte) (d : Dev) : Dev :=
  match (getLink d n).seg with
  | some s => segmentDone n { s with data := s.data ++ (body ++ List.replicate 248 0#8).take 248 } d
  | none => d

/-! ### Other flits (R348, R349, R351, R296) -/

/-- This module's outbound windows to a far window over a link. -/
def farWindows (d : Dev) (n w : Nat) : List Nat :=
  (d.peer.table.filter (fun e => winOutbound e.2 && winLink e.2 == n && byteAt e.2 2 == w)).map (·.1)

/-- PEER_CREDIT (R348). (DEDUCED, log 88.) -/
def receiveCredit (n w k : Nat) (d : Dev) : Dev :=
  match (farWindows d n w).find? (fun i => (getWin d i).used != 0) with
  | some i => updWin i (fun x => { x with used := x.used - k }) d
  | none => d

/-- PEER_REJECT (R348): the window is recorded, and a channel that is sending to it ends with code 5. (DEDUCED, log 88.) -/
def receiveReject (n w off : Nat) (d : Dev) : Dev :=
  let d1 := setF .pl n 8 8 6 w (orR .pl n 8 2 d)
  let ws := farWindows d1 n w
  (List.range 256).foldl (fun d ch =>
    match (getCh d ch).active with
    | some s => guardDev (setDstKind s == 2 && ws.contains (setDstWin s)) (dmaEnd ch 5 2 0 off) d
    | none => d) d1

/-- PEER_RECORD (R349): a record for this module lands in its window's next record slot; one for another module goes on towards it. (DEDUCED, log 88.) -/
def receiveRecord (n w dest : Nat) (rec_ : List Byte) (d : Dev) : Dev :=
  let e := winEntry d w
  if dest ≠ moduleId d then
    match d.peer.table.find? (fun x => winOutbound x.2 && winPeer x.2 == dest) with
    | some x => linkQueue (winLink x.2) { typ := 5, body := leBytes 1 w ++ leBytes 1 dest ++ rec_ } d
    | none => plCnt n 2 1 d
  else if w < 64 ∧ winUsed e ∧ bit (byteAt e 0) 0 then
    let i := (getWin d w).records
    let d1 := updWin w (fun x => { x with records := i + 1, link := some n }) d
    let bs := (rec_ ++ List.replicate 64 0#8).take 64
    peerMsg w e true (i + 1)
      (guardDev (bit (byteAt e 0) 4 && decide (4096 ≤ field e 4 4)) (winStore e (field e 4 4 - 4096 + 64 * (i % 64)) bs) d1)
  else plCnt n 2 1 d

/-- PEER_ABORT (R296, R351): a notice of void reason 6 goes to the home Drover of each live instance of the step (R16); the last 16 pairs
are remembered. -/
def receiveAbort (job step : Nat) (d : Dev) : Dev :=
  let d1 := { d with peer := { d.peer with aborts := (d.peer.aborts ++ [(job, step)]).drop (d.peer.aborts.length - 15) } }
  ((liveInsts d1).filter (fun i =>
    let c := getCtx d1 i.q i.ctx
    c.index == step && carriesJob d1 c.gen c.gid c.stream job)).foldl (fun d i =>
      report { inst := i, tag := 31, code := 0, final := false, setsEv := false, void := some 6, remote := true } (ctlTo i.q d)) d1

/-- PEER_LOAD_DONE (R351): from the module of a load window, a write of CFG.LOAD_CTL.DONE, logged for that module. (DEDUCED, log 90.) -/
def receiveLoadDone (n w : Nat) (d : Dev) : Dev :=
  let e := winEntry d w
  let l := getLink d n
  let v : W32 := regRaw d loadCtlAddr ||| 4#32
  guardDev (decide (w < 64) && winUsed e && bit (byteAt e 0) 0 && bit (byteAt e 0) 2 && byteAt e 1 == l.peer)
    (committedWrite (.peer l.peer) loadCtlAddr v (loadCtlEffect v)) d

/-! ### The commands -/

/-- PEER_FLIT_SLOT (R344). -/
def execPeerFlitSlot (link : Fin 6) (s : State) : Out State := onDev (flitSlot link.val) s

/-- PEER_IDLE (R344). -/
def execPeerIdle (link : Fin 6) (seq ack : BitVec 12) (s : State) : Out State := onDev (receive link.val 0 seq.toNat ack.toNat id) s

/-- PEER_HEAD (R346). -/
def execPeerHead (link : Fin 6) (seq ack : BitVec 12) (body : List Byte) (s : State) : Out State :=
  onDev (receive link.val 1 seq.toNat ack.toNat (receiveHead link.val body)) s

/-- PEER_DATA (R346). -/
def execPeerData (link : Fin 6) (seq ack : BitVec 12) (body : List Byte) (s : State) : Out State :=
  onDev (receive link.val 2 seq.toNat ack.toNat (receiveData link.val body)) s

/-- PEER_NAK (R345). -/
def execPeerNak (link : Fin 6) (seq ack expected : BitVec 12) (s : State) : Out State :=
  onDev (receive link.val 3 seq.toNat ack.toNat (receiveNak link.val expected.toNat)) s

/-- PEER_CREDIT (R348). -/
def execPeerCredit (link : Fin 6) (seq ack : BitVec 12) (window slots : Byte) (s : State) : Out State :=
  onDev (receive link.val 4 seq.toNat ack.toNat (receiveCredit link.val window.toNat slots.toNat)) s

/-- PEER_RECORD (R349). -/
def execPeerRecord (link : Fin 6) (seq ack : BitVec 12) (window dest : Byte) (rec_ : List Byte) (s : State) : Out State :=
  onDev (receive link.val 5 seq.toNat ack.toNat (receiveRecord link.val window.toNat dest.toNat rec_)) s

/-- PEER_ABORT (R296). -/
def execPeerAbort (link : Fin 6) (seq ack : BitVec 12) (job : W16) (step : W32) (_module : Byte) (s : State) : Out State :=
  onDev (receive link.val 6 seq.toNat ack.toNat (receiveAbort job.toNat step.toNat)) s

/-- PEER_LOAD_DONE (R351). -/
def execPeerLoadDone (link : Fin 6) (seq ack : BitVec 12) (window : Byte) (s : State) : Out State :=
  onDev (receive link.val 7 seq.toNat ack.toNat (receiveLoadDone link.val window.toNat)) s

/-- PEER_HELLO (R346). -/
def execPeerHello (link : Fin 6) (seq ack : BitVec 12) (install : W64) (module : Byte) (s : State) : Out State :=
  onDev (receive link.val 8 seq.toNat ack.toNat (receiveHello s.fuse link.val install.toNat module.toNat)) s

/-- PEER_REJECT (R348). -/
def execPeerReject (link : Fin 6) (seq ack : BitVec 12) (window : Byte) (offset : W32) (s : State) : Out State :=
  onDev (receive link.val 9 seq.toNat ack.toNat (receiveReject link.val window.toNat offset.toNat)) s

/-- PEER_BAD_FLIT (R345). -/
def execPeerBadFlit (link : Fin 6) (flit : BadFlit) (s : State) : Out State := onDev (receiveBad link.val flit) s

/-- PEER_LINK_DOWN (R352). -/
def execPeerLinkDown (link : Fin 6) (s : State) : Out State := onDev (linkStuck link.val) s

/-- PEER_RETRAIN (R354). -/
def execPeerRetrain (by_ : WriteBy) (link : Fin 6) (v : W32) (s : State) : Out State :=
  onDev (guardDev (fld v 1 1 == 1) (fun d =>
    committedWrite (originOf d by_) (plCtlAddr link.val) v (plCtlEffect link.val v) d)) s

/-- PEER_TRAINING_DONE (R346). -/
def execPeerTrainingDone (link : Fin 6) (s : State) : Out State := onDev (trainingDone s.fuse link.val) s

end Sys2Proof.Machine
end

