-- ==== Sys2Proof/Machine/Log.lean ====
section
/-! DEFINITION. The journal and the NAND log ring (R371-R374): flushing, reading, the mirror, and the seal of a run (R372). -/

namespace Sys2Proof.Machine

def logCnt (i n : Nat) (d : Dev) : Dev := addCnt .log 0 (0x120 + 4 * i) n d
def updLog (f : LogSt → LogSt) (d : Dev) : Dev := { d with log := f d.log }

/-- NAND slots of the log ring (R371). -/
def logSlots : Nat := 4194304

/-- Records put into their slots of the NAND ring. -/
def nandStore (rs : List LogRecord) (m : List (Nat × LogRecord)) : List (Nat × LogRecord) :=
  rs.foldl (fun m r => mapIns (r.seq % logSlots) r (mapDel (r.seq % logSlots) m)) m

/-- Requests that wait for a journal slot take those that are free, in order (R371). -/
def takeSlots : Nat → Dev → Dev
  | 0, d => d
  | n + 1, d =>
    match takeFirst (fun r : ChangeReq => !r.slot) d.log.reqs with
    | none => d
    | some (r, rest) =>
      if slotFree d then takeSlots n (updLog (fun l => { l with reqs := insertReq { r with at_ := d.dt, slot := true } rest }) d) else d

/-- LOG_PAGE_FLUSH (R371): a write of the NAND page of the first unflushed record begins. -/
def pageFlush (d : Dev) : Dev :=
  match d.log.journal, d.log.page with
  | r :: _, none =>
    let n := (d.log.journal.filter (fun x => x.seq / 64 == r.seq / 64)).length
    updLog (fun l => { l with page := some (r.seq, n) }) d
  | _, _ => d

/-- LOG_PAGE_PROGRAMMED (R371): its records are in NAND and their slots free; a failed program is tried again on the next block. (DEDUCED, log 17.) -/
def pageProgrammed (ok : Bool) (d : Dev) : Dev :=
  match d.log.page with
  | none => d
  | some (s, n) =>
    if !ok then evsum 6 (orR .log 0 0 2 (logCnt 2 1 d))
    else
      let inPage (r : LogRecord) : Bool := s ≤ r.seq && r.seq < s + n
      let d1 := logCnt 1 1 (updLog (fun l =>
        { l with journal := l.journal.filter (fun r => !inPage r), page := none, nand := nandStore (l.journal.filter inPage) l.nand }) d)
      takeSlots d1.log.reqs.length d1

/-- Every unflushed record in NAND. -/
def flushAll (d : Dev) : Dev :=
  updLog (fun l => { l with journal := [], page := none, nand := nandStore l.journal l.nand }) d

/-- The record of a sequence in NAND, and in the journal (R373). -/
def nandRecord (d : Dev) (s : Nat) : Option LogRecord := (d.log.nand.map (·.2)).find? (fun r => r.seq == s)
def journalRecord (d : Dev) (s : Nat) : Option LogRecord := d.log.journal.find? (fun r => r.seq == s)

/-- A write of RD_CTL (R373): GO begins to read the record of RD_SEQ. -/
def rdCtlAddr : Nat := addrOf .log 0 0x48
/-- (DEDUCED, log 18.) -/
def rdCtlEffect (v : W32) (d : Dev) : Dev :=
  guardDev (fld v 0 1 == 1 && d.log.read.isNone) (fun d =>
    setR .log 0 0x4C 1 (updLog (fun l => { l with read := some (getPair d .log 0 0x40 0x44, d.dt) }) d)) d

/-- LOG_READ_DONE (R373): the record is in RD_DATA; RESULT 1 for one not held or not committed, 2 for a NAND read that cannot be corrected. A
record of the journal is ready in 2 DT. (DEDUCED, log 18.) -/
def readDone (ok : Bool) (d : Dev) : Dev :=
  match d.log.read with
  | none => d
  | some (s, t) =>
    if d.dt < t + 2 then d
    else
      let d1 := updLog (fun l => { l with read := none }) d
      let give (r : LogRecord) (d : Dev) : Dev :=
        (List.range 16).foldl (fun d i => setR .log 0 (0x80 + 4 * i) (field (recordBytes r) (4 * i) 4) d) (setR .log 0 0x4C 0 d)
      match journalRecord d s, nandRecord d s with
      | some r, _ => give r d1
      | none, some r => hubUc 198 1 (if ok then give r d1 else setR .log 0 0x4C 4 d1)
      | none, none => setR .log 0 0x4C 2 d1

/-- A write of bytes to DRAM for a mirror (R374, R403): whether every page takes it, and the DRAM with the bytes. (DEDUCED, log 16.) -/
def mirrorWrite (dva : Nat) (bs : List Byte) (d : Dev) : Bool × Dev :=
  match dvaFault d dva bs.length .write with
  | some _ => (false, d)
  | none => (true, hubWriteDva dva bs d)

/-- LOG_MIRROR_WRITE (R374): the next committed record goes to its mirror slot; a fault or an uncorrectable error stops the mirror. (DEDUCED, log 16.) -/
def logMirror (ecc : EccResult) (d : Dev) : Dev :=
  let s := d.log.mirror
  let n := getF d .log 0 0x108 0 22
  if getF d .log 0 0x10C 0 1 = 0 ∨ n = 0 ∨ d.log.next ≤ s then d
  else
    match (match journalRecord d s with
      | some r => some r
      | none => nandRecord d s) with
    | none => updLog (fun l => { l with mirror := s + 1 }) d
    | some r =>
      let w := mirrorWrite (getPair d .log 0 0x100 0x104 + 64 * (s % n)) (recordBytes r) d
      if w.1 && !ecc.isUe then
        setPair .log 0 0x110 0x114 (s + 1) (logCnt 4 1 (updLog (fun l => { l with mirror := s + 1 }) w.2))
      else evsum 6 (orR .log 0 0 8 (setF .log 0 0x10C 0 1 0 d))

/-- The seal requested at a power fail (R372): requests of its CT cycle, which are those of its DT, and those without a slot are refused, and so
is every later one. (DESIGN CHOICE, log 13.) -/
def requestSeal (t0 : Nat) (d : Dev) : Dev :=
  let r : ChangeReq :=
    { at_ := t0, cls := 6, oid := 0, target := addrOf .pwr 0 0, kind := 0x000A, extra := BitVec.ofNat 64 t0 }
  updLog (fun l => { l with sealing := true
                            reqs := l.reqs.filter (fun x => x.slot && decide (x.at_ < t0)) ++ [r] }) d

/-! ### The commands -/

/-- LOG_PAGE_FLUSH (R371). -/
def execLogPageFlush (s : State) : Out State := onDev pageFlush s

/-- LOG_PAGE_PROGRAMMED (R371). -/
def execLogPageProgrammed (ok : Bool) (s : State) : Out State := onDev (pageProgrammed ok) s

/-- LOG_READ (R373). -/
def execLogRead (by_ : WriteBy) (v : W32) (s : State) : Out State :=
  onDev (guardDev (fld v 0 1 == 1) (fun d => committedWrite (originOf d by_) rdCtlAddr v (rdCtlEffect v) d)) s

/-- LOG_MIRROR_WRITE (R374). -/
def execLogMirrorWrite (ecc : EccResult) (s : State) : Out State := onDev (logMirror ecc) s

end Sys2Proof.Machine
end

