-- ==== Sys2Proof/Machine/Sec.lean ====
section
/-! DEFINITION. The security block (R410-R428): fuse programming, firmware verification and loads, anti-rollback, revocation, the debug
port, attestation, and the end of I3C sessions that a revocation causes. -/

namespace Sys2Proof.Machine

def secAddr (o : Nat) : Nat := addrOf .sec 0 o
def updSec (f : SecSt → SecSt) (d : Dev) : Dev := { d with sec := f d.sec }

/-- OP_STATUS (R428). -/
def opStatus (n : Nat) (d : Dev) : Dev := setR .sec 0 0x48 n d

/-- EVSUM.SECURITY (R427). -/
def evSecurity (d : Dev) : Dev := evsum 11 d

/-- A request that the security block raises itself (R370, class 6). -/
def secRequest (kind target old new : Nat) (extra : W64) (op : SecOp) (d : Dev) : Dev :=
  requestChange { at_ := d.dt, cls := 6, oid := 0, target := target, kind := kind, old := BitVec.ofNat 32 old, new := BitVec.ofNat 32 new
                  extra := extra, act := .security op } d

/-! ### Fuses (R411-R413) -/

/-- A byte of a fuse field marked secret (R411). -/
def fuseSecret (i : Nat) : Bool :=
  (0x20 ≤ i && i < 0x40) || (0x200 ≤ i && i < 0x500 && 16 ≤ (i - 0x200) % 48)

/-- A fuse byte as FUSEi reads it: secret ones as 0. -/
def fuseShown (f : FuseSt) (i : Nat) : Byte := if fuseSecret i then 0 else fuseByte f i

/-- The debug port's state (R423). (DEDUCED, log 108.) -/
def debugState (f : FuseSt) (unlocked : Bool) : Nat :=
  if fuseSealed f then 3 else if fuseLocked f then (if unlocked then 2 else 1) else 0

/-- The supply and clock allow programming (R412). -/
def fuseSupply (d : Dev) : Bool := d.pow.v48 && getF d .clk 0 4 0 2 == 0

/-- A fuse bit is set. -/
def fuseBit (f : FuseSt) (i : Nat) : Bool := bit (fuseByte f (i / 8)).toNat (i % 8)

/-- A bit of those that R412 has programmed last: a warrant's PROGRAMMED bit, and a key slot's last hash byte. -/
def lateBit (i : Nat) : Bool :=
  (List.range 16).any (fun w => i == 8 * (warrantBase w + 7)) || [0, 1, 2, 3].any (fun s => i / 8 == 0x40 + 96 * s + 95)

/-- The queue of programming behind the bit in progress: the bits that go last after every other (R412). -/
def lateLast : List (Nat × Bool) → List (Nat × Bool)
  | [] => []
  | e :: l => e :: (l.filter (fun x => !lateBit x.1) ++ l.filter (fun x => lateBit x.1))

/-- Fuse bits put into the queue of programming, those set already left out; the last may end a revocation or an advance. -/
def programBits (f : FuseSt) (is : List Nat) (event : Bool) (d : Dev) : Dev :=
  let l := is.filter (fun i => !fuseBit f i)
  let n := l.length
  updSec (fun s => { s with queue := lateLast (s.queue ++ l.zipIdx.map (fun e => (e.1, event && e.2 + 1 == n)))
                            fuseDue := if s.queue.isEmpty then d.dt + 1250 else s.fuseDue }) (guardDev (n == 0) (opStatus 0) d)

/-- The bits of four data bytes at a fuse offset, ascending. -/
def dataBits (off data : Nat) : List Nat :=
  ((List.range 32).filter (fun i => bit data i)).map (· + 8 * off) |>.filter (· < 16384)

/-- A fuse field after four data bytes, secret bytes as 0 (R413). -/
def progValue (f : FuseSt) (off data : Nat) : Nat :=
  leNat ((List.range 4).map (fun i =>
    if fuseSecret (off + i) then 0#8 else fuseByte f (off + i) ||| BitVec.ofNat 8 (bits data (8 * i) 8)))

/-- A write of PROG (R413). (DEDUCED, log 107.) -/
def progEffect (f : FuseSt) (o : Origin) (v : W32) (d : Dev) : Dev :=
  let off := fld v 0 11
  let data := d.sec.prog
  if fld v 31 1 = 0 then d
  else if fuseProvisioned f || o != .debug || decide (off < 0x40) then opStatus 5 d
  else if !fuseSupply d then opStatus 4 d
  else
    let d1 := secRequest 0x0017 off 0 (progValue f off data) 0 (.program off data) (opStatus 0 d)
    guardDev ((dataBits off data).contains (8 * 0x1C2))
      (secRequest 0x0018 (Config.recordField 0x18 1 0) (Config.recordField 0x18 2 0) (Config.recordField 0x18 3 0)
        (BitVec.ofNat 64 (Config.recordField 0x18 4 0)) .provision) d1

/-! ### Firmware (R415, R416, R418, R421) -/

def fwLen (fw : List Byte) : Nat := field fw 0x10 8
def fwGen (fw : List Byte) : Nat := field fw 8 4
def fwEpoch (fw : List Byte) : Nat := byteAt fw 0xC

/-- The reserved bytes of a firmware's header (R415). -/
def fwReserved (fw : List Byte) : List Byte :=
  (fw.drop 0xD).take 3 ++ (fw.drop 0x820).take 2016 ++ [0, 1, 2, 3].flatMap (fun s => (keyEntry fw s).drop 420)

/-- The check of R416: its code, 0 for a firmware that verifies, and the key slot. (DEDUCED, log 107.) -/
def fwVerify (f : FuseSt) (fw : List Byte) : Nat × Nat :=
  let n := fwLen fw
  if n < 12336 ∨ 8388608 < n ∨ fw.length < n then (1, 0xFF)
  else if field fw 0 4 ≠ 0x464D4E44 ∨ field fw 4 2 ≠ 0x0100 ∨ field fw 6 2 ≠ 0x1000 then (2, 0xFF)
  else
    match (checkSignatures f fw fw n).2.2 with
    | none => (5, 0xFF)
    | some s =>
      if field fw 0x18 4 ≠ 0x3200 then (3, s)
      else if 63 < fwEpoch fw ∨ fwEpoch fw < fuseRollback f then (7, s)
      else if (fwReserved fw).any (· != 0#8) then (10, s)
      else (0, s)

/-- A bank's firmware. -/
def bankFw (d : Dev) (b : Nat) : List Byte := d.sec.banks.getD b []
def bankValid (d : Dev) (b : Nat) : Bool := d.sec.valid.getD b false

/-- The bank that a load or an activation takes: the one that does not run, in recovery the one that FW_BOOT does not name (R418). -/
def otherBank (d : Dev) : Nat := 1 - d.sec.running.getD d.sec.boot

/-- FW_VERIFY_DONE (R416): success requests the record of the firmware, at whose commit its bank becomes valid. -/
def fwVerifyDone (f : FuseSt) (d : Dev) : Dev :=
  match d.sec.fwLoad with
  | none => d
  | some w =>
    if w.open_ ∨ getF d .sec 0 0x24 0 3 ≠ 2 then d
    else
      let v := fwVerify f (bankFw d w.bank)
      if v.1 ≠ 0 then
        guardDev (v.1 == 5) evSecurity (setR .sec 0 0x24 (4 + 256 * v.1) (updSec (fun s => { s with fwLoad := none }) d))
      else
        let fw := bankFw d w.bank
        secRequest 0x0015 (Config.recordField 0x15 1 w.bank) (Config.recordField 0x15 2 w.bank) (fwGen fw)
          (BitVec.ofNat 64 (leNat ((measurement fw (fwLen fw)).take 8))) (.fwValid w.bank)
          (updSec (fun s => { s with fwLoad := none, slots := setAt w.bank v.2 s.slots }) d)

/-- A firmware load is under way: FW_STATE 1 or 2. -/
def fwBusy (d : Dev) : Bool := getF d .sec 0 0x24 0 3 == 1 || getF d .sec 0 0x24 0 3 == 2

/-- A write of FW_CTL (R418, R419): START, ABORT and ACTIVATE, in the order of their bits. -/
def fwCtlEffect (v : W32) (d : Dev) : Dev :=
  let d1 := storeFields (secAddr 0x20) v d
  let d2 := guardDev (fld v 0 1 == 1 && !fwBusy d1) (fun d =>
    setR .sec 0 0x24 1 (updSec (fun s =>
      { s with fwLoad := some { bank := otherBank d, rxp := fld v 8 4, slot := fld v 12 5, open_ := false } }) d)) d1
  let d3 := guardDev (fld v 1 1 == 1 && fwBusy d2) (fun d =>
    setR .sec 0 0x24 (4 + 256 * 16) (updSec (fun s => { s with fwLoad := none }) d)) d2
  guardDev (fld v 2 1 == 1) (fun d =>
    let b := otherBank d
    if bankValid d b then
      secRequest 0x0016 (Config.recordField 0x16 1 b) (1 - b) b (BitVec.ofNat 64 (Config.recordField 0x16 4 b)) (.activate b) (opStatus 0 d)
    else opStatus 2 d) d3

/-! ### Anti-rollback (R420) -/

/-- The first condition of R420 that fails, as its code. (DEDUCED, log 107.) -/
def advRefusal (f : FuseSt) (e : Nat) (d : Dev) : Option Nat :=
  let planes := (planesInUse d).all (fun p => e ≤ (planeOf d p).epoch)
  let img := d.cfg.nandImages.getD (getF d .cfg 0 0x28 0 1) []
  if !(fuseRollback f < e && e ≤ 63) || fwEpoch (runningFw d) < e || !planes || (!img.isEmpty && byteAt img 0x20 < e) then some 3
  else if !fuseSupply d then some 4
  else none

/-- A LOADED plane, and a firmware bank, below an epoch. -/
def planeBelow (d : Dev) (e p : Nat) : Bool := (planeOf d p).loaded && (planeOf d p).epoch < e
def bankBelow (d : Dev) (e b : Nat) : Bool := bankValid d b && fwEpoch (bankFw d b) < e

/-- A write of ADV (R420). -/
def advEffect (f : FuseSt) (v : W32) (d : Dev) : Dev :=
  let e := fld v 0 6
  if fld v 31 1 = 0 then d
  else
    match advRefusal f e d with
    | some c => opStatus c d
    | none =>
      let x := b2n (planeBelow d e 0) + 2 * b2n (planeBelow d e 1) + 4 * b2n (bankBelow d e (otherBank d))
      secRequest 0x0010 (Config.recordField 0x10 1 0) (fuseRollback f) e (BitVec.ofNat 64 x) (.advance e) d

/-- The thermometer bits that an advance to E programs, ascending (R420). -/
def thermoBits (f : FuseSt) (e : Nat) : List Nat :=
  (((List.range 63).map (· + 8 * 0x1D0)).filter (fun i => !fuseBit f i)).take (e - fuseRollback f)

/-! ### Revocation (R422) -/

/-- The key slot verified the running firmware, or the image of a plane in use. -/
def slotInUse (d : Dev) (s : Nat) : Bool :=
  (match d.sec.running with
    | some b => d.sec.slots.getD b 0xFF == s
    | none => false) || (planesInUse d).any (fun p => (planeOf d p).slot == s)

/-- The answer to a revocation: a code, or none where it goes ahead. (DEDUCED, log 107.) -/
def revokeRefusal (f : FuseSt) (kind index : Nat) (d : Dev) : Option Nat :=
  if kind = 0 then
    let gone := bit (fuseKeyRevoke f) index || 4 ≤ index || (fuseBytes f (0x40 + 96 * index) 96).all (· == 0#8)
    if slotInUse d index then some 2
    else if ((usableSlots f (runningFw d)).filter (· != index)).isEmpty then some 1
    else if gone then some 0
    else if !fuseSupply d then some 4
    else none
  else
    if ((List.range 16).filter (fun w => w != index && warrantUsable f w && bit (warrantMask f w) 7)).isEmpty then some 1
    else if !warrantUsable f index then some 0
    else if !fuseSupply d then some 4
    else none

/-- A write of REVOKE (R422). -/
def revokeEffect (f : FuseSt) (v : W32) (d : Dev) : Dev :=
  let i := fld v 0 4
  let k := fld v 8 1
  if fld v 31 1 = 0 then d
  else
    match revokeRefusal f k i d with
    | some c => opStatus c d
    | none =>
      let kind := 0x0013 + k
      secRequest kind (Config.recordField kind 1 i) (Config.recordField kind 2 i) (Config.recordField kind 3 i)
        (BitVec.ofNat 64 (Config.recordField kind 4 i)) (if k = 0 then .revokeKey i else .revokeWarrant i) d

/-- A session's end requested (R363, R370 kind 0x0006), with the class and origin of its cause. -/
def requestClose (cls oid s : Nat) (frame : Option Nat) (d : Dev) : Dev :=
  let x := getSess d s
  guardDev x.isOpen (requestChange
    { at_ := d.dt, cls := cls, oid := oid, target := s, kind := 0x0006, new := BitVec.ofNat 32 x.warrant, extra := BitVec.ofNat 64 x.ctl
      act := .closeSession s, frame := frame }) d

/-- Every open session that passes a test is to end. (DEDUCED, log 95.) -/
def closeSessions (p : Session → Bool) (d : Dev) : Dev :=
  [0, 1, 2, 3].foldl (fun d s => guardDev (p (getSess d s)) (requestClose 6 0 s none) d) d

/-! ### Debug port (R423, R424) -/

/-- An unlock ends (R424): a record of kind 0x0012, and EVSUM.SECURITY. (DEDUCED, log 108.) -/
def endUnlock (f : FuseSt) (d : Dev) : Dev :=
  guardDev d.sec.unlock.isSome (fun d =>
    let s := debugState f false
    requestChange { at_ := d.dt, cls := 6, oid := 0, target := Config.recordField 0x12 1 0, kind := 0x0012
                    old := BitVec.ofNat 32 d.sec.debug, new := BitVec.ofNat 32 s }
      (evSecurity (updSec (fun x => { x with unlock := none, debug := s }) d))) d

/-- The message that the owner signs for an unlock (R424). -/
def unlockMessage (f : FuseSt) (chal : List Byte) (seconds : Nat) : List Byte :=
  [0x44, 0x4E, 0x56, 0x33, 0x32, 0x2D, 0x44, 0x45, 0x42, 0x55, 0x47] ++ chal ++ fuseBytes f 0 6 ++ fuseBytes f 0x1C8 8 ++ leBytes 4 seconds

/-- The bytes of DBG_RESP. -/
def respBytes (d : Dev) (off len : Nat) : List Byte := (List.range len).map (fun i => mapGet 0#8 (off + i) d.sec.resp)

/-- CHAL, SUBMIT, RELOCK (R424). -/
def dbgChallenge (d : Dev) : Dev :=
  if 16 ≤ d.sec.fails then opStatus 5 d
  else
    let c := (List.range 32).map (Config.randomByte d.freeCount)
    let d1 := updSec (fun s => { s with chal := some (c, d.dt + 125000000) }) { d with freeCount := d.freeCount + 1 }
    opStatus 0 ((List.range 8).foldl (fun d i => setR .sec 0 (0x60 + 4 * i) (field c (4 * i) 4) d) d1)

/-- (DEDUCED, log 107.) -/
def dbgSubmit (f : FuseSt) (d : Dev) : Dev :=
  let slot := byteAt (respBytes d 0 1) 0
  let seconds := leNat (respBytes d 4 4)
  let blk := respBytes d 8 8240
  let fw := runningFw d
  let ok := match d.sec.chal with
    | some (c, t) =>
      let m := unlockMessage f c seconds
      decide (d.dt < t) && (usableSlots f fw).contains slot && rsaVerifies (keyRsa fw slot) m blk
        && slhVerifies (keySlh fw slot) m blk
    | none => false
  let d1 := updSec (fun s => { s with chal := none }) d
  if ok then
    secRequest 0x0011 (Config.recordField 0x11 1 slot) d.sec.debug 2 (BitVec.ofNat 64 (Config.recordField 0x11 4 (slot + 256 * seconds)))
      (.unlock slot seconds) (opStatus 0 (updSec (fun s => { s with fails := 0 }) d1))
  else evSecurity (updSec (fun s => { s with fails := satTo 5 (s.fails + 1) }) d1)

/-- LOCK and SEAL (R423): refused with code 5 for a seal without a lock, and with code 4 by the supply. -/
def dbgFuse (f : FuseSt) (sl : Bool) (d : Dev) : Dev :=
  if sl && !fuseLocked f then opStatus 5 d
  else if !fuseSupply d then opStatus 4 d
  else programBits f [8 * 0x1C1 + b2n sl] false (opStatus 0 d)

/-- A write of DBG_CTL (R423, R424), in the order of its bits. -/
def dbgCtlEffect (f : FuseSt) (v : W32) (d : Dev) : Dev :=
  let d1 := guardDev (fld v 0 1 == 1) dbgChallenge d
  let d2 := guardDev (fld v 1 1 == 1) (dbgSubmit f) d1
  let d3 := guardDev (fld v 2 1 == 1) (fun d => opStatus 0 (endUnlock f d)) d2
  guardDev (fld v 4 1 == 1) (dbgFuse f true) (guardDev (fld v 3 1 == 1) (dbgFuse f false) d3)

/-- UNLOCK_EXPIRY and CHALLENGE_EXPIRY (R424). -/
def unlockExpiry (f : FuseSt) (d : Dev) : Dev :=
  match d.sec.unlock with
  | some t => guardDev (t ≤ d.dt) (endUnlock f) d
  | none => d
def challengeExpiry (d : Dev) : Dev :=
  match d.sec.chal with
  | some (_, t) => guardDev (t ≤ d.dt) (updSec (fun s => { s with chal := none })) d
  | none => d

/-! ### Attestation (R426) -/

/-- A_LOADED, B_LOADED, A_IN_USE and B_IN_USE (R51). -/
def planeBits (d : Dev) : Nat :=
  b2n (planeOf d 0).loaded + 2 * b2n (planeOf d 1).loaded + 4 * b2n (planeOf d 0).inUse + 8 * b2n (planeOf d 1).inUse

/-- The signed bytes of a report, of this instant's state. -/
def attReport (f : FuseSt) (d : Dev) : List Byte :=
  let s := d.sec
  let fw := runningFw d
  let plane (p : Nat) := planeOf d p
  let gen (p : Nat) := if (plane p).loaded then (plane p).gen else 0
  let dig (p : Nat) := if (plane p).loaded then (plane p).digest else List.replicate 48 0#8
  let slotOf (p : Nat) := if (plane p).loaded then (plane p).slot else 0xFF
  let nonce := (List.range 8).flatMap (fun i => leBytes 4 (getR d .sec 0 (0xA0 + 4 * i)).toNat)
  let flags := b2n (fuseProvisioned f) + 2 * s.debug + 8 * b2n s.fallback + 16 * b2n s.recovery + 32 * b2n s.unlocked
  let fwSlot := match s.running with
    | some b => s.slots.getD b 0xFF
    | none => 0xFF
  leBytes 2 0x0101 ++ leBytes 2 0x0200 ++ leBytes 4 (s.attCount + 1) ++ leBytes 8 d.dt ++ nonce ++ fuseBytes f 0 6
    ++ leBytes 1 (getF d .peer 0 0 0 8) ++ leBytes 1 flags ++ fuseBytes f 0x1C8 8 ++ leBytes 1 (fuseRollback f) ++ leBytes 1 (fuseKeyRevoke f)
    ++ leBytes 2 (fuseWarrantRevoke f) ++ leBytes 1 fwSlot ++ leBytes 1 (slotOf 0) ++ leBytes 1 (slotOf 1)
    ++ leBytes 1 (planeBits d) ++ leBytes 4 (fwGen fw) ++ leBytes 4 (gen 0) ++ leBytes 4 (gen 1)
    ++ leBytes 1 (fwEpoch fw) ++ leBytes 1 (plane 0).epoch ++ leBytes 1 (plane 1).epoch ++ leBytes 1 0
    ++ (List.range 48).map Config.romMeasurement ++ (if s.running.isSome then measurement fw (fwLen fw) else List.replicate 48 0#8)
    ++ dig 0 ++ dig 1 ++ sha384 ((List.range 2048).map (fuseShown f)) ++ leBytes 8 (d.log.next - 1) ++ d.log.hash ++ leBytes 160 0

/-- A write of ATT_CTL (R426): a GO while a report is being made is ignored. -/
def attEffect (f : FuseSt) (v : W32) (d : Dev) : Dev :=
  guardDev (fld v 0 1 == 1 && d.sec.att.isNone) (fun d => updSec (fun s => { s with att := some (attReport f d) }) d) d

/-- ATT_REPORT_READY (R426). -/
def attReady (d : Dev) : Dev :=
  match d.sec.att with
  | some b => updSec (fun s => { s with att := none, attCount := s.attCount + 1, attBuf := b ++ (List.range 8240).map (Config.attSignature b) }) d
  | none => d

/-! ### The commands that act on the security block alone -/

/-- A write of a SEC register that is a command, with its effect. -/
def secWrite (by_ : WriteBy) (off : Nat) (v : W32) (eff : Origin → Dev → Dev) (d : Dev) : Dev :=
  committedWrite (originOf d by_) (secAddr off) v (eff (originOf d by_)) d

/-- FUSE_PROG (R413). -/
def execFuseProg (by_ : WriteBy) (v : W32) (s : State) : Out State :=
  onDev (guardDev (fld v 31 1 == 1) (secWrite by_ 0x100 v (fun o => progEffect s.fuse o v))) s

/-- FUSE_BIT_PROGRAMMED (R412): the bit in progress is set; the last of a revocation or an advance sets EVSUM.SECURITY. -/
def execFuseBitProgrammed (s : State) : Out State :=
  match s.dev.sec.queue with
  | [] => .next s
  | (i, event) :: rest =>
    if s.dev.dt < s.dev.sec.fuseDue then .next s
    else
      let f := fuseSet i s.fuse
      let d1 := updSec (fun x => { x with queue := rest, fuseDue := s.dev.dt + 1250, debug := debugState f x.unlock.isSome }) s.dev
      let d2 := guardDev rest.isEmpty (opStatus 0) (guardDev event evSecurity d1)
      .next { s with dev := d2, fuse := f }

/-- FW_LOAD_START (R418). -/
def execFwLoadStart (by_ : WriteBy) (v : W32) (s : State) : Out State :=
  onDev (guardDev (fld v 0 1 == 1) (secWrite by_ 0x20 v (fun _ => fwCtlEffect v))) s

/-- FW_LOAD_ABORT (R418). -/
def execFwLoadAbort (by_ : WriteBy) (v : W32) (s : State) : Out State :=
  onDev (guardDev (fld v 1 1 == 1) (secWrite by_ 0x20 v (fun _ => fwCtlEffect v))) s

/-- FW_VERIFY_DONE (R416). -/
def execFwVerifyDone (s : State) : Out State := onDev (fwVerifyDone s.fuse) s

/-- FW_ACTIVATE (R419). -/
def execFwActivate (by_ : WriteBy) (v : W32) (s : State) : Out State :=
  onDev (guardDev (fld v 2 1 == 1) (secWrite by_ 0x20 v (fun _ => fwCtlEffect v))) s

/-- ROLLBACK_ADVANCE (R420). -/
def execRollbackAdvance (by_ : WriteBy) (v : W32) (s : State) : Out State :=
  onDev (guardDev (fld v 31 1 == 1) (secWrite by_ 0x40 v (fun _ => advEffect s.fuse v))) s

/-- REVOKE (R422). -/
def execRevoke (by_ : WriteBy) (v : W32) (s : State) : Out State :=
  onDev (guardDev (fld v 31 1 == 1) (secWrite by_ 0x44 v (fun _ => revokeEffect s.fuse v))) s

/-- DBG_CHAL (R424). -/
def execDbgChal (by_ : WriteBy) (v : W32) (s : State) : Out State :=
  onDev (guardDev (fld v 0 1 == 1) (secWrite by_ 0x50 v (fun _ => dbgCtlEffect s.fuse v))) s

/-- DBG_SUBMIT (R424). -/
def execDbgSubmit (by_ : WriteBy) (v : W32) (s : State) : Out State :=
  onDev (guardDev (fld v 1 1 == 1) (secWrite by_ 0x50 v (fun _ => dbgCtlEffect s.fuse v))) s

/-- DBG_RELOCK (R424). -/
def execDbgRelock (by_ : WriteBy) (v : W32) (s : State) : Out State :=
  onDev (guardDev (fld v 2 1 == 1) (secWrite by_ 0x50 v (fun _ => dbgCtlEffect s.fuse v))) s

/-- DBG_LOCK (R423). -/
def execDbgLock (by_ : WriteBy) (v : W32) (s : State) : Out State :=
  onDev (guardDev (fld v 3 1 == 1) (secWrite by_ 0x50 v (fun _ => dbgCtlEffect s.fuse v))) s

/-- DBG_SEAL (R423). -/
def execDbgSeal (by_ : WriteBy) (v : W32) (s : State) : Out State :=
  onDev (guardDev (fld v 4 1 == 1) (secWrite by_ 0x50 v (fun _ => dbgCtlEffect s.fuse v))) s

/-- UNLOCK_EXPIRY (R424). -/
def execUnlockExpiry (s : State) : Out State := onDev (unlockExpiry s.fuse) s

/-- CHALLENGE_EXPIRY (R424). -/
def execChallengeExpiry (s : State) : Out State := onDev challengeExpiry s

/-- ATT_GO (R426). -/
def execAttGo (by_ : WriteBy) (v : W32) (s : State) : Out State :=
  onDev (guardDev (fld v 0 1 == 1) (secWrite by_ 0x80 v (fun _ => attEffect s.fuse v))) s

/-- ATT_REPORT_READY (R426). -/
def execAttReportReady (s : State) : Out State := onDev attReady s

end Sys2Proof.Machine
end

