-- ==== Sys2Proof/Machine/Tx.lean ====
section
/-! DEFINITION. Transmit ports (R330-R337, R353): enabling, calibration, the scheduler's packets, and frames closed by a VOID or
REFUSED record. -/

namespace Sys2Proof.Machine

def txpCtlAddr (p : Nat) : Nat := addrOf .txp p 0

/-- A transmit port's count i (R353), and the hub's PMU counts that no block counter holds (R435). -/
def txpCnt (p i n : Nat) (d : Dev) : Dev := addCnt .txp p (0x20 + 4 * i) n d

/-- A port is enabled. -/
def txEnabled (d : Dev) (p : Nat) : Bool := getF d .txp p 0 0 1 == 1

/-- A write of TXPn.CTL (R330, R353): enabling sends the initial skew calibration above 1,500 Mb/s; disabling takes the PHY down. (DEDUCED, log 86.) -/
def txpCtlEffect (p : Nat) (v : W32) (d : Dev) : Dev :=
  let d1 := storeFields (txpCtlAddr p) v d
  match txEnabled d p, fld v 0 1 == 1 with
  | false, true => updTx p (fun t => { t with ready := true, lastCal := d.dt, cals := if 1500 < t.rate then t.cals + 1 else t.cals }) d1
  | true, false => updTx p (fun t => { t with ready := false }) d1
  | _, _ => d1

/-- No frame of the port is between its Frame Start and its Frame End. -/
def txBetween (t : TxPort) : Bool := t.frames.all (fun f => !f.fsSent)

/-- TX_PERIODIC_CALIBRATION (R330): once every 1,048,576 DT, between frames. (DEDUCED, log 86.) -/
def txCalibrate (p : Nat) (d : Dev) : Dev :=
  let t := getTx d p
  guardDev (txEnabled d p && t.ready && txBetween t && decide (t.lastCal + 1048576 ≤ d.dt))
    (updTx p (fun t => { t with lastCal := d.dt, cals := t.cals + 1 })) d

/-! ### Packets (R332-R334) -/

/-- Nothing more comes into the frame's parts: its record has come, or the drain frame's set has ended. -/
def txWhole (f : TxFrame) : Bool := f.record.isSome || f.ended

/-- A part has a packet ready: more than a line, whose packet cannot be the last; or what is left once nothing more comes. (DEDUCED, log 84.) -/
def partReady (f : TxFrame) (x : TxPart) : Bool := decide (x.line < x.buf.length) || (txWhole f && !x.buf.isEmpty)

/-- The data of a payload packet with its prefix (R333). (DEDUCED, log 84.) -/
def partPacket (f : TxFrame) (x : TxPart) : List Byte :=
  let last := txWhole f && decide (x.buf.length ≤ x.line)
  leBytes 1 x.part ++ leBytes 1 (b2n last) ++ leBytes 2 0 ++ leBytes 4 x.off ++ x.buf.take x.line

/-- The part after its packet. -/
def partNext (x : TxPart) : TxPart := { x with off := x.off + min x.line x.buf.length, buf := x.buf.drop x.line }

/-- The next packet of a frame and the frame after it, if one is ready: Frame Start, header, payload, record, Frame End (R332, R334). -/
def nextPacket (f : TxFrame) : Option (TxPacket × TxFrame) :=
  let drain := f.header.isEmpty
  if !f.fsSent then some ({ vc := f.vc, typ := 0x00, payload := leBytes 2 f.frameNo }, { f with fsSent := true })
  else if !drain && !f.headerSent then some ({ vc := f.vc, typ := 0x30, payload := f.header }, { f with headerSent := true })
  else
    match f.parts.find? (partReady f) with
    | some x =>
      some ({ vc := f.vc, typ := x.typ, payload := partPacket f x },
        { f with parts := f.parts.map (fun y => if y.part == x.part then partNext y else y) })
    | none =>
      match f.record, f.recordSent with
      | some r, false => some ({ vc := f.vc, typ := 0x36, payload := r }, { f with recordSent := true })
      | some _, true => some ({ vc := f.vc, typ := 0x01, payload := leBytes 2 f.frameNo }, { f with ended := true })
      | none, _ => if drain && f.ended then some ({ vc := f.vc, typ := 0x01, payload := leBytes 2 f.frameNo }, f) else none

/-- Frames of a result stream never overlap: the first of each virtual channel is the one being sent (R332). -/
def streamHeads : List TxFrame → List TxFrame
  | [] => []
  | f :: r => f :: (streamHeads r).filter (fun g => g.vc != f.vc)

/-- The first frame of a virtual channel replaced. -/
def setHead (f : TxFrame) : List TxFrame → List TxFrame
  | [] => []
  | g :: r => if g.vc == f.vc then f :: r else g :: setHead f r

/-- The first frame of a virtual channel gone. -/
def dropHead (vc : Nat) : List TxFrame → List TxFrame
  | [] => []
  | g :: r => if g.vc == vc then r else g :: dropHead vc r

/-- The port's PHY has power (R393): for 125,000 DT after a power fail's t0 at most. -/
def txPowered (d : Dev) : Bool :=
  match d.pow.fail with
  | some t0 => decide (d.dt ≤ t0 + 125000)
  | none => true

/-- The scheduler's choice among the result streams that have a packet ready (R335, R27). -/
def txChoose (p : Nat) (d : Dev) : Option TxFrame × Dev :=
  if !txEnabled d p || !(getTx d p).ready || !txPowered d then (none, d)
  else
    let heads := (streamHeads (getTx d p).frames).filter (fun f => (nextPacket f).isSome)
    let w := arbitrate arbTx p 32 (heads.map (fun f => ⟨f.vc, f.dl, 0⟩)) d
    (w.1.bind (fun vc => heads.find? (fun f => f.vc == vc)), w.2)

/-- A packet leaves the connector: counts (R353), and the frame's place taken by the frame after it. -/
def sendPacket (p : Nat) (k : TxPacket) (f : TxFrame) (d : Dev) : Dev :=
  let d1 := updTx p (fun t => { t with wire := t.wire ++ [k], frames := if k.typ = 0x01 then dropHead f.vc t.frames else setHead f t.frames }) d
  let payload := k.typ != 0x30 && k.typ != 0x36 && 0x10 ≤ k.typ
  let d2 := guardDev (0x10 ≤ k.typ) (txpCnt p 2 1) d1
  let d3 := guardDev payload (txpCnt p 3 (k.payload.length - 8)) d2
  if k.typ ≠ 0x01 then d3
  else if f.header.isEmpty then txpCnt p 4 1 d3
  else guardDev f.closed (fun d => orR .txp p 0x14 1 (txpCnt p 1 1 d)) (txpCnt p 0 1 d3)

/-- VX cycles for which the port has been sending (R435). -/
def txSending (p vx : Nat) (d : Dev) : Dev := hubUc (64 + 4 * p + 3) vx d

/-- TX_PACKET_SEND (R335): one packet of the chosen result stream goes out whole. (DEDUCED, log 84.) -/
def txPacketSend (p cycles : Nat) (d : Dev) : Dev :=
  match txChoose p d with
  | (some f, d1) =>
    if f.closed then d
    else match nextPacket f with
      | some (k, f1) => txSending p cycles (sendPacket p k f1 d1)
      | none => d
  | (none, _) => d

/-- Up to n packets of one frame, one after another. (DEDUCED, log 86.) -/
def sendAll (p : Nat) : Nat → TxFrame → Dev → Dev
  | 0, _, d => d
  | n + 1, f, d =>
    match nextPacket f with
    | some (k, f1) => if k.typ = 0x01 then sendPacket p k f1 d else sendAll p n f1 (sendPacket p k f1 d)
    | none => d

/-- TX_FRAME_CLOSE (R337): the chosen frame has a VOID or REFUSED record, its payload is discarded; Frame Start and header where they
have not gone, the record and Frame End follow. -/
def txFrameClose (p cycles : Nat) (d : Dev) : Dev :=
  match txChoose p d with
  | (some f, d1) => if f.closed then txSending p cycles (sendAll p 4 f d1) else d
  | (none, _) => d

/-! ### The commands -/

/-- TX_PORT_ENABLE (R330). -/
def execTxPortEnable (by_ : WriteBy) (port : Fin 8) (v : W32) (s : State) : Out State :=
  onDev (guardDev (fld v 0 1 == 1) (fun d =>
    committedWrite (originOf d by_) (txpCtlAddr port.val) v (txpCtlEffect port.val v) d)) s

/-- TX_PACKET_SEND (R335). -/
def execTxPacketSend (port : Fin 8) (cycles : Nat) (s : State) : Out State := onDev (txPacketSend port.val cycles) s

/-- TX_FRAME_CLOSE (R337). -/
def execTxFrameClose (port : Fin 8) (cycles : Nat) (s : State) : Out State := onDev (txFrameClose port.val cycles) s

/-- TX_PERIODIC_CALIBRATION (R330). -/
def execTxPeriodicCalibration (port : Fin 8) (s : State) : Out State := onDev (txCalibrate port.val) s

end Sys2Proof.Machine
end

