-- ==== Sys2Proof/Machine/Boot.lean ====
section
/-! DEFINITION. Power-up and wake (R391, R392, R417), what a loss of power leaves (R387, R393), the change-log records that the security
block commits (R413, R419-R424), and a fallow state's entry (R389). -/

namespace Sys2Proof.Machine

def updClk (f : ClkSt → ClkSt) (d : Dev) : Dev := { d with clk := f d.clk }
def updTel (f : TelSt → TelSt) (d : Dev) : Dev := { d with tel := f d.tel }

/-! ### What a power-down leaves (R384, R387, R407) -/

/-- Registers of the standby domain: PWR.WAKE_EN, WAKE_DT and WAKE_CAUSE (R387), and the clock monitor's, with DT_INC (R377, R384). -/
def standbyRegs : List (Blk × Nat) :=
  [(.pwr, 0xC), (.pwr, 0x10), (.pwr, 0x14), (.pwr, 0x18), (.clk, 0xC), (.clk, 0x10), (.clk, 0x14), (.clk, 0x18)]

/-- Registers held in NAND: CFG.BOOT (R51). -/
def nandRegs : List (Blk × Nat) := [(.cfg, 0x28)]

/-- The registers of a list as they are, every other at its reset value. -/
def keepRegs (l : List (Blk × Nat)) (d : Dev) : SMap W32 :=
  d.regs.filter (fun e => l.any (fun r => addrOf r.1 0 r.2 == e.1))

/-- What NAND holds: image banks, firmware banks and FW_BOOT, the log ring and the telemetry ring (R402). -/
def offDev (d : Dev) : Dev :=
  { freeCount := d.freeCount, serial := d.serial, regs := keepRegs nandRegs d
    log := { next := d.log.next, hash := d.log.hash, nand := d.log.nand }
    cfg := { nandImages := d.cfg.nandImages }
    sec := { banks := d.sec.banks, boot := d.sec.boot }
    tel := { seq := d.tel.seq, ring := d.tel.ring } }

/-- The standby domain beside it: device time, the clock monitor, its registers, the dynamic address, the rails and pins; and DRAM where
its self-refresh goes on. -/
def fallowDev (dram : Bool) (d : Dev) : Dev :=
  { offDev d with
    dt := d.dt, regs := keepRegs (nandRegs ++ standbyRegs) d, clk := { d.clk with ramp := [14, 17, 19, 21], due := [0, 0, 0, 0] }
    i3c := { da := d.i3c.da }
    tel := { seq := d.tel.seq, ring := d.tel.ring, lastAt := d.tel.lastAt }
    mem := if dram then { dram := d.mem.dram, dramBad := d.mem.dramBad } else {}
    pow := { d.pow with hubUp := false, booted := false, computeUp := false, fallow := none, quiet := 0, fail := none, gated := false, timerDue := false } }

/-! ### The boot (R44, R391, R392, R417) -/

/-- The page table without an entry (R391). -/
def clearPages (d : Dev) : Dev :=
  { d with mem := { d.mem with dram := d.mem.dram.filter (fun c => !(pteAddr 0 ≤ c.1 && c.1 < pteAddr 0 + 2 ^ 27)) } }

/-- The compute and base dies power up: the scratchpad's initialisation begins (R203), the page table is to be written afresh, and the
firmware loads the boot bank into plane A (R44). (DEDUCED, log 100.) -/
def computeStart (d : Dev) : Dev :=
  if d.pow.computeUp then d
  else
    let d1 := updPow (fun p => { p with computeUp := true }) d
    let d2 := [0, 1, 2, 3].foldl (fun d q => updSpd q (fun s => { s with initDone := false, initEnd := some (ceilDiv (10 * d.dt + 1048576) 10) }) d) d1
    beginLoad 0 0 (getF d2 .cfg 0 0x28 0 1) 0 0 0 (some 1) (clearPages d2)

def wakeBit : WakeCause → Option Nat
  | .i3c => some 0
  | .fsync => some 1
  | .timer => some 2
  | .powerOn => some 3
  | .write => none

/-- Step 5 of R392: the dies power up, unless the coolant check holds the module in its fallow state. -/
def dieStart (d : Dev) : Dev :=
  if d.pow.computeUp then d
  else if wakeAllowed d then computeStart (setF .pwr 0 0x18 5 1 0 (updPow (fun p => { p with blocked := none }) d))
  else if d.pow.blocked.isSome then d else blockWake .powerOn d

/-- The boot ROM's choice of a bank (R417): the bank of FW_BOOT, else the other one, else recovery. -/
def romBoot (f : FuseSt) (d : Dev) : Dev :=
  let b := d.sec.boot
  let v (i : Nat) := fwVerify f (bankFw d i)
  let ok (i : Nat) : Bool := (v i).1 == 0
  let d1 := updSec (fun s => { s with valid := [ok 0, ok 1], slots := [(v 0).2, (v 1).2], debug := debugState f false }) d
  if ok b then updSec (fun s => { s with running := some b }) d1
  else if ok (1 - b) then evSecurity (updSec (fun s => { s with running := some (1 - b), fallback := true }) d1)
  else evSecurity (updSec (fun s => { s with running := none, recovery := true }) d1)

/-- The fused values that registers take at power-up (R394, R409). -/
def fuseRegs (f : FuseSt) (d : Dev) : Dev :=
  let d1 := guardDev (d.clk.trimAt.isNone) (setF .clk 0 0x14 0 10 (fuseTrim f)) d
  [0, 1, 2, 3].foldl (fun d q => setR .tel 0 (0x30 + 4 * q) (fuseVset f q) d) d1

/-- The log recovered (R372, R408): the last record that NAND holds, whether it is a seal, and the DT of its power fail. -/
def lastStored (d : Dev) : Option LogRecord :=
  (d.log.nand.map (·.2)).foldl (fun b r => match b with
    | some x => if x.seq < r.seq then some r else some x
    | none => some r) none

def logRecover (d : Dev) : Dev :=
  let d1 := orR .log 0 0 1 (updLog (fun l => { l with sealing := false, reqs := [], mirror := l.next }) d)
  match lastStored d with
  | none => d1
  | some r =>
    if r.kind = 0x000A then setPair .pwr 0 0x30 0x34 r.extra.toNat (orR .log 0 0 4 d1) else evsum 6 d1

/-- The power-on record (R372, R370 kind 0x0002). (DEDUCED, log 15.) -/
def powerOnRecord (d : Dev) : Dev :=
  let r := lastStored d
  let sealed : Bool := match r with
    | some x => x.kind == 0x000A
    | none => false
  requestChange { at_ := d.dt, cls := 0, oid := 0, target := 0, kind := 0x0002, new := BitVec.ofNat 32 (b2n sealed)
                  extra := BitVec.ofNat 64 (match r with
                    | some x => x.seq
                    | none => 0) } d

/-- The hub powers up: its registers, the firmware and the log; PWR.STATE is 2 (R391, R392, R417). -/
def hubStart (f : FuseSt) (d : Dev) : Dev :=
  logRecover (romBoot f (fuseRegs f (setF .pwr 0 0 0 3 2 (updPow (fun p => { p with hubUp := true, booted := true }) d))))

/-- HUB_POWER_UP (R392): with 48 V at 44.0 V or above and RESET_N high. Outside recovery the dies follow once the root PLL has locked. (DEDUCED, log 117.) -/
def hubPowerUp (f : FuseSt) (mv : Nat) (d : Dev) : Dev :=
  let p := d.pow
  if mv < 44000 || !p.standby || !p.v3 || p.booted || p.fail.isSome || powerState d == 1 || (powerState d == 2 && !p.hubUp) then d
  else
    let d0 := updPow (fun p => { p with v48 := true, resetN := true }) d
    let d1 := powerOnRecord (hubStart f (setR .pwr 0 0x18 (putBits (getR d .pwr 0 0x18).toNat 0 4 8) (setR .pwr 0 0x28 mv d0)))
    guardDev (!d1.sec.recovery && getF d1 .clk 0 4 3 1 == 1) dieStart d1

/-- HOLD_UP_STORE_FULL (R451). -/
def storeFull (d : Dev) : Dev := guardDev d.pow.v48 (updPow (fun p => { p with storeFull := true })) d

/-- MEMORY_TRAINING_DONE (R391): the controller's channels leave self-refresh trained; with every one trained, a module whose boot has
failed becomes ACTIVE. -/
def trainingEnds (q : Nat) (d : Dev) : Dev :=
  if !d.pow.computeUp || d.pow.gated || getF d .clk 0 4 0 2 == 1 || getF d .clk 0 4 0 2 == 2 then d
  else
    let d1 := setF .memc q 0 0 1 1 { d with memsys := { d.memsys with selfRefresh := d.memsys.selfRefresh.filter (· != q) } }
    guardDev (memReady d1 && powerState d1 == 2 && getF d1 .cfg 0 0 10 1 == 1) becomeActive d1

/-! ### Wakes (R390, R391) -/

/-- The module is in FALLOW or DEEP FALLOW. -/
def inFallow (d : Dev) : Bool := !d.pow.hubUp && d.pow.standby && (powerState d == 1 || powerState d == 2)

/-- The wake of R391: WAKE_CAUSE, the hub, its record, the dies, and the boot load. (DEDUCED, log 99.) -/
def wakeNow (f : FuseSt) (c : WakeCause) (d : Dev) : Dev :=
  let old := if getF d .pwr 0 0x18 4 1 = 1 then 1 else powerState d
  let lost := getF d .pwr 0 0x18 4 1
  let d1 := pwrCnt 2 1 (setR .pwr 0 0x18 ((match wakeBit c with
    | some k => 2 ^ k
    | none => 0) + 16 * lost) (updPow (fun p => { p with blocked := none, i3cFrom := d.dt + 125000 }) d))
  let d2 := evsum 2 (hubStart f d1)
  let d3 := requestChange { at_ := d.dt, cls := 2, oid := 0, target := addrOf .pwr 0 0, kind := 0x0009
                            old := BitVec.ofNat 32 old, new := 4 } d2
  guardDev (!d3.sec.recovery) computeStart d3

/-- A wake source acts: the module wakes, or the wake is blocked and waits for the comparators. -/
def tryWake (f : FuseSt) (c : WakeCause) (d : Dev) : Dev :=
  if !inFallow d then d
  else if wakeAllowed d then wakeNow f c d
  else blockWake c d

/-! ### Fallow entry (R389) -/

/-- A record committed at once, and every pending request that holds a slot, in order (R389: the journal commits before the dies go). -/
def commitRest : Nat → Dev → Dev
  | 0, d => d
  | n + 1, d =>
    match d.log.reqs with
    | [] => d
    | r :: rest => commitRest n (appendRecord r (updLog (fun l => { l with reqs := rest }) d))

/-- FALLOW_ENTRY (R389): 125,000 DT after the write's commit, and once every earlier change has committed, sessions close, an unlock ends, the journal is flushed, memory goes to
self-refresh or off, and the dies are powered off. (DEDUCED, log 99.) -/
def fallowEntry (f : FuseSt) (d : Dev) : Dev :=
  match d.pow.fallow with
  | none => d
  | some (target, t) =>
    if d.dt < t + 125000 ∨ !d.log.reqs.isEmpty then d
    else
      let d1 := endUnlock f (closeSessions (fun _ => true) d)
      let d2 := flushAll (commitRest d1.log.reqs.length d1)
      setF .pwr 0 0 0 3 target (fallowDev (target == 2) d2)

/-! ### Records of the security block take effect (R413, R419-R424) -/

/-- A plane, and a firmware bank, dropped. -/
def dropBank (b : Nat) (d : Dev) : Dev := updSec (fun s => { s with valid := setAt b false s.valid }) d

/-- What a committed record of the security block does. -/
def applySec (f : FuseSt) (op : SecOp) (d : Dev) : Dev :=
  match op with
  | .advance e =>
    let d1 := [0, 1].foldl (fun d p => guardDev (planeBelow d e p) (unloadPlane p) d) d
    let d2 := guardDev (bankBelow d1 e (otherBank d1)) (dropBank (otherBank d1)) d1
    programBits f (thermoBits f e) true d2
  | .revokeKey s =>
    let d1 := [0, 1].foldl (fun d p =>
      guardDev ((planeOf d p).loaded && !(planeOf d p).inUse && (planeOf d p).slot == s) (unloadPlane p) d) d
    programBits f [8 * 0x1C0 + s] true d1
  | .revokeWarrant w => programBits f [8 * 0x1C4 + w] true (closeSessions (fun x => x.isOpen && x.warrant == w) d)
  | .program off data => programBits f (dataBits off data) false d
  | .provision => d
  | .lock => d
  | .seal => d
  | .unlock _ seconds =>
    evSecurity (updSec (fun s => { s with unlock := some (d.dt + 125000000 * seconds), unlocked := true, debug := debugState f true }) d)
  | .fwValid b =>
    if fwEpoch (bankFw d b) < fuseRollback f then setR .sec 0 0x24 (4 + 256 * 7) d
    else setR .sec 0 0x24 3 (updSec (fun s => { s with valid := setAt b true s.valid }) d)
  | .activate b =>
    let d1 := updSec (fun s => { s with boot := b }) d
    if d.sec.recovery then
      guardDev (getF d1 .clk 0 4 3 1 == 1) dieStart (updSec (fun s => { s with running := some b, recovery := false }) d1)
    else updSec (fun s => { s with restarting := some b }) d1

/-! ### The commands -/

/-- HUB_POWER_UP (R392). -/
def execHubPowerUp (mv : W16) (s : State) : Out State := onDev (hubPowerUp s.fuse mv.toNat) s

/-- HOLD_UP_STORE_FULL (R451). -/
def execHoldUpStoreFull (s : State) : Out State := onDev storeFull s

/-- MEMORY_TRAINING_DONE (R391). -/
def execMemoryTrainingDone (q : Fin 4) (s : State) : Out State := onDev (trainingEnds q.val) s

/-- FALLOW_ENTRY (R389). -/
def execFallowEntry (s : State) : Out State := onDev (fallowEntry s.fuse) s

end Sys2Proof.Machine
end

