-- ==== Sys2Proof/Machine/Cci.lean ====
section
/-! DEFINITION. Sensor control (R71-R76, R81): the sixteen CCI controllers, their queues and transfers, and their commands. -/

namespace Sys2Proof.Machine

def getCci (d : Dev) (n : Nat) : CciSt := mapGet {} n d.rx.cci
def updCci (n : Nat) (f : CciSt → CciSt) (d : Dev) : Dev := { d with rx := { d.rx with cci := mapUpd {} n f d.rx.cci } }

def cciCtlAddr (n : Nat) : Nat := addrOf .cci n 0
def cciCmdAddr (n : Nat) : Nat := addrOf .cci n 0x14
def cciProto (d : Dev) (n : Nat) : Nat := getF d .cci n 0 1 2

/-- The SENSOR entries of the planes in use (R72). -/
def sensorProfiles (d : Dev) : List (List Byte) :=
  (planesInUse d).flatMap (fun p => entriesOf 64 (sectOf (planeOf d p).sections 2 hubScope))

/-- The profile of a target on a controller (R72, R73). -/
def targetProfile (d : Dev) (n target : Nat) : Option (List Byte) :=
  (sensorProfiles d).find? (fun e => byteAt e 0 == n && byteAt e 1 == target)

/-- A write of CTL (R71): in I3C mode, setting EN assigns each target of a profile its static address by SETDASA. -/
def cciCtlEffect (n : Nat) (v : W32) (d : Dev) : Dev :=
  let was := getF d .cci n 0 0 1
  let d1 := storeFields (cciCtlAddr n) v d
  if was = 0 ∧ fld v 0 1 = 1 ∧ fld v 1 2 = 2 then
    updCci n (fun c => { c with dasa := (((sensorProfiles d).filter (fun e => byteAt e 0 == n)).map (fun e => byteAt e 1)).eraseDups }) d1
  else d1

/-! ### Pushes (R73, R74) -/

/-- Number of a pushing origin (R29). -/
def pushOrigin : Origin → Nat
  | .drover i => i.q
  | .core g => 4 + g
  | .attachedCore g _ => 4 + g
  | .i3c _ _ _ => 260
  | .debug => 262
  | _ => 261

/-- A push by a Drover or a general core is data of a frame and is not logged (R74). -/
def pushLogged : Origin → Bool
  | .drover _ => false
  | .core _ => false
  | .attachedCore _ _ => false
  | _ => true

/-- Origins of a list of transfers, each once, with its first transfer's deadline, as requests (R27). (DEDUCED, log 32.) -/
def pushReqs : List CciXfer → List ArbReq
  | [] => []
  | x :: r => ⟨x.origin, x.dl, 0⟩ :: (pushReqs r).filter (fun q => q.id != x.origin)

/-- Transfers that reach a queue in one CT cycle, put in the order of R27 from a round-robin pointer; one origin's pushes keep
their order. (DEDUCED, log 32.) -/
def orderPushes : Nat → Nat → List CciXfer → List CciXfer × Nat
  | 0, p, l => (l, p)
  | fuel + 1, p, l =>
    match arbPick 263 p (pushReqs l) with
    | none => (l, p)
    | some (w, p') =>
      match takeFirst (fun x => x.origin == w) l with
      | none => (l, p)
      | some (x, r) =>
        let rest := orderPushes fuel p' r
        (x :: rest.1, rest.2)

/-- The instance whose control digest a push enters (R74): that on whose behalf it is made, or, for a general core outside any
instance, the latest live instance of the stream that CMD names. (DEDUCED, log 32.) -/
def pushDigest (d : Dev) (o : Origin) (stream : Nat) : Option InstRef :=
  match o with
  | .core _ => ((liveInsts d).filter (fun i => (getCtx d i.q i.ctx).stream == stream)).foldl (fun b i => match b with
      | some x => if (getCtx d x.q x.ctx).index < (getCtx d i.q i.ctx).index then some i else some x
      | none => some i) none
  | o => o.inst

/-- The transfer that a push makes of CMD, REG and the transmit data (R73, R81). -/
def cciXferOf (d : Dev) (n : Nat) (v : W32) (tx : Nat) (o : Origin) : CciXfer :=
  let len := fld v 8 4
  { target := fld v 0 7, read := fld v 7 1 == 1, len := len, group := fld v 12 1 == 1, stream := fld v 16 8
    reg := getF d .cci n 0x10 0 16, wide := getF d .cci n 0x10 16 1 == 1, data := leBytes (min len 8) tx
    dl := instDl d o.inst, inst := o.inst, digest := pushDigest d o (fld v 16 8), origin := pushOrigin o, cycle := 5 * d.dt / 2 }

/-- A transfer enters the queue, in the order of R27 among those of its CT cycle, or is discarded when 32 wait (R73, R74). -/
def cciEnqueue (n : Nat) (x : CciXfer) (d : Dev) : Dev :=
  let c := getCci d n
  if 32 ≤ c.queue.length then
    let k := getF d .cci n 0x28 16 16
    orR .cci n 4 0x800 (setF .cci n 0x28 16 16 (k + 1) d)
  else
    let older := c.queue.filter (fun y => y.cycle != x.cycle)
    let same := c.queue.filter (fun y => y.cycle == x.cycle)
    let key := arbNo arbCci n
    let base := if same.isEmpty then mapGet 0 key d.rr else c.base
    let r := orderPushes 33 base (same ++ [x])
    updCci n (fun c => { c with queue := older ++ r.1, base := base }) { d with rr := mapSet 0 key r.2 d.rr }

/-- What the transmit registers hold. -/
def cciTx (d : Dev) (n : Nat) : Nat := getPair d .cci n 8 0xC

/-- A write of CMD takes effect (R73). -/
def cciCmdEffect (o : Origin) (n : Nat) (v : W32) (tx : Nat) (d : Dev) : Dev :=
  guardDev (fld v 31 1 == 1) (fun d => cciEnqueue n (cciXferOf d n v tx o) d) d

/-- The record of a push (R74, R370, kind 0x000C). -/
def pushReq (d : Dev) (o : Origin) (n : Nat) (v : W32) : ChangeReq :=
  { writeReq d o (cciCmdAddr n) v with
    kind := 0x000C, len := 0, old := 0, extra := BitVec.ofNat 64 (cciTx d n), act := .write o (cciCmdAddr n) v (BitVec.ofNat 64 (cciTx d n)) }

/-- A push by its origin (R74): logged before it takes effect, or an item of its instance's digest. (DEDUCED, log 32.) -/
def cciPush (o : Origin) (n : Nat) (v : W32) (d : Dev) : Dev :=
  if !writeReaches d o (cciCmdAddr n) then d
  else if pushLogged o then
    if d.log.sealing || !slotFree d then requestChange (pushReq d o n v) d
    else cciCmdEffect o n v (cciTx d n) (appendRecord (pushReq d o n v) d)
  else
    let e := cciCmdEffect o n v (cciTx d n) d
    match o, pushDigest d o (fld v 16 8) with
    | .core _, some i => digestItem i ⟨cciCmdAddr n, v, 1, 0⟩ e
    | _, _ => digestWrite o (cciCmdAddr n) v e

/-! ### Transfers on the bus (R73, R75, R76) -/

/-- The next operation of a controller (R73): the release of a group that has ended, the hold before a group, or the transfer
at the queue's head, which leaves the queue. -/
def cciNext (d : Dev) (n : Nat) : Option (CciOp × List CciXfer) :=
  let c := getCci d n
  match c.held, c.queue with
  | some p, [] => some (.release p, [])
  | none, [] => none
  | h, x :: r =>
    let prof := (targetProfile d n x.target).filter (fun e => x.group && bit (byteAt e 4) 0)
    match h with
    | some p => if prof = some p then some (.xfer x, r) else some (.release p, x :: r)
    | none =>
      match prof with
      | some p => some (.hold p, x :: r)
      | none => some (.xfer x, r)

/-- CCI_TRANSFER_START (R73): an enabled controller with an idle bus, its pins driven (R449), starts its next operation. (DEDUCED, log 31.) -/
def cciTransferStart (n : Nat) (d : Dev) : Dev :=
  if getF d .cci n 0 0 1 = 0 ∨ (getCci d n).op.isSome ∨ !hubPins d then d
  else
    match cciNext d n with
    | none => d
    | some (op, q) => updCci n (fun c => { c with op := some op, queue := q, tries := 0, retryAt := none }) d

/-- The settings value that a write carries, in the profile's byte order (R72, R95): which value, and its amount. -/
def sensorValue (prof : List Byte) (x : CciXfer) : Option (Nat × Nat) :=
  let num (w : Nat) : Nat :=
    let b := x.data.take w
    leNat (if bit (byteAt prof 4) 1 then b.reverse else b)
  if x.reg = field prof 0xC 2 then some (0, num (byteAt prof 0xE))
  else if x.reg = field prof 0x10 2 then some (1, num (byteAt prof 0x12))
  else if x.reg = field prof 0x14 2 ∧ field prof 0x14 2 ≠ 0xFFFF then some (2, num (byteAt prof 0x16))
  else none

/-- The frame to which a stamped write belongs (R75): the frame last started while the stamp is before its cut-off, else the next. -/
def xferFrame (d : Dev) (prof : List Byte) (x : CciXfer) (stamp : Nat) : Nat :=
  let p := x.stream / 16
  let count := (getR d .rxp p (slotOff x.stream 8)).toNat
  let fs := getPair d .rxp p (slotOff x.stream 0x10) (slotOff x.stream 0x14)
  if (0 < count ∨ fs ≠ 0) ∧ stamp < fs + field prof 0x20 4 then (count + 2 ^ 32 - 1) % 2 ^ 32 else count

/-- A write stamped and assigned (R75, R95): a value of the stream's sensor is predicted from frame M + d on. -/
def assignXfer (n stamp : Nat) (x : CciXfer) (d : Dev) : Dev :=
  let p := routePlane d x.stream stamp
  let r := routeOf (planeOf d p).sections x.stream
  let prof := sensorEntry (planeOf d p).sections r.sensor
  if x.read || !r.configured || r.sensor == 0xFF || byteAt prof 0 != n || byteAt prof 1 != x.target then d
  else
    match sensorValue prof x with
    | none => d
    | some (k, v) =>
      let lat := if byteAt prof 3 = 0 then 2 else byteAt prof 3
      updIsp (16 * r.pipe + x.stream % 16) (fun c => { c with predict := c.predict ++ [((xferFrame d prof x stamp + lat) % 2 ^ 32, k, v)] }) d

/-- DONE_DT of a controller (R81). -/
def cciStamp (n : Nat) (d : Dev) : Dev := setPair .cci n 0x20 0x24 d.dt d

/-- CCI_TRANSFER_DONE (R75): a write's final acknowledge, or a read's last byte. (DEDUCED, log 31.) -/
def cciTransferDone (n : Nat) (rx : List Byte) (d : Dev) : Dev :=
  let c := getCci d n
  if c.retryAt.isSome || !hubPins d then d
  else
    let idle := updCci n (fun c => { c with op := none, tries := 0 })
    match c.op with
    | none => d
    | some (.hold p) => idle (updCci n (fun c => { c with held := some p }) d)
    | some (.release _) =>
      idle (updCci n (fun c => { c with held := none, acked := [] })
        (cciStamp n (c.acked.foldl (fun d x => assignXfer n d.dt x d) d)))
    | some (.xfer x) =>
      let d := hubUc (144 + 2 * n) 1 d
      if x.read then idle (cciStamp n (setPair .cci n 0x18 0x1C (leNat (rx.take (min x.len 8))) d))
      else if c.held.isSome then idle (updCci n (fun c => { c with acked := c.acked ++ [x] }) d)
      else idle (cciStamp n (assignXfer n d.dt x d))

/-! ### Failures (R76) -/

/-- The CMD value of a transfer. -/
def cmdOf (x : CciXfer) : Nat :=
  x.target + 128 * b2n x.read + 256 * x.len + 4096 * b2n x.group + 65536 * x.stream + 2 ^ 31

/-- The event of a failed transfer (R76, R314): to the home quadrant of its instance, otherwise to every accepting quadrant. -/
def cciFailPost (n code : Nat) (x : CciXfer) (d : Dev) : Dev :=
  let one (q : Nat) (d : Dev) : Dev :=
    ctlTo q <| post { q := q, src := 168, ev := { typedEvent d q 7 (n + 256 * code) with dl32 := x.dl % 2 ^ 32 }, dl := x.dl, attach := x.inst } d
  match x.inst with
  | some i => one i.q d
  | none => [0, 1, 2, 3].foldl (fun d q => guardDev (shpAccepts d q 7) (one q) d) d

/-- The queue without the GROUP transfers at its head, whatever their targets. (DEDUCED, log 31; DESIGN CHOICE, log 125.) -/
def dropGroup (l : List CciXfer) : List CciXfer := l.dropWhile (·.group)

/-- An operation fails (R76): it and the GROUP transfers behind it are dropped, and a group hold is released; the failed write
is counted, posted and enters the digest as failed. -/
def cciFail (n code : Nat) (d : Dev) : Dev :=
  let c := getCci d n
  let failed : Option CciXfer := match c.op with
    | some (.xfer x) => some x
    | some (.hold _) => c.queue.head?
    | _ => c.acked.getLast?
  let drop : Bool := match c.op with
    | some (.xfer x) => x.group
    | some (.hold _) => true
    | _ => false
  let next : Option CciOp := match c.op with
    | some (.xfer _) => c.held.map CciOp.release
    | some (.hold p) => some (.release p)
    | _ => none
  let isRelease : Bool := match c.op with
    | some (.release _) => true
    | _ => false
  let d1 := updCci n (fun c =>
    { c with op := next, tries := 0, retryAt := none, queue := if drop then dropGroup c.queue else c.queue
             held := if isRelease then none else c.held, acked := if isRelease then [] else c.acked }) d
  let d2 := orR .cci n 4 (if code = 1 then 0x200 else 0x400) (setF .cci n 0x28 0 16 (getF d1 .cci n 0x28 0 16 + 1) d1)
  match failed with
  | none => d2
  | some x =>
    let d3 := cciFailPost n code x d2
    match x.digest with
    | some i => digestItem i ⟨cciCmdAddr n, BitVec.ofNat 32 (cmdOf x), if x.origin < 4 then 0 else 1, 1⟩ d3
    | none => d3

/-- Ten bus clock periods in DT (R71, R76): 400 kHz, 1 MHz, 12.5 MHz. -/
def cciRetryDelay : Nat → Nat
  | 0 => 3125
  | 1 => 1250
  | _ => 100

/-- CCI_NACK (R76). (DEDUCED, log 31.) -/
def cciNack (n : Nat) (d : Dev) : Dev :=
  let c := getCci d n
  if c.op.isNone || c.retryAt.isSome then d
  else if c.tries < getF d .cci n 0 4 4 then
    updCci n (fun c => { c with tries := c.tries + 1, retryAt := some (d.dt + cciRetryDelay (cciProto d n)) }) d
  else cciFail n 1 d

/-- CCI_RETRY (R76): the next attempt begins. -/
def cciRetry (n : Nat) (d : Dev) : Dev :=
  match (getCci d n).retryAt with
  | some t => guardDev (t ≤ d.dt) (updCci n (fun c => { c with retryAt := none })) d
  | none => d

/-- CCI_STUCK_BUS (R76): after nine clocks and STOP, STUCK is set and the transfer on the bus fails. -/
def cciStuckBus (n : Nat) (d : Dev) : Dev :=
  if getF d .cci n 0 0 1 = 0 then d
  else if (getCci d n).op.isSome then cciFail n 2 d
  else orR .cci n 4 0x400 d

/-! ### The commands -/

/-- CCI_ENABLE (R71). -/
def execCciEnable (by_ : WriteBy) (ctl : Fin 16) (v : W32) (s : State) : Out State :=
  onDev (guardDev (fld v 0 1 == 1) (fun d => committedWrite (originOf d by_) (cciCtlAddr ctl.val) v (cciCtlEffect ctl.val v) d)) s

/-- CCI_PUSH (R73). -/
def execCciPush (by_ : WriteBy) (ctl : Fin 16) (v : W32) (s : State) : Out State :=
  onDev (guardDev (fld v 31 1 == 1) (fun d => cciPush (originOf d by_) ctl.val v d)) s

/-- CCI_TRANSFER_START (R73). -/
def execCciTransferStart (ctl : Fin 16) (s : State) : Out State := onDev (cciTransferStart ctl.val) s

/-- CCI_TRANSFER_DONE (R75). -/
def execCciTransferDone (ctl : Fin 16) (rx : List Byte) (s : State) : Out State := onDev (cciTransferDone ctl.val rx) s

/-- CCI_NACK (R76). -/
def execCciNack (ctl : Fin 16) (s : State) : Out State := onDev (cciNack ctl.val) s

/-- CCI_RETRY (R76). -/
def execCciRetry (ctl : Fin 16) (s : State) : Out State := onDev (cciRetry ctl.val) s

/-- CCI_STUCK_BUS (R76). -/
def execCciStuckBus (ctl : Fin 16) (s : State) : Out State := onDev (cciStuckBus ctl.val) s

/-- CCI_IN_BAND_INTERRUPT (R71): a sensor's in-band interrupt is NACKed. -/
def execCciInBandInterrupt (ctl : Fin 16) (s : State) : Out State :=
  onDev (fun d => guardDev (getF d .cci ctl.val 0 0 1 == 1 && cciProto d ctl.val == 2)
    (updCci ctl.val (fun c => { c with ibiNacks := c.ibiNacks + 1 })) d) s

end Sys2Proof.Machine
end

