-- ==== Sys2Proof/Machine/Clock.lean ====
section
/-! DEFINITION. The clock monitor, failover to INTOSC and return (R377-R385, R400). -/

namespace Sys2Proof.Machine

def clkCnt (i n : Nat) (d : Dev) : Dev := addCnt .clk 0 (0x40 + 4 * i) n d
def clkSrc (d : Dev) : Nat := getF d .clk 0 4 0 2
def setSrc (n : Nat) (d : Dev) : Dev := updTel (fun t => { t with src := t.src || n != 0 }) (setF .clk 0 4 0 2 n d)
def refStable (d : Dev) : Bool := getF d .clk 0 4 2 1 == 1
def rootLock (d : Dev) : Bool := getF d .clk 0 4 3 1 == 1
def forceInt (d : Dev) : Bool := getF d .clk 0 0 0 1 == 1

/-! ### Dividers (R382) -/

/-- The divider at start and the target of MXCLK, VXCLK, CTCLK and PKCLK. -/
def domains : List (Nat × Nat) := [(2, 25), (4, 50), (8, 100), (16, 200)]

/-- The dividers that a domain steps through, from n to its target: n + ceil(n / 8) each time. -/
def divSteps (target : Nat) : Nat → Nat → List Nat
  | 0, n => [n]
  | fuel + 1, n => if target ≤ n then [target] else n :: divSteps target fuel (min target (n + ceilDiv n 8))

def dividers (k : Nat) : List Nat :=
  let e := domains.getD k (2, 25)
  divSteps e.2 32 e.1

/-- The dwell at a place of a domain's sequence, in tenths of a DT: 64 cycles of its own clock, 25.6 ns times the divider. -/
def dwell (k i : Nat) : Nat := 32 * (dividers k).getD i 0

/-- All domains begin to ramp at a DT, down to INTOSC or back. -/
def startRamps (down : Bool) (d : Dev) : Dev :=
  updClk (fun c => { c with due := (List.range 4).map (fun k =>
    let i := c.ramp.getD k 0
    10 * d.dt + (if down then dwell k i else dwell k (i - 1))) }) d

/-! ### Failover and return (R381, R383) -/

/-- The failover DT (R381). -/
def failoverAt (d : Dev) : Dev :=
  let d1 := startRamps true (setSrc 1 (clkCnt 0 1 (setPair .clk 0 0x28 0x2C d.dt d)))
  let d2 := voidAll 9 (fun _ _ => true) { d1 with rx := { d1.rx with stopped := true } }
  [0, 1, 2, 3].foldl (fun d q => setF .memc q 0 0 1 0 d) { d2 with memsys := { d2.memsys with selfRefresh := [0, 1, 2, 3] } }

/-- A failure declared: CLOCKFAIL is raised, and the record of the failover requested (R381). -/
def raiseClockfail (d : Dev) : Dev := evsum 0 (orR .clk 0 8 1 d)
def declareFailure (d : Dev) : Dev :=
  let asked := d.log.reqs.any (fun r => r.act == .failover)
  guardDev ((clkSrc d == 0 || clkSrc d == 3) && !asked)
    (fun d => requestChange { at_ := d.dt, cls := 6, oid := 0, target := addrOf .clk 0 0, kind := 0x0007, act := .failover } (raiseClockfail d)) d

/-- The return DT (R383). (DEDUCED, log 97.) -/
def returnAt (d : Dev) : Dev :=
  evsum 1 (startRamps false (setSrc 3 (clkCnt 1 1 (setPair .clk 0 0x30 0x34 d.dt
    { d with rx := { d.rx with stopped := d.pow.fallow.isSome || d.pow.fail.isSome } }))))

/-- The record of the return requested, once. (DEDUCED, log 97.) -/
def requestReturn (d : Dev) : Dev :=
  let asked := d.log.reqs.any (fun r => r.act == .clockReturn)
  guardDev ((clkSrc d == 1 || clkSrc d == 2) && !asked)
    (requestChange { at_ := d.dt, cls := 6, oid := 0, target := addrOf .clk 0 0, kind := 0x0008, act := .clockReturn }) d

/-- A write of CLK.CTL (R381, R383): FORCE_INT = 1 fails over at its commit, FORCE_INT = 0 with REFCLK stable starts the return. -/
def clkCtlAddr : Nat := addrOf .clk 0 0
def clkCtlEffect (v : W32) (d : Dev) : Dev :=
  let d1 := storeFields clkCtlAddr v d
  if fld v 0 1 = 1 then guardDev (clkSrc d == 0 || clkSrc d == 3) (fun d => failoverAt (raiseClockfail d)) d1
  else guardDev (refStable d1 && rootLock d1) requestReturn d1

/-- RAMP_STEP (R382): a domain whose dwell has ended steps its divider; the last domain to arrive ends the ramp. (DEDUCED, log 97.) -/
def rampStep (k : Nat) (d : Dev) : Dev :=
  let i := d.clk.ramp.getD k 0
  let top := (dividers k).length - 1
  let due := d.clk.due.getD k 0
  let move (j : Nat) (down : Bool) (d : Dev) : Dev := updClk (fun c =>
    { c with ramp := setAt k j c.ramp, due := setAt k (due + (if down then dwell k j else dwell k (j - 1))) c.due }) d
  if 10 * d.dt < due then d
  else if clkSrc d = 1 ∧ i < top then
    let d1 := move (i + 1) true d
    guardDev (d1.clk.ramp == [14, 17, 19, 21]) (setSrc 2) d1
  else if clkSrc d = 3 ∧ 0 < i then
    let d1 := move (i - 1) false d
    guardDev (d1.clk.ramp == [0, 0, 0, 0]) (setSrc 0) d1
  else d

/-! ### The monitor (R379, R380, R385) -/

/-- DT_INC from the mean of the good counts kept (R385). -/
def dtInc (h : List Nat) : Nat := roundDiv (5120 * h.foldl (· + ·) 0) (max 1 h.length)

/-- A good window (R379, R380, R385). -/
def goodWindow (c : Nat) (d : Dev) : Dev :=
  let run := min 65535 (getF d .clk 0 0x10 0 16 + c)
  let d1 := setF .clk 0 4 2 1 (b2n (decide (16384 ≤ run))) (setR .clk 0 0x10 run (updClk (fun x => { x with bad := false, stopAt := none }) d))
  if clkSrc d1 ≠ 0 then d1
  else
    let h := (c :: d1.clk.hist).take 16
    clkCnt 3 1 (setR .clk 0 0x18 (dtInc h) (updClk (fun x => { x with hist := h }) d1))

/-- A bad window (R379, R380): the second in a row declares failure. -/
def badWindow (d : Dev) : Dev :=
  let d1 := setF .clk 0 4 2 1 0 (setR .clk 0 0x10 0 (clkCnt 2 1 (orR .clk 0 8 2 d)))
  guardDev d.clk.bad declareFailure (updClk (fun x => { x with bad := true }) d1)

/-- MONITOR_WINDOW_END (R379): the count of REFCLK edges in 4,096 INTOSC cycles. -/
def windowEnd (c : Nat) (d : Dev) : Dev :=
  if !d.pow.standby then d
  else
    let d1 := setR .clk 0 0xC c d
    if 3891 ≤ c ∧ c ≤ 4301 then goodWindow c d1 else badWindow d1

/-- REFCLK_STOP (R378). -/
def refStop (d : Dev) : Dev := guardDev d.clk.stopAt.isNone (updClk (fun c => { c with stopAt := some d.dt })) d

/-- HOLDOVER_END (R378, R381): at least 25,000 DT after the stop the PLLs lose lock; receive and transmit ports and peer links go down. -/
def holdoverEnd (d : Dev) : Dev :=
  match d.clk.stopAt with
  | none => d
  | some t =>
    if d.dt < t + 25000 ∨ !rootLock d then d
    else
      let d1 := setF .clk 0 4 3 1 0 d
      let d2 := (List.range 16).foldl (fun d n =>
        guardDev (getF d .rxp n 0xC 0 1 == 1) (fun d => evsum 9 (setF .rxp n 0xC 0 1 0 d)) d) d1
      let d3 := (List.range 8).foldl (fun d p => updTx p (fun t => { t with ready := false }) d) d2
      (List.range 6).foldl (fun d n => guardDev (getLink d n).up (linkDown n) d) d3

/-- ROOT_PLL_LOCK (R383, R392): the root PLL locks to a stable REFCLK; the return is requested, and at power-up the dies follow. -/
def rootPllLock (d : Dev) : Dev :=
  if !refStable d || !d.pow.hubUp then d
  else
    let d1 := (List.range 8).foldl (fun d p => guardDev (txEnabled d p) (updTx p (fun t => { t with ready := true })) d) (setF .clk 0 4 3 1 1 d)
    let d2 := guardDev (!forceInt d1) requestReturn d1
    guardDev (d2.pow.booted && !d2.sec.recovery && !d2.pow.gated) dieStart d2

/-- INTOSC_RETRIM (R400): one trim step, at most once per 125,000,000 DT, while SRC is 0; the history of DT_INC is cleared. -/
def retrim (up : Bool) (d : Dev) : Dev :=
  let ok := match d.clk.trimAt with
    | some t => decide (t + 125000000 ≤ d.dt)
    | none => true
  let code := getF d .clk 0 0x14 0 10
  if clkSrc d ≠ 0 ∨ !ok ∨ !d.pow.hubUp then d
  else
    addCnt .tel 0 (0x80 + 4 * 7) 1 (setR .clk 0 0x14 (if up then min 1023 (code + 1) else code - 1)
      (updClk (fun c => { c with hist := [], trimAt := some d.dt }) d))

/-! ### The commands -/

/-- MONITOR_WINDOW_END (R379). -/
def execMonitorWindowEnd (count : BitVec 13) (s : State) : Out State := onDev (windowEnd count.toNat) s

/-- FORCE_INT (R381). -/
def execForceInt (by_ : WriteBy) (v : W32) (s : State) : Out State :=
  onDev (fun d => committedWrite (originOf d by_) clkCtlAddr v (clkCtlEffect v) d) s

/-- RAMP_STEP (R382). -/
def execRampStep (domain : Fin 4) (s : State) : Out State := onDev (rampStep domain.val) s

/-- HOLDOVER_END (R378). -/
def execHoldoverEnd (s : State) : Out State := onDev holdoverEnd s

/-- ROOT_PLL_LOCK (R383). -/
def execRootPllLock (s : State) : Out State := onDev rootPllLock s

/-- REFCLK_STOP (R378). -/
def execRefclkStop (s : State) : Out State := onDev refStop s

/-- INTOSC_RETRIM (R400). -/
def execIntoscRetrim (up : Bool) (s : State) : Out State := onDev (retrim up) s

end Sys2Proof.Machine
end

