-- ==== Sys2Proof/Machine/Fsync.lean ====
section
/-! DEFINITION. Frame-sync pins (R77, R78, R80) and the notices of sync groups at the Drovers (R64), with their commands. -/

namespace Sys2Proof.Machine

/-- Offset of a generator's register. -/
def fsoOff (m o : Nat) : Nat := 0x2000 + 0x20 * m + o
def fsoCtlAddr (m : Nat) : Nat := addrOf .hub 0 (fsoOff m 0)
def getFso (d : Dev) (m : Nat) : FsoSt := mapGet {} m d.rx.fso
def updFso (m : Nat) (f : FsoSt → FsoSt) (d : Dev) : Dev := { d with rx := { d.rx with fso := mapUpd {} m f d.rx.fso } }
/-- (DEDUCED, log 33.) -/
def fsoPeriod (d : Dev) (m : Nat) : Nat := (getR d .hub 0 (fsoOff m 4)).toNat
def fsoLocked (d : Dev) (m : Nat) : Bool := getF d .hub 0 (fsoOff m 0) 1 1 == 1

/-- The first START + k * PERIOD after a DT, k any integer (R77). (DEDUCED, log 33.) -/
def firstEdge (start period now : Nat) : Nat := now + 1 + (start + period - (now + 1) % period) % period

/-- The modulus of a period stays away from 0: PERIOD is 2 and above (R80). (DEDUCED, log 33.) -/
def edgeAfter (start period now : Nat) : Nat := firstEdge (start % max 1 period) (max 1 period) now

/-- The level of a FSYNC_OUT pin (R80), none while it is high-impedance (R449). -/
def fsyncPin (m : Nat) (d : Dev) : Option Bool :=
  if hubPins d then some ((getFso d m).active != (getF d .hub 0 (fsoOff m 0) 2 1 == 1)) else none

/-- A write of FSOm.CTL (R77): enabling takes effect from its commit DT; disabling ends the pulse. -/
def fsoCtlEffect (m : Nat) (v : W32) (d : Dev) : Dev :=
  let d1 := storeFields (fsoCtlAddr m) v d
  match (getFso d m).on, fld v 0 1 == 1 with
  | false, true =>
    let next := if fld v 1 1 = 1 then none
      else some (edgeAfter (getPair d1 .hub 0 (fsoOff m 0x10) (fsoOff m 0x14)) (fsoPeriod d1 m) d1.dt)
    updFso m (fun x => { x with on := true, next := next, last := none, heard := none, due := [], pulseEnd := none, active := false }) d1
  | true, false => updFso m (fun x => { x with on := false, next := none, due := [], pulseEnd := none, active := false }) d1
  | _, _ => d1

/-- The generator's next edge: the earlier of its free-running edge and the edges due from the input. -/
def fsoDue (x : FsoSt) : Option Nat :=
  match x.next, x.due with
  | n, [] => n
  | none, t :: _ => some t
  | some a, t :: _ => some (min a t)

/-- FSYNC_OUT_EDGE (R77): an active edge, and the DT at which its pulse ends; a free-running edge is followed by the next. (DESIGN CHOICE, log 4; DEDUCED, log 117.) -/
def fsyncOutEdge (m : Nat) (d : Dev) : Dev :=
  let x := getFso d m
  match fsoDue x with
  | none => d
  | some t =>
    if !x.on || d.dt < t then d
    else
      let wid := getF d .hub 0 (fsoOff m 8) 0 24
      updFso m (fun x =>
        { x with last := some t, active := true, pulseEnd := some (t + wid)
                 due := if x.due.head? = some t then x.due.tail else x.due
                 next := if x.next = some t then some (t + fsoPeriod d m) else x.next }) d

/-- FSYNC_PULSE_END (R77). -/
def fsyncPulseEnd (m : Nat) (d : Dev) : Dev :=
  match (getFso d m).pulseEnd with
  | some t => guardDev (t ≤ d.dt) (updFso m (fun x => { x with active := false, pulseEnd := none })) d
  | none => d

/-- An accepted input edge schedules a locked generator's edge (R77, R78): none too close to the edge before it. -/
def fsoAccept (t m : Nat) (d : Dev) : Dev :=
  let x := getFso d m
  if !x.on || !fsoLocked d m then d
  else
    let e := t + (getR d .hub 0 (fsoOff m 0xC)).toNat
    let prev := match x.due.getLast? with
      | some u => some u
      | none => x.last
    let close := match prev with
      | some u => decide (2 * e < 2 * u + fsoPeriod d m)
      | none => false
    updFso m (fun x => { x with next := none, heard := some t, due := if close then x.due else x.due ++ [e] }) d

/-- FSYNC_IN_EDGE (R78): an edge of the selected polarity whose pulse lasts long enough is stamped and counted. -/
def fsyncInEdge (falling : Bool) (pulse : Nat) (d : Dev) : Dev :=
  let en := getF d .hub 0 0x2200 0 1
  if en = 0 ∨ (getF d .hub 0 0x2200 1 1 == 1) ≠ falling ∨ pulse < getF d .hub 0 0x2200 4 4 then d
  else
    let d1 := setR .hub 0 0x220C ((getR d .hub 0 0x220C).toNat + 1) (setPair .hub 0 0x2204 0x2208 d.dt d)
    (List.range 16).foldl (fun d m => fsoAccept d1.dt m d) d1

/-- An input edge was accepted after a generator's last active edge, within 1.5 * PERIOD of it (R78): one that R77 gave no edge of its
own counts too. -/
def fsoHeard (x : FsoSt) (last period : Nat) : Bool :=
  match x.heard with
  | some u => decide (last < u ∧ 2 * u ≤ 2 * last + 3 * period)
  | none => false

/-- FSYNC_LOST (R78): a locked generator whose input has been silent for 1.5 * PERIOD goes on by itself. -/
def fsyncLost (m : Nat) (d : Dev) : Dev :=
  let x := getFso d m
  match x.last with
  | none => d
  | some t =>
    let p := fsoPeriod d m
    if !x.on || !fsoLocked d m || x.next.isSome || !x.due.isEmpty || fsoHeard x t p || 2 * d.dt < 2 * t + 3 * p then d
    else
      let d1 := updFso m (fun x => { x with next := some (edgeAfter t p (d.dt - 1)) }) (orR .hub 0 (fsoOff m 0) 8 d)
      [0, 1, 2, 3].foldl (fun d q => guardDev (shpAccepts d q 8)
        (fun d => ctlTo q <| post { q := q, src := 168, ev := { typedEvent d q 8 m with dl32 := 0xFFFFFFFF }, dl := noDeadline } d) d) d1

/-! ### Group notices (R64, R181) -/

/-- What a group notice of the hub does to one instance: it is voided, gets its dependencies and EV bit 24, or is not concerned. (DEDUCED, log 133.) -/
def groupNoticeAt (n : GroupNotice) (i : InstRef) (d : Dev) : Dev :=
  let c := getCtx d i.q i.ctx
  match n.ended with
  | some e => guardDev (c.deps.contains e) (voidInst 5 true i) d
  | none =>
    match n.present.find? (fun e => e.1 == c.stream && e.2 == c.index) with
    | none => d
    | some _ =>
      let reads (s : Nat) : Bool := s == c.stream || Config.graphReads c.gen c.gid s
      let gone := (n.present.filter (fun e => reads e.1)).any (fun e =>
        d.outcomes.any (fun o => o.kind != 1 && o.stream == e.1 && o.index == e.2))
      if n.absent.any reads then voidInst 4 true i d
      else if gone then voidInst 5 true i d
      else drvWoken d i (updInst i (fun c =>
        ({ c with ev := c.ev ||| BitVec.ofNat 32 (2 ^ 24)
                  deps := c.deps ++ n.present.filter (fun e => reads e.1 && e.1 != c.stream) } : DrvCtx).wake) d)

/-- A group notice reaches a Drover (R64): every live instance there, and those still to be admitted. (DESIGN CHOICE, log 28.) -/
def groupNotice (q : Nat) (d : Dev) : Dev :=
  match takeFirst (fun n : GroupNotice => n.q == q) d.fab.groups with
  | none => d
  | some (n, rest) =>
    let d1 := { d with fab := { d.fab with groups := rest } }
    let d2 := ((liveInsts d1).filter (fun i => i.q == q)).foldl (fun d i => groupNoticeAt n i d) d1
    guardDev (n.present.any (fun e => noticePending d2 e.1 e.2)) (updDrv q (fun x => { x with groups := x.groups ++ [n] })) d2

/-! ### The commands -/

/-- FSYNC_GENERATOR_ENABLE (R77). -/
def execFsyncGeneratorEnable (by_ : WriteBy) (gen : Fin 16) (v : W32) (s : State) : Out State :=
  onDev (guardDev (fld v 0 1 == 1) (fun d => committedWrite (originOf d by_) (fsoCtlAddr gen.val) v (fsoCtlEffect gen.val v) d)) s

/-- FSYNC_OUT_EDGE (R77). -/
def execFsyncOutEdge (gen : Fin 16) (s : State) : Out State := onDev (fsyncOutEdge gen.val) s

/-- FSYNC_PULSE_END (R77). -/
def execFsyncPulseEnd (gen : Fin 16) (s : State) : Out State := onDev (fsyncPulseEnd gen.val) s

/-- FSYNC_IN_EDGE (R78). -/
def execFsyncInEdge (falling : Bool) (pulse : Nat) (s : State) : Out State := onDev (fsyncInEdge falling pulse) s

/-- FSYNC_LOST (R78). -/
def execFsyncLost (gen : Fin 16) (s : State) : Out State := onDev (fsyncLost gen.val) s

/-- GROUP_NOTICE (R64). -/
def execGroupNotice (q : Fin 4) (s : State) : Out State := onDev (groupNotice q.val) s

end Sys2Proof.Machine
end

