-- ==== Sys2Proof/Machine/VisBase.lean ====
section
/-! DEFINITION. What the vision engines share (R100-R105, R118, R149): contexts, rings seen from a context, status words, reports
and stops. An engine is numbered 8 * quadrant + v, v as in R432; its unit code is 8 + v (R183), its fold member bit 8 + v (R212). -/

namespace Sys2Proof.Machine

def getEng (d : Dev) (e : Nat) : VisEng := mapGet {} e d.eng
def updEng (e : Nat) (f : VisEng → VisEng) (d : Dev) : Dev := { d with eng := mapUpd {} e f d.eng }

/-- Context number of a fold run's member. -/
def foldCtx : Nat := 127

/-- Register block and index of an engine (R117, R148, R170). -/
def visBlk (e : Nat) : Blk × Nat :=
  let q := e / 8
  match e % 8 with
  | 0 => (.pym, 2 * q)
  | 1 => (.pym, 2 * q + 1)
  | 2 => (.wrp, 2 * q)
  | 3 => (.wrp, 2 * q + 1)
  | 4 => (.ste, q)
  | 5 => (.flw, q)
  | 6 => (.fea, 2 * q)
  | _ => (.fea, 2 * q + 1)

/-- Number of contexts (R101, R118, R149). -/
def visCtxs (e : Nat) : Nat := if e % 8 = 4 ∨ e % 8 = 5 then 64 else 32

/-- Unit number of an engine as starts and stops name it (R183). (DEDUCED, log 41.) -/
def visUnit (e : Nat) : Nat := 64 * (e / 8) + 8 + e % 8

/-- A filterable event of an engine's (R432, R436). -/
def visEv (e k n : Nat) (d : Dev) : Dev := pmuEv (e / 8) k n (byMaster 4 (e % 8)) .none d

/-- A counter of an engine, with the event that its tiles written, busy cycles or tiles refined are. -/
def visCnt (e i n : Nat) (d : Dev) : Dev :=
  let d1 := addCnt (visBlk e).1 (visBlk e).2 (0x20 + 4 * i) n d
  match i with
  | 0 => guardDev (decide (e % 8 < 6)) (visEv e 57 n) d1
  | 1 => visEv e 58 n d1
  | 2 => guardDev (e % 8 == 4 || e % 8 == 5) (visEv e 59 n) d1
  | _ => d1
def visErr (e m : Nat) (d : Dev) : Dev := orR (visBlk e).1 (visBlk e).2 0xC m d

/-- Fields of a context's descriptor. -/
def VisCtx.b (x : VisCtx) (o : Nat) : Nat := byteAt x.desc o
def VisCtx.h (x : VisCtx) (o : Nat) : Nat := field x.desc o 2
def VisCtx.w (x : VisCtx) (o : Nat) : Nat := field x.desc o 4

/-! ### Time in a fold run (R219) -/

/-- Fold cycle of a run at an MX cycle: the MX cycles since it began but for the frozen ones, and none past a CHECK step or a gate
that has not let the fold on. -/
def foldCycle (d : Dev) (q f mx : Nat) : Nat :=
  let s := getFold d q f
  let c := mx - s.start - s.frozen
  match s.cap with
  | some k => min c k
  | none => c

/-- A run's fold advances, or is about to end. -/
def foldMoves (d : Dev) (q f : Nat) : Bool := (getFold d q f).run.isSome

/-- The clock by which a context's units end: VX cycles, or in a fold run the VX cycles among its fold cycles. -/
def visNow (d : Dev) (e : Nat) (x : VisCtx) (vx : Nat) : Nat :=
  match x.fold with
  | some f => foldCycle d (e / 8) f (2 * vxAt d vx) / 2
  | none => vxAt d vx

/-- The context's datapaths advance: outside a fold run always, and inside while the fold does. -/
def visMoves (d : Dev) (e : Nat) (x : VisCtx) : Bool :=
  match x.fold with
  | some f => foldMoves d (e / 8) f
  | none => true

/-- The engine runs in a fold, so its other contexts pause (R217). -/
def visInFold (d : Dev) (e : Nat) : Bool := (getVis d e foldCtx).live

/-- The party that a context's accesses are made by (R29, R223). -/
def visParty (d : Dev) (e : Nat) (x : VisCtx) (vx : Nat) : Party :=
  { req := 133 + 8 + e % 8, fold := x.fold.map (fun f => (f, foldCycle d (e / 8) f (2 * vxAt d vx))) }

/-! ### Rings (R100, R102, R209-R211, R222, R339) -/

/-- Count of tile row n of a context's plane in an input ring: from the tail and the rows released, or in a fold run from the
count at which the run began. -/
def inCount (d : Dev) (e : Nat) (x : VisCtx) (r n : Nat) : Nat :=
  let g := getRegion d (e / 8) r
  match x.fold with
  | some f => mapGet 0 r (getFold d (e / 8) f).cons0 + n
  | none => tailFor d (e / 8) r (visRecv e) + 2 * g.n + n - relOf x r

/-- Byte address of tile row n of a context's plane in an input ring. -/
def inAddr (d : Dev) (e : Nat) (x : VisCtx) (r n : Nat) : Nat := slotAddr (getRegion d (e / 8) r) (inCount d e x r n)

/-- Tile row n is in the ring for the context; a fold run does not ask (R222). -/
def inHas (d : Dev) (e : Nat) (x : VisCtx) (r n : Nat) : Bool :=
  x.fold.isSome || (relOf x r ≤ n && n < inRows d e x r)

/-- k slots are free in an output ring; a fold run does not ask. -/
def outFree (d : Dev) (e : Nat) (x : VisCtx) (r k : Nat) : Bool :=
  let g := getRegion d (e / 8) r
  x.fold.isSome || (g.n != 0 && g.fill + k ≤ g.n)

/-- A tile row written and committed; in a fold run the fold's COMMIT step moves H (R214). -/
def putOut (e : Nat) (x : VisCtx) (vx : Nat) (o : VisOut) (d : Dev) : Dev :=
  let q := e / 8
  let g := getRegion d q o.ring
  if g.n = 0 then d
  else
    match x.fold with
    | some f => spadWrite (visParty d e x vx) q (slotAddr g (mapGet 0 o.ring (getFold d q f).prod0 + o.row)) o.bytes d
    | none => produceSlot (visParty d e x vx) q o.ring o.bytes x.starter.inst d

/-- The first bytes of an unfinished tile row: its tiles that were finished, written and not committed (R105). -/
def putPart (e : Nat) (x : VisCtx) (vx tiles : Nat) (o : VisOut) (d : Dev) : Dev :=
  let q := e / 8
  let g := getRegion d q o.ring
  if g.n = 0 || o.tile * tiles = 0 then d
  else
    let a := match x.fold with
      | some f => slotAddr g (mapGet 0 o.ring (getFold d q f).prod0 + o.row)
      | none => slotAddr g g.h
    spadWrite (visParty d e x vx) q a (o.bytes.take (o.tile * tiles)) d

/-- Scratchpad ranges read: whether some of it is uncorrectable, and the counts of the reads (R105, R200). -/
def visTouch (e : Nat) (x : VisCtx) (vx : Nat) (rs : List (Nat × Nat)) (d : Dev) : Bool × Dev :=
  rs.foldl (fun a r =>
    let t := spadRead (visParty a.2 e x vx) (e / 8) r.1 r.2 a.2
    (a.1 || t.2.1, t.2.2)) (false, d)

/-- An element of e bytes in a tile row of a plane (R100): plane p of a picture of a width. -/
def tileElem (d : Dev) (q base width esz plane y x : Nat) : Nat :=
  leNat (spadPeek d q (base + plane * (ceilDiv width 64 * 2048 * esz) + tileOff esz y x) esz)

/-- Bytes of a tile row of a plane. -/
def tileRowBytes (width esz : Nat) : Nat := ceilDiv width 64 * 2048 * esz

/-- An element put into a list by a strict order, after those that it does not precede. (DEDUCED, log 45.) -/
def insertBy {α : Type} (before : α → α → Bool) (a : α) : List α → List α
  | [] => [a]
  | b :: r => if before a b then a :: b :: r else b :: insertBy before a r

/-- A list sorted by a strict order; elements that tie keep their order. -/
def sortBy {α : Type} (before : α → α → Bool) (l : List α) : List α := l.foldl (fun s a => insertBy before a s) []

/-! ### Status, reports and ends (R104, R105, R145, R168) -/

/-- A status word written at the status address plus a word, when the address enables it. -/
def putStatus (e : Nat) (x : VisCtx) (vx addr off word : Nat) (d : Dev) : Dev :=
  guardDev (bit addr 31) (spadWriteWord (visParty d e x vx) (e / 8) (bits addr 0 23 + off) word) d

/-- Offset of the status address in each engine's descriptor. -/
def statusOff (e : Nat) : Nat :=
  match e % 8 with
  | 0 => 0x20
  | 1 => 0x20
  | 2 => 0x44
  | 3 => 0x44
  | 4 => 0x2C
  | 5 => 0x30
  | _ => 0x44

def statusAddr (e : Nat) (x : VisCtx) : Nat := x.w (statusOff e)

/-- The starter signalled (R104): the Drover's tag, or ENGINE_DONE for a start by a write; a fold run's member signals nobody. -/
def visSignal (e : Nat) (x : VisCtx) (r : TagReport → TagReport) (d : Dev) : Dev :=
  if x.fold.isSome then d
  else
    match x.starter with
    | .drover i tag _ => report (r { inst := i, tag := tag, code := 0, remote := i.q != e / 8 }) d
    | .write => post { q := e / 8, src := 136 + e % 8, dl := x.dl,
                       ev := { typedEvent d (e / 8) 1 (bits (statusAddr e x) 0 23) with
                                 dl32 := x.dl % 2 ^ 32, flags := errorFlag (r { inst := ⟨0, 0, 0⟩, tag := 0, code := 0 }).code } } d
    | .none => d

/-- The unit of work of a context in some datapath. -/
def visWork (d : Dev) (e dp : Nat) : Option VisWork := (getEng d e).work.getD dp none
def setWork (e dp : Nat) (w : Option VisWork) (d : Dev) : Dev := updEng e (fun g => { g with work := setAt dp w g.work }) d

/-- A datapath works for a context. -/
def visHas (d : Dev) (e dp c : Nat) : Bool :=
  match visWork d e dp with
  | some w => w.ctx == c
  | none => false

/-- The datapath whose busy cycles CNT1 counts: the only one, the fine or pixel one, or the detect one (R117, R148, R170). -/
def busyDp (e : Nat) : Nat := if e % 8 = 4 ∨ e % 8 = 5 then 1 else 0

/-- CNT1 brought up to a cycle of the unit in progress. -/
def countBusy (e upto : Nat) (d : Dev) : Dev :=
  match visWork d e (busyDp e) with
  | none => d
  | some w =>
    let n := min upto w.due - w.counted
    guardDev (n != 0) (fun d => visCnt e 1 n (setWork e (busyDp e) (some { w with counted := w.counted + n }) d)) d

/-- CNT1 brought up to now, where the unit in progress is a context's. -/
def countBusyOf (e c vx : Nat) (d : Dev) : Dev :=
  guardDev (visHas d e (busyDp e) c) (countBusy e (visNow d e (getVis d e c) vx)) d

/-- The context frees: its unit of work is gone with it. -/
def visFree (e c : Nat) (d : Dev) : Dev :=
  updEng e (fun g => { g with work := g.work.map (fun w => w.filter (fun w => w.ctx != c)) })
    { d with vis := mapSet {} (128 * e + c) {} d.vis }

/-- Tiles of 32 x 32 of a dense plane (R183). -/
def denseTiles (x : VisCtx) : Nat := ceilDiv (clampNat 64 4096 (x.h 2)) 32 * ceilDiv (clampNat 32 4096 (x.h 4)) 32

/-- The first status word of a dense context (R145): truncated rows are not among the rows completed. -/
def denseWord (x : VisCtx) (code : Nat) : Nat :=
  code + 2 ^ 16 * ((x.row - x.level3 / ceilDiv (clampNat 64 4096 (x.h 2)) 32) % 65536) + 2 ^ 32 * (x.entries % 65536)
    + 2 ^ 48 * (x.level3 % 65536)

/-- The first status word of a dense or feature context, or the only one of a pyramid or warp context, with a code. -/
def firstWord (e : Nat) (x : VisCtx) (code : Nat) : Nat :=
  match e % 8 with
  | 0 => code + 2 ^ 16 * (x.row % 65536)
  | 1 => code + 2 ^ 16 * (x.row % 65536)
  | 2 => code + 2 ^ 16 * (x.row % 65536) + 2 ^ 32 * (x.invalid % 2 ^ 32)
  | 3 => code + 2 ^ 16 * (x.row % 65536) + 2 ^ 32 * (x.invalid % 2 ^ 32)
  | 4 => denseWord x code
  | 5 => denseWord x code
  | _ => code + 2 ^ 16 * (x.list.length % 65536) + 2 ^ 32 * (x.matched % 65536) + 2 ^ 48 * satTo 16 (x.full + x.dropped)

/-- The refinement or retry status word with a code. -/
def refineWord (e : Nat) (x : VisCtx) (code : Nat) : Nat :=
  if e % 8 < 6 then code + 2 ^ 16 * (x.refined % 65536) + 2 ^ 32 * (x.refined2 % 65536) + 2 ^ 48 * (x.abandoned % 65536)
  else code + 2 ^ 16 * (x.retried % 65536) + 2 ^ 32 * (x.retryHit % 65536) + 2 ^ 48 * (x.abandoned % 65536)

/-- The context's first pass is over: it awaits a grant, refines or retries. -/
def pastFirst (e : Nat) (x : VisCtx) : Bool :=
  if e % 8 < 4 then false else if e % 8 < 6 then x.phase != 0 else 2 ≤ x.phase

/-- The flags of R190 that a dense or feature context's report carries. -/
def reportFlags (e code : Nat) (x : VisCtx) (refineEnd : Bool) : Nat :=
  (if refineEnd && (code == 4 || x.abandoned != 0) then 32 else 0) + (if !refineEnd && code == 3 then 64 else 0)
    + (if e % 8 ≥ 6 && x.full != 0 then 128 else 0)

/-- A context ends before completion, with code 1 (void) or 2 (uncorrectable) (R105, R145): status, report, end; code 2 makes the
Drover void the instance with reason 3. Input slots of the row in progress are released up to a row per ring. (DEDUCED, log 40.) -/
def visStopCtx (e c code vx : Nat) (held : List (Nat × Nat)) (d : Dev) : Dev :=
  let x := getVis d e c
  if !x.live then d
  else
    let past := pastFirst e x
    let word := if past then refineWord e x code else firstWord e x code
    let d1 := held.foldl (fun d r => releaseBelow e c r.1 r.2 d) (countBusyOf e c vx d)
    let d2 := putStatus e x vx (statusAddr e x) (if past then 1 else 0) word d1
    let d3 := visCnt e 4 1 (guardDev (code == 2) (visErr e 1) d2)
    visFree e c (visSignal e x (fun r =>
      { r with code := code, void := if code = 2 then some 3 else none, flags := reportFlags e code x past }) d3)

/-- The unit that a datapath has finished by now, with its context. -/
def visDone (d : Dev) (e dp vx : Nat) : Option (VisWork × VisCtx) :=
  match visWork d e dp with
  | none => none
  | some w =>
    let x := getVis d e w.ctx
    if x.live && visMoves d e x && w.due ≤ visNow d e x vx then some (w, x) else none

end Sys2Proof.Machine
end

