-- ==== Sys2Proof/Machine/Ste.lean ====
section
/-! DEFINITION. The stereo engine (R119-R129, R135-R139, R142, R143, R146): census, path costs, the coarse and fine passes and the
refinement of one tile. -/

namespace Sys2Proof.Machine

def stePred (x : VisCtx) : Bool := bits (x.b 0) 0 2 == 1
def steLr (x : VisCtx) : Bool := bit (x.b 0) 2
def visInv (x : VisCtx) : Bool := bit (x.b 0) 3
def visFlags (x : VisCtx) : Bool := bit (x.b 0) 4
def denseW (x : VisCtx) : Nat := clampNat 64 4096 (x.h 2)
def denseH (x : VisCtx) : Nat := clampNat 32 4096 (x.h 4)
def steDmin (x : VisCtx) : Nat := min 1536 (x.h 6) / 4 * 4
def steRing (x : VisCtx) (i : Nat) : Nat := x.b (8 + i)
def steOut (x : VisCtx) (i : Nat) : Nat := x.b (0x10 + i)
def steP1 (x : VisCtx) : Nat := x.b 0x18
def steP2 (x : VisCtx) : Nat := if x.b 0x19 ≤ x.b 0x18 then x.b 0x18 + 1 else x.b 0x19
def steP1c (x : VisCtx) : Nat := x.b 0x1A
def steP2c (x : VisCtx) : Nat := if x.b 0x1B ≤ x.b 0x1A then x.b 0x1A + 1 else x.b 0x1B
def steTex (x : VisCtx) : Nat := x.h 0x1C
def steLrTh (x : VisCtx) : Nat := x.b 0x1E
def steConf (x : VisCtx) : Nat := x.b 0x1F
def steWiden (x : VisCtx) : Nat := x.h 0x20
def steListMax (x : VisCtx) : Nat := min 4096 (x.h 0x22)
/-- Size at quarter resolution: level 2 of a factor-2 pyramid (R127). -/
def quarter (n : Nat) : Nat := ceilDiv (ceilDiv n 2) 2
def denseRows (x : VisCtx) : Nat := ceilDiv (denseH x) 32
def steCoarseRows (x : VisCtx) : Nat := ceilDiv (quarter (denseH x)) 32

/-- A field of the descriptor lies outside its range (R103, R126, R146). -/
def steClamped (x : VisCtx) : Bool :=
  2 ≤ bits (x.b 0) 0 2 || x.h 2 != denseW x || x.h 4 != denseH x || x.h 6 != steDmin x || x.b 0x19 != steP2 x || x.b 0x1B != steP2c x
    || x.h 0x22 != steListMax x

/-! ### Census and cost (R125) -/

/-- A view: its size, its pixels, and which of them are source-bad. -/
structure View where
  w : Nat
  h : Nat
  px : Nat → Nat → Nat
  bad : Nat → Nat → Bool

/-- The census of a pixel over a window of 2 rx + 1 by 2 ry + 1, line by line with the centre skipped; a neighbour outside the
view or source-bad gives 0. The first neighbour is the lowest bit. -/
def census (v : View) (rx ry : Nat) (y x : Nat) : Nat :=
  let c := v.px y x
  ((List.range ((2 * rx + 1) * (2 * ry + 1))).foldl (fun a k =>
    let dx : Int := ((k % (2 * rx + 1) : Nat) : Int) - rx
    let dy : Int := ((k / (2 * rx + 1) : Nat) : Int) - ry
    if dx = 0 ∧ dy = 0 then a
    else
      let nx := (x : Int) + dx
      let ny := (y : Int) + dy
      let one := decide (0 ≤ nx ∧ nx < v.w ∧ 0 ≤ ny ∧ ny < v.h) && !v.bad ny.toNat nx.toNat && decide (v.px ny.toNat nx.toNat < c)
      (a.1 + b2n one * 2 ^ a.2, a.2 + 1)) (0, 0)).1

/-- The Hamming distance of two censuses. -/
def hamming (a b : Nat) : Nat := popCount 64 (Nat.xor a b)

/-- The population variance of a window lies below a threshold (R129, R133): only pixels inside the view count. -/
def flatWindow (v : View) (rx ry y x th : Nat) : Bool :=
  let s := (List.range ((2 * rx + 1) * (2 * ry + 1))).foldl (fun (a : Nat × Nat × Nat) k =>
    let nx := (x : Int) + ((k % (2 * rx + 1) : Nat) : Int) - rx
    let ny := (y : Int) + ((k / (2 * rx + 1) : Nat) : Int) - ry
    if 0 ≤ nx ∧ nx < v.w ∧ 0 ≤ ny ∧ ny < v.h then
      let p := v.px ny.toNat nx.toNat
      (a.1 + 1, a.2.1 + p, a.2.2 + p * p)
    else a) (0, 0, 0)
  s.1 * s.2.2 - s.2.1 * s.2.1 < th * s.1 * s.1

/-- The cost of a disparity (R125); 63 where the right pixel would lie left of the view. -/
def steCost (l : Nat) (right : Nat → Nat) (x disp : Nat) : Nat := if x < disp then 63 else hamming l (right (x - disp))

/-! ### Path costs (R126) -/

/-- The costs L of a path at a pixel, from the pixel's costs over its window, and the path's previous pixel. -/
def pathStep (p1 p2 lo : Nat) (costs : List Nat) (prev : Option (Nat × List Nat)) : List Nat :=
  match prev with
  | none => costs
  | some (plo, pl) =>
    let m := pl.foldl min (pl.getD 0 0)
    let term (dd : Nat) : Nat := if plo ≤ dd && dd < plo + pl.length then pl.getD (dd - plo) 0 else m + p2
    (List.range costs.length).map (fun k =>
      let dd := lo + k
      let below := if dd = 0 then m + p2 else term (dd - 1)
      costs.getD k 0 + min (min (term dd) (below + p1)) (min (term (dd + 1) + p1) (m + p2)) - m)

/-- A pixel with its window and the sums S over the paths that reach it, saturating. -/
structure CostPx where
  lo : Nat
  s : List Nat
  deriving DecidableEq, Repr

/-- The sums of lists of one length. -/
def sumLists (ls : List (List Nat)) : List Nat :=
  (List.range ((ls.getD 0 []).length)).map (fun k => satTo 16 (ls.foldl (fun t l => t + l.getD k 0) 0))

/-- One line of four paths, from the left, the upper left, above and the upper right (R126): the line's path costs for the next
line, and the sums. -/
def costLine (p1 p2 : Nat) (w : Nat) (win : Nat → Nat × List Nat) (prev : List PathPx) : List PathPx × List CostPx :=
  let r := (List.range w).foldl (fun (a : List PathPx × List CostPx × Option (Nat × List Nat)) x =>
    let (lo, cs) := win x
    let at_ (i : Nat) (f : PathPx → List Nat) : Option (Nat × List Nat) := (prev[i]?).map (fun p => (p.lo, f p))
    let left := pathStep p1 p2 lo cs a.2.2
    let ul := pathStep p1 p2 lo cs (if x = 0 then none else at_ (x - 1) (·.ul))
    let up := pathStep p1 p2 lo cs (at_ x (·.up))
    let ur := pathStep p1 p2 lo cs (at_ (x + 1) (·.ur))
    (a.1 ++ [{ lo := lo, ul := ul, up := up, ur := ur }], a.2.1 ++ [{ lo := lo, s := sumLists [left, ul, up, ur] }], some (lo, left)))
    ([], [], none)
  (r.1, r.2.1)

/-! ### The best disparity (R123, R127-R129) -/

/-- The best of a pixel's window (R128): lowest sum, ties to the smaller disparity; a candidate left of the view is none. (DESIGN CHOICE, log 42.) -/
def steBest (x : Nat) (c : CostPx) : Option (Nat × Nat) :=
  (List.range c.s.length).foldl (fun b k =>
    if x < c.lo + k then b
    else match b with
      | none => some (c.lo + k, c.s.getD k 0)
      | some (_, v) => if c.s.getD k 0 < v then some (c.lo + k, c.s.getD k 0) else b) none

/-- The confidence of a best cost and the best cost at least two positions away (R123). -/
def confOf (s1 : Nat) (s2 : Option Nat) : Nat :=
  match s2 with
  | none => 0
  | some 0 => 0
  | some b => min 255 (256 * (b - s1) / b)

def steConfAt (c : CostPx) (best s1 : Nat) : Nat :=
  confOf s1 ((List.range c.s.length).foldl (fun b k =>
    if absDiff (c.lo + k) best < 2 then b
    else match b with
      | none => some (c.s.getD k 0)
      | some v => some (min v (c.s.getD k 0))) none)

/-- The parabola's offset over the two neighbours of a best, in 1/n, rounded ties to even and clamped to a half (R129). -/
def parabola (n : Nat) (lo mid hi : Int) : Int :=
  let den := 2 * (lo - 2 * mid + hi)
  let num := (n : Int) * (lo - hi)
  if den = 0 then 0
  else clampInt (-((n / 2 : Nat) : Int)) ((n / 2 : Nat) : Int) (if 0 < den then roundDivInt num den.toNat else roundDivInt (-num) (-den).toNat)

/-- The sub-pixel disparity element of a best inside its window (R129). -/
def steElem (dmin : Nat) (c : CostPx) (best : Nat) : Nat :=
  let k := best - c.lo
  if best = dmin ∨ k = 0 ∨ c.s.length ≤ k + 1 then 32 * best
  else
    let g (j : Nat) : Int := ((c.s.getD j 0 : Nat) : Int)
    ((32 * (best : Int)) + parabola 32 (g (k - 1)) (g k) (g (k + 1))).toNat

/-- The best lies on a window edge other than D_MIN (R128). -/
def steEdge (dmin : Nat) (c : CostPx) (best : Nat) : Bool :=
  best != dmin && (best == c.lo || best + 1 == c.lo + c.s.length)

/-- The right disparity at a column (R129): over the line's pixels, from a column on, whose window holds it. -/
def rightBest (x0 : Nat) (line : List CostPx) (xr : Nat) : Option Nat :=
  ((List.range line.length).foldl (fun (b : Option (Nat × Nat)) k =>
    let x := x0 + k
    if x < xr then b
    else
      match (line)[k]? with
      | none => b
      | some c =>
        let dd := x - xr
        if dd < c.lo || c.lo + c.s.length ≤ dd then b
        else
          let s := c.s.getD (dd - c.lo) 0
          match b with
          | none => some (dd, s)
          | some (_, v) => if s < v then some (dd, s) else b) none).map (·.1)

/-- An open element (R120): any value that the engine may emit, so none of 0xFFF0 to 0xFFFA. (DESIGN CHOICE, log 42.) -/
def openDisparity (v : Nat) : Nat := if 0xFFF0 ≤ v ∧ v ≤ 0xFFFA then v - 16 else v

/-- An element and confidence of one pixel (R120, R122, R123, R128, R129); x0 is the line's first column. -/
def stePixel (dmin : Nat) (lr : Option Nat) (left right : View) (tex x0 y x : Nat) (line : List CostPx) : Nat × Nat :=
  match (line)[x - x0]? with
  | none => (0xFFFC, 0)
  | some c =>
    match steBest x c with
    | none =>
      if left.bad y x then (0xFFFC, 0)
      else if flatWindow left 4 3 y x tex then (0xFFFF, 0)
      else (openDisparity (Config.noCandidate 0 [y, x]).toNat, 0)
    | some (d1, s1) =>
      if left.bad y x || right.bad y (x - d1) then (0xFFFC, 0)
      else if flatWindow left 4 3 y x tex then (0xFFFF, 0)
      else if steEdge dmin c d1 then (0xFFFD, 0)
      else
        let occl := match lr with
          | none => false
          | some th => match rightBest x0 line (x - d1) with
            | none => true
            | some dr => decide (th < absDiff d1 dr)
        if occl then (0xFFFE, 0) else (steElem dmin c d1, steConfAt c d1 s1)

/-! ### Passes (R127, R128, R135, R142, R143) -/

/-- A U8 pixel of a view in a ring, and whether it is source-bad (R119). -/
def ringView (d : Dev) (e : Nat) (x : VisCtx) (ring w h : Nat) (flags : Option Nat) : View :=
  let px (y c : Nat) : Nat := tileElem d (e / 8) (inAddr d e x ring (y / 32)) w 1 0 y c
  { w := w, h := h, px := px
    bad := fun y c => (visInv x && px y c == 0xFF) || (match flags with
      | some r => bits (tileElem d (e / 8) (inAddr d e x r (y / 32)) w 1 0 y c) 0 2 != 0
      | none => false) }

/-- The coarse unit (R127): 32 lines at quarter resolution; the coarse plane's new lines and the path costs. -/
def steCoarse (d : Dev) (e : Nat) (x : VisCtx) : VisCtx :=
  let w := quarter (denseW x)
  let h := quarter (denseH x)
  let left := ringView d e x (steRing x 2) w h none
  let right := ringView d e x (steRing x 3) w h none
  let d0 := steDmin x / 4
  let lines := (List.range (min 32 (h - 32 * x.rowA))).foldl (fun (a : List PathPx × List (List Nat)) k =>
    let y := 32 * x.rowA + k
    let rc := (List.range w).map (fun c => census right 4 3 y c)
    let win (c : Nat) : Nat × List Nat :=
      let l := census left 4 3 y c
      (d0, (List.range 64).map (fun j => steCost l (fun i => rc.getD i 0) c (d0 + j)))
    let r := costLine (steP1c x) (steP2c x) w win a.1
    let out := (List.range w).map (fun c =>
      match (r.2[c]?).bind (fun px => (steBest c px).map (fun b => (px, b))) with
      | none =>
        if left.bad y c then 0xFFFC
        else if flatWindow left 4 3 y c (steTex x) then 0xFFFF
        else 0xFFF0 + (Config.noCandidate 7 [y, c]).toNat % 16
      | some (px, d1, _) =>
        if left.bad y c || right.bad y (c - d1) then 0xFFFC
        else if flatWindow left 4 3 y c (steTex x) then 0xFFFF
        else if steEdge d0 px d1 then 0xFFFD
        else d1)
    (r.1, a.2 ++ [out])) (x.pathA, [])
  { x with rowA := x.rowA + 1, pathA := lines.1, lines := [x.lines.getD 0 [] ++ lines.2] }

/-- The nearest valid coarse value at a column or to its left (R127). -/
def coarseAt (line : List Nat) : Nat → Option Nat
  | 0 => let v := line.getD 0 0xFFFC
    if v < 0xFFF0 then some v else none
  | k + 1 => let v := line.getD (k + 1) 0xFFFC
    if v < 0xFFF0 then some v else coarseAt line k

/-- The prediction of a pixel (R127). -/
def stePredict (d : Dev) (e : Nat) (x : VisCtx) (y c : Nat) : Nat :=
  let r := steRing x 4
  let sup := if stePred x && inHas d e x r (y / 32) then
      some (tileElem d (e / 8) (inAddr d e x r (y / 32)) (denseW x) 2 0 y c) else none
  let coarse := match coarseAt ((x.lines.getD 0 []).getD (y / 4) []) (c / 4) with
    | some v => 4 * v
    | none => steDmin x + 32
  match sup with
  | some v => if v < 0xFFF0 then (v + 16) / 32 else coarse
  | none => coarse

/-- The low end of a window of n disparities round a prediction, shifted to lie inside the range (R128). -/
def windowLow (dmin n p : Nat) : Nat := clampNat dmin (dmin + 256 - n) (p - n / 2)

/-- What the fine unit gives: the row's elements and confidences by line, and the predictions. -/
structure DenseRow where
  elems : List (List Nat)
  confs : List (List Nat)
  preds : List (List Nat)
  path : List PathPx

/-- The fine unit (R128, R129). -/
def steFine (d : Dev) (e : Nat) (x : VisCtx) : DenseRow :=
  let w := denseW x
  let h := denseH x
  let left := ringView d e x (steRing x 0) w h (if visFlags x then some (steRing x 5) else none)
  let right := ringView d e x (steRing x 1) w h (if visFlags x then some (steRing x 6) else none)
  (List.range (min 32 (h - 32 * x.row))).foldl (fun (a : DenseRow) k =>
    let y := 32 * x.row + k
    let rc := (List.range w).map (fun c => census right 4 3 y c)
    let ps := (List.range w).map (fun c => stePredict d e x y c)
    let win (c : Nat) : Nat × List Nat :=
      let l := census left 4 3 y c
      let lo := windowLow (steDmin x) 64 (ps.getD c 0)
      (lo, (List.range 64).map (fun j => steCost l (fun i => rc.getD i 0) c (lo + j)))
    let r := costLine (steP1 x) (steP2 x) w win a.path
    let out := (List.range w).map (fun c =>
      stePixel (steDmin x) (if steLr x then some (steLrTh x) else none) left right (steTex x) 0 y c r.2)
    { elems := a.elems ++ [out.map (·.1)], confs := a.confs ++ [out.map (·.2)], preds := a.preds ++ [ps], path := r.1 })
    { elems := [], confs := [], preds := [], path := x.pathB }

/-- The lower median of a list, 0 when empty (R136). -/
def lowerMedian (l : List Nat) : Nat := (sortNat l).getD ((l.length - 1) / 2) 0

/-- The part of a row's lines that a 32-pixel tile covers. -/
def tilePart (ls : List (List Nat)) (tx : Nat) : List Nat := ls.flatMap (fun l => (l.drop (32 * tx)).take 32)

/-- Low end of the window that a list entry names for a centre and level (R136). -/
def entryLow (dmin level c : Nat) : Nat := windowLow dmin (64 * level) c

/-- The tiles of a fine row (R135, R136). -/
def steTiles (x : VisCtx) (r : DenseRow) : List VisTile :=
  (List.range (ceilDiv (denseW x) 32)).map (fun tx =>
    let es := tilePart r.elems tx
    let cs := tilePart r.confs tx
    let bad := ((es.zip cs).filter (fun p => p.1 != 0xFFFC && p.1 != 0xFFFF && p.2 < steConf x)).length
    { tx := tx, ty := x.row, bad := bad, ranges := (es.filter (· == 0xFFFD)).length, a := lowerMedian (tilePart r.preds tx), b := 0 })

/-- The tile rows of a plane of elements and of its confidences and levels (R124). -/
def denseOuts (x : VisCtx) (rings : Nat × Nat × Nat) (esz : Nat) (elem conf : Nat → Nat → Nat) (level : Nat) : List VisOut :=
  let w := denseW x
  let h := denseH x
  [ { ring := rings.1, row := x.row, bytes := tileRow w h x.row (fun y c => leBytes esz (elem y c)), tile := 2048 * esz },
    { ring := rings.2.1, row := x.row, bytes := tileRow w h x.row (fun y c => leBytes 1 (conf y c)), tile := 2048 },
    { ring := rings.2.2, row := x.row, bytes := List.replicate (ceilDiv w 32) (BitVec.ofNat 8 level), tile := 2 } ]

/-- Value (y, c) of a row's lines. -/
def rowAt (x : VisCtx) (ls : List (List Nat)) (y c : Nat) : Nat := (ls.getD (y - 32 * x.row) []).getD c 0

def steOuts (x : VisCtx) (r : DenseRow) : List VisOut :=
  denseOuts x (steOut x 0, steOut x 1, steOut x 2) 2 (rowAt x r.elems) (rowAt x r.confs) 0

/-- A coarse or a fine unit may begin (R142). -/
def steCoarseReady (d : Dev) (e : Nat) (x : VisCtx) : Bool :=
  let m := min (x.rowA + 1) (steCoarseRows x - 1)
  x.rowA < steCoarseRows x && inHas d e x (steRing x 2) m && inHas d e x (steRing x 3) m
def steFineReady (d : Dev) (e : Nat) (x : VisCtx) : Bool :=
  let m := min (x.row + 1) (denseRows x - 1)
  x.row < denseRows x && !x.trunc && x.row / 4 < x.rowA && inHas d e x (steRing x 0) m && inHas d e x (steRing x 1) m
    && (!visFlags x || (inHas d e x (steRing x 5) m && inHas d e x (steRing x 6) m))
    && [0, 1, 2].all (fun i => outFree d e x (steOut x i) 1)

/-- Costs of the units in VX cycles (R143). -/
def steCoarseCost (x : VisCtx) : Nat := 64 * ceilDiv (quarter (denseW x)) 4 + 32
def denseCost (x : VisCtx) : Nat := 32 * ceilDiv (denseW x) 2 + 32

/-- Tile rows r - 1 to r + 1 of a plane, as scratchpad ranges. -/
def rowsRound (d : Dev) (e : Nat) (x : VisCtx) (ring w rows r : Nat) : List (Nat × Nat) :=
  ((List.range (min (r + 1) (rows - 1) + 1)).filter (fun k => r ≤ k + 1)).map (fun k => (inAddr d e x ring k, tileRowBytes w 1))

/-- Scratchpad that the units read. -/
def steCoarseReads (d : Dev) (e : Nat) (x : VisCtx) : List (Nat × Nat) :=
  let w := quarter (denseW x)
  rowsRound d e x (steRing x 2) w (steCoarseRows x) x.rowA ++ rowsRound d e x (steRing x 3) w (steCoarseRows x) x.rowA
def steFineReads (d : Dev) (e : Nat) (x : VisCtx) : List (Nat × Nat) :=
  let one (i : Nat) := rowsRound d e x (steRing x i) (denseW x) (denseRows x) x.row
  one 0 ++ one 1 ++ (if visFlags x then one 5 ++ one 6 else [])
    ++ (if stePred x && inHas d e x (steRing x 4) x.row then
          [(inAddr d e x (steRing x 4) x.row, tileRowBytes (denseW x) 2)] else [])

/-! ### Refinement (R137-R139) -/

/-- A patch's header (R137): tile, level, window or vector; a level outside 1 and 2 acts as 1. -/
def patchLevel (p : List Byte) : Nat := if byteAt p 4 = 2 then 2 else 1

/-- A view made of a patch's region: its origin in the frame, its stride, and the frame's size. -/
def patchView (x : VisCtx) (p : List Byte) (off stride : Nat) (ox oy : Int) (w h : Nat) : View :=
  let px (y c : Nat) : Nat := byteAt p (off + (((y : Int) - oy) * (stride : Int) + ((c : Int) - ox)).toNat)
  { w := w, h := h, px := px, bad := fun y c => visInv x && px y c == 0xFF }

/-- The eight-path sums over a region of columns x0 to x1 and lines y0 to y1, as lines of the region: the four paths of
R126 downwards, and their opposites as the same paths over the region turned round. -/
def costRegion (p1 p2 lo n x0 x1 y0 y1 : Nat) (cost : Nat → Nat → Nat → Nat) : List (List CostPx) :=
  let w := x1 - x0
  let h := y1 - y0
  let pass (at_ : Nat → Nat → Nat × Nat) : List (List CostPx) :=
    ((List.range h).foldl (fun (a : List PathPx × List (List CostPx)) j =>
      let win (i : Nat) : Nat × List Nat := (lo, (List.range n).map (fun k => cost (at_ j i).1 (at_ j i).2 (lo + k)))
      let r := costLine p1 p2 w win a.1
      (r.1, a.2 ++ [r.2])) ([], [])).2
  let fwd := pass (fun j i => (y0 + j, x0 + i))
  let bwd := pass (fun j i => (y1 - 1 - j, x1 - 1 - i))
  (List.range h).map (fun j => (List.range w).map (fun i =>
    let f := ((fwd.getD j []).getD i { lo := lo, s := [] }).s
    let b := ((bwd.getD (h - 1 - j) []).getD (w - 1 - i) { lo := lo, s := [] }).s
    { lo := lo, s := sumLists [f, b] }))

/-- The output patch of a refined tile (R137): header, result and confidence. -/
def outPatch (p : List Byte) (level : Nat) (esz : Nat) (elem conf : Nat → Nat → Nat) : List Byte :=
  p.take 4 ++ leBytes 1 level ++ List.replicate 59 0#8
    ++ (List.range 32).flatMap (fun y => (List.range 32).flatMap (fun c => leBytes esz (elem y c)))
    ++ (List.range 32).flatMap (fun y => (List.range 32).flatMap (fun c => leBytes 1 (conf y c)))

/-- A tile refined from its patch (R139): the output patch. -/
def steRefine (x : VisCtx) (p : List Byte) : List Byte :=
  let level := patchLevel p
  let n := 64 * level
  let tx := field p 0 2
  let ty := field p 2 2
  let lo := field p 6 2
  let w := denseW x
  let h := denseH x
  let left := patchView x p 0x40 64 (32 * (tx : Int) - 12) (32 * (ty : Int) - 11) w h
  let right := patchView x p 0xDC0 192 (32 * (tx : Int) - 12 - (lo : Int) - (n : Int) + 1) (32 * (ty : Int) - 11) w h
  let x0 := 32 * tx - 8
  let x1 := min w (32 * tx + 40)
  let y0 := 32 * ty - 8
  let y1 := min h (32 * ty + 40)
  let cost (y c dd : Nat) : Nat := steCost (census left 4 3 y c) (fun i => census right 4 3 y i) c dd
  let sums := costRegion (steP1 x) (steP2 x) lo n x0 x1 y0 y1 cost
  let res (j i : Nat) : Nat × Nat :=
    let y := min (h - 1) (32 * ty + j)
    let c := min (w - 1) (32 * tx + i)
    if field p (0x3640 + 2 * (32 * j + i)) 2 = 0xFFFC then (0xFFFC, 0)
    else stePixel (steDmin x) (if steLr x then some (steLrTh x) else none) left right (steTex x) x0 y c (sums.getD (y - y0) [])
  outPatch p level 2 (fun j i => (res j i).1) (fun j i => (res j i).2)

end Sys2Proof.Machine
end

