-- ==== Sys2Proof/Machine/Flw.lean ====
section
/-! DEFINITION. The flow engine (R119, R121, R130-R137, R139, R142, R143, R147): block and pixel passes, the change mask, and the
refinement of one tile. -/

namespace Sys2Proof.Machine

def flwPred (x : VisCtx) : Nat := bits (x.b 0) 0 2 % 3
def flwFb (x : VisCtx) : Bool := bit (x.b 0) 2
def flwRing (x : VisCtx) (i : Nat) : Nat := x.b (8 + i)
def flwOut (x : VisCtx) (i : Nat) : Nat := x.b (0x10 + i)
def flwTex (x : VisCtx) : Nat := x.h 0x18
def flwFbTh (x : VisCtx) : Nat := x.b 0x1A
def flwConf (x : VisCtx) : Nat := x.b 0x1B
def flwWiden (x : VisCtx) : Nat := x.h 0x1C
def flwListMax (x : VisCtx) : Nat := min 4096 (x.h 0x1E)
def flwBlockRows (x : VisCtx) : Nat := ceilDiv (denseH x) 32
def flwBlocksAcross (x : VisCtx) : Nat := ceilDiv (denseW x) 32

/-- A field of the descriptor lies outside its range (R103, R147). -/
def flwClamped (x : VisCtx) : Bool :=
  bits (x.b 0) 0 2 == 3 || x.h 2 != denseW x || x.h 4 != denseH x || x.h 0x1E != flwListMax x

/-- A flow element (R121): the vector's components in 1/32, or none with the reason. -/
def flowOf (n : Nat) : Option (Int × Int) :=
  if bits n 0 16 = 0x8000 then none else some (toSigned 16 (bits n 0 16), toSigned 16 (bits n 16 16))
def flowElem (x y : Int) : Nat := ofSigned 16 x + 65536 * ofSigned 16 y
def flowCode (r : Nat) : Nat := 0x8000 + 65536 * r

/-- A signed number divided and rounded to the nearest integer, ties away from zero (R130). -/
def roundAway (n : Int) (k : Nat) : Int :=
  if n < 0 then -((((-n).toNat * 2 + k) / (2 * k) : Nat) : Int) else (((n.toNat * 2 + k) / (2 * k) : Nat) : Int)

/-- The quarter-resolution prediction of a block (R130). -/
def blockPred (d : Dev) (e : Nat) (x : VisCtx) (bx by_ : Nat) : Int × Int :=
  let y := 32 * by_ + 16
  let c := 32 * bx + 16
  if flwPred x = 0 || decide (denseH x ≤ y ∨ denseW x ≤ c) || !inHas d e x (flwRing x 4) (y / 32) then (0, 0)
  else match flowOf (tileElem d (e / 8) (inAddr d e x (flwRing x 4) (y / 32)) (denseW x) 4 0 y c) with
    | some (vx, vy) => (roundAway vx 128, roundAway vy 128)
    | none => (0, 0)

/-- A candidate of a search (R131): its displacement from the prediction, and its cost, or none when it is excluded. -/
structure FlowCand where
  u : Int
  v : Int
  cost : Option Nat
  deriving DecidableEq, Repr

/-- Candidate a goes before candidate b: lower cost, then smaller |u| + |v|, then smaller v, then smaller u (R131). -/
def candBefore (a b : FlowCand) (ca cb : Nat) : Bool :=
  let na := a.u.natAbs + a.v.natAbs
  let nb := b.u.natAbs + b.v.natAbs
  if ca ≠ cb then ca < cb else if na ≠ nb then na < nb else if a.v ≠ b.v then a.v < b.v else a.u < b.u

/-- The best candidate with its cost. (DESIGN CHOICE, log 42.) -/
def bestCand (cs : List FlowCand) : Option (FlowCand × Nat) :=
  cs.foldl (fun b c =>
    match c.cost, b with
    | none, _ => b
    | some k, none => some (c, k)
    | some k, some (o, ok) => if candBefore c o k ok then some (c, k) else b) none

/-- The confidence of a best among candidates at least two positions away, by Chebyshev distance (R123). -/
def candConf (cs : List FlowCand) (best : FlowCand) (s1 : Nat) : Nat :=
  confOf s1 (cs.foldl (fun b c =>
    match c.cost with
    | none => b
    | some k =>
      if max (c.u - best.u).natAbs (c.v - best.v).natAbs < 2 then b
      else match b with
        | none => some k
        | some m => some (min m k)) none)

/-- The candidates of a window of ± rx by ± ry, line by line. -/
def candWindow (rx ry : Nat) (cost : Int → Int → Option Nat) : List FlowCand :=
  (List.range ((2 * rx + 1) * (2 * ry + 1))).map (fun k =>
    let u : Int := ((k % (2 * rx + 1) : Nat) : Int) - rx
    let v : Int := ((k / (2 * rx + 1) : Nat) : Int) - ry
    { u := u, v := v, cost := cost u v })

/-- The lines held hold every line of the view that the 5 x 5 census of a line needs (R125, R131). -/
def heldCensus (h : Nat) (held : Nat → Bool) (y : Nat) : Bool :=
  (List.range 5).all (fun k => y + k < 2 || h + 2 ≤ y + k || held (y + k - 2))

/-- The matching cost of a block of pixels of one view against another displaced by -g (R131): none where a pixel needed lies
outside the view or outside the lines held. -/
def blockCost (a b : View) (held : Nat → Bool) (y0 x0 : Nat) (g : Int × Int) : Option Nat :=
  (List.range 64).foldl (fun t k =>
    let y := y0 + k / 8
    let x := x0 + k % 8
    if a.h ≤ y ∨ a.w ≤ x then t
    else
      let px := (x : Int) - g.1
      let py := (y : Int) - g.2
      match t with
      | none => none
      | some s =>
        if 0 ≤ px ∧ px < b.w ∧ 0 ≤ py ∧ py < b.h ∧ heldCensus b.h held py.toNat then
          some (s + hamming (census a 2 2 y x) (census b 2 2 py.toNat px.toNat))
        else none) (some 0)

/-- The candidate is excluded for lack of rows alone (R131). -/
def lacksRows (a b : View) (held : Nat → Bool) (y0 x0 : Nat) (g : Int × Int) : Bool :=
  (blockCost a b held y0 x0 g).isNone && (blockCost a b (fun _ => true) y0 x0 g).isSome

/-- The lines of a plane that a ring holds for the context. -/
def heldLines (d : Dev) (e : Nat) (x : VisCtx) (ring : Nat) (y : Nat) : Bool := inHas d e x ring (y / 32)

/-- A block matched (R131): its vector 4g with range, confidence and backward vector, and the candidates excluded for lack of rows. -/
def flwBlock (d : Dev) (e : Nat) (x : VisCtx) (cur prev : View) (bx by_ : Nat) : FlowBlk × Nat :=
  let q := blockPred d e x bx by_
  let heldP := heldLines d e x (flwRing x 3)
  let heldC := heldLines d e x (flwRing x 2)
  let cs := candWindow 24 16 (fun u v => blockCost cur prev heldP (8 * by_) (8 * bx) (q.1 + u, q.2 + v))
  let lost := (cs.filter (fun c => lacksRows cur prev heldP (8 * by_) (8 * bx) (q.1 + c.u, q.2 + c.v))).length
  let fwd : FlowBlk := match bestCand cs with
    | some (c, s1) => { x := 4 * (q.1 + c.u), y := 4 * (q.2 + c.v), range := c.u.natAbs == 24 || c.v.natAbs == 16, conf := candConf cs c s1 }
    | none => { x := (Config.noCandidate 1 [by_, bx]).toInt, y := (Config.noCandidate 2 [by_, bx]).toInt, range := false, conf := 0 }
  if !flwFb x then (fwd, lost)
  else
    let bs := candWindow 24 16 (fun u v => blockCost prev cur heldC (8 * by_) (8 * bx) (u - q.1, v - q.2))
    let lostB := (bs.filter (fun c => lacksRows prev cur heldC (8 * by_) (8 * bx) (c.u - q.1, c.v - q.2))).length
    match bestCand bs with
    | some (c, _) => ({ fwd with bx := 4 * (c.u - q.1), by_ := 4 * (c.v - q.2) }, lost + lostB)
    | none => ({ fwd with bx := (Config.noCandidate 3 [by_, bx]).toInt, by_ := (Config.noCandidate 4 [by_, bx]).toInt }, lost + lostB)

/-- The block unit (R131): the next row of blocks, and the exclusions for lack of rows. -/
def flwBlocks (d : Dev) (e : Nat) (x : VisCtx) : VisCtx × Nat :=
  let w := quarter (denseW x)
  let h := quarter (denseH x)
  let cur := ringView d e x (flwRing x 2) w h none
  let prev := ringView d e x (flwRing x 3) w h none
  let row := (List.range (flwBlocksAcross x)).map (fun bx => flwBlock d e x cur prev bx x.rowA)
  ({ x with rowA := x.rowA + 1, blocks := x.blocks ++ [row.map (·.1)] }, row.foldl (fun t b => t + b.2) 0)

/-- The start vector of a pixel (R132): bilinear over block vectors with centres n apart, edges replicated. -/
def startVector (n : Nat) (across down : Nat) (vec : Nat → Nat → Int × Int) (y x : Nat) : Int × Int :=
  let X : Int := 2 * (x : Int) - ((n : Int) - 1)
  let Y : Int := 2 * (y : Int) - ((n : Int) - 1)
  let m : Int := 2 * (n : Int)
  let i := X / m
  let j := Y / m
  let a := X % m
  let b := Y % m
  let at_ (i j : Int) : Int × Int := vec (clampInt 0 ((down : Int) - 1) j).toNat (clampInt 0 ((across : Int) - 1) i).toNat
  let mix (f : Int × Int → Int) : Int :=
    roundDivInt ((m - a) * (m - b) * f (at_ i j) + a * (m - b) * f (at_ (i + 1) j) + (m - a) * b * f (at_ i (j + 1))
      + a * b * f (at_ (i + 1) (j + 1))) (2 * n * (2 * n))
  (mix (·.1), mix (·.2))

/-- What a pixel's search needs (R132, R133): the two views, the pixels of the previous one whose census is held, block vectors with their spacing,
range and confidence, and the backward vector of a block. -/
structure FlowEnv where
  cur : View
  prev : View
  held : Nat → Nat → Bool
  n : Nat
  x0 : Nat
  y0 : Nat
  across : Nat
  down : Nat
  blk : Nat → Nat → FlowBlk
  back : Option (Nat → Nat → Int × Int)
  tex : Nat
  fbTh : Nat

/-- The 25 candidates of a pixel round its start vector (R132). -/
def pixelCands (v : FlowEnv) (y x : Nat) (v0 : Int × Int) : List FlowCand :=
  candWindow 2 2 (fun u w =>
    (List.range 25).foldl (fun t k =>
      let cy := (y : Int) + ((k / 5 : Nat) : Int) - 2
      let cx := (x : Int) + ((k % 5 : Nat) : Int) - 2
      if cy < 0 ∨ v.cur.h ≤ cy ∨ cx < 0 ∨ v.cur.w ≤ cx then t
      else
        let py := cy - v0.2 - w
        let px := cx - v0.1 - u
        match t with
        | none => none
        | some s =>
          if 0 ≤ py ∧ py < v.prev.h ∧ 0 ≤ px ∧ px < v.prev.w ∧ v.held py.toNat px.toNat then
            some (s + hamming (census v.cur 2 2 cy.toNat cx.toNat) (census v.prev 2 2 py.toNat px.toNat))
          else none) (some 0))

/-- Cost of a candidate, when it is among the list. -/
def candAt (cs : List FlowCand) (u v : Int) : Option Nat := (cs.find? (fun c => c.u == u && c.v == v)).bind (·.cost)

/-- The sub-pixel offset of one axis in 1/32 (R132): none at the window's edge or without both neighbours. -/
def axisOffset (lo mid hi : Option Nat) (edge : Bool) : Int :=
  match lo, mid, hi with
  | some a, some b, some c => if edge then 0 else parabola 32 a b c
  | _, _, _ => 0

/-- A flow element and its confidence (R121-R123, R132, R133). -/
def flowPixel (v : FlowEnv) (y x : Nat) : Nat × Nat :=
  let b := v.blk ((y - v.y0) / v.n) ((x - v.x0) / v.n)
  let v0 := startVector v.n v.across v.down (fun j i => ((v.blk j i).x, (v.blk j i).y)) (y - v.y0) (x - v.x0)
  let cs := pixelCands v y x v0
  let f : (Int × Int) × Nat := match bestCand cs with
    | some (c, s1) =>
      ((32 * (v0.1 + c.u) + axisOffset (candAt cs (c.u - 1) c.v) (some s1) (candAt cs (c.u + 1) c.v) (c.u.natAbs == 2),
        32 * (v0.2 + c.v) + axisOffset (candAt cs c.u (c.v - 1)) (some s1) (candAt cs c.u (c.v + 1)) (c.v.natAbs == 2)),
       candConf cs c s1)
    | none => (((Config.noCandidate 5 [y, x]).toInt, (Config.noCandidate 6 [y, x]).toInt), 0)
  let px := (x : Int) - roundDivInt f.1.1 32
  let py := (y : Int) - roundDivInt f.1.2 32
  let inView := decide (0 ≤ px ∧ px < v.prev.w ∧ 0 ≤ py ∧ py < v.prev.h)
  let occl := match v.back with
    | none => false
    | some bk =>
      let w := bk (py.toNat / 32) (px.toNat / 32)
      decide (v.fbTh < (f.1.1 + 32 * w.1).natAbs ∨ v.fbTh < (f.1.2 + 32 * w.2).natAbs)
  if v.cur.bad y x || !inView || v.prev.bad py.toNat px.toNat then (flowCode 4, 0)
  else if flatWindow v.cur 3 3 y x v.tex then (flowCode 1, 0)
  else if b.range || decide (32767 < f.1.1.natAbs ∨ 32767 < f.1.2.natAbs) then (flowCode 3, 0)
  else if occl then (flowCode 2, 0)
  else (flowElem f.1.1 f.1.2, min b.conf f.2)

/-- A block that the block datapath has done, by row and column. -/
def blkOf (x : VisCtx) (j i : Nat) : FlowBlk := (x.blocks.getD j []).getD i { x := 0, y := 0, range := false, conf := 0 }

/-- The backward vector of a block; of a row not matched yet, an open value. (DESIGN CHOICE, log 43.) -/
def backOf (x : VisCtx) (j i : Nat) : Int × Int :=
  if j < x.blocks.length then ((blkOf x j i).bx, (blkOf x j i).by_) else ((Config.backVector 0 i j).toInt, (Config.backVector 1 i j).toInt)

/-- The pixel pass's environment over the rings. -/
def flwEnv (d : Dev) (e : Nat) (x : VisCtx) : FlowEnv :=
  let w := denseW x
  let h := denseH x
  { cur := ringView d e x (flwRing x 0) w h (if visFlags x then some (flwRing x 5) else none)
    prev := ringView d e x (flwRing x 1) w h none
    held := fun y _ => heldCensus h (heldLines d e x (flwRing x 1)) y
    n := 32, x0 := 0, y0 := 0, across := flwBlocksAcross x, down := x.blocks.length, blk := blkOf x
    back := if flwFb x then some (backOf x) else none, tex := flwTex x, fbTh := flwFbTh x }

/-- The pixel unit (R132, R133). -/
def flwPixels (d : Dev) (e : Nat) (x : VisCtx) : DenseRow :=
  let v := flwEnv d e x
  let out := (List.range (min 32 (denseH x - 32 * x.row))).map (fun k => (List.range (denseW x)).map (fun c => flowPixel v (32 * x.row + k) c))
  { elems := out.map (fun l => l.map (·.1)), confs := out.map (fun l => l.map (·.2)), preds := [], path := [] }

/-- The reason of an invalid element, 0 for a vector (R121). -/
def flowReason (n : Nat) : Nat := if bits n 0 16 = 0x8000 then bits n 16 16 else 0

/-- The change mask of a tile (R134). -/
def flwChanged (d : Dev) (e : Nat) (x : VisCtx) (r : DenseRow) (tx : Nat) : Bool :=
  let v := flwEnv d e x
  let n := ((List.range r.elems.length).flatMap (fun k => ((List.range 32).filter (fun c => 32 * tx + c < denseW x)).map (fun c => (k, 32 * tx + c)))).filter
    (fun p =>
      let el := (r.elems.getD p.1 []).getD p.2 0
      let y := 32 * x.row + p.1
      match flowReason el, flowOf el with
      | 0, some (fx, fy) => decide (x.h 0x20 ≤ max fx.natAbs fy.natAbs)
      | 1, _ => decide (x.b 0x22 < absDiff (v.cur.px y p.2) (v.prev.px y p.2))
      | _, _ => true)
  decide (x.h 0x24 < n.length)

/-- The integer-rounded component c of the valid vectors of a tile part. -/
def validComps (es : List Nat) (c : Nat) : List Nat :=
  es.filterMap (fun el => (flowOf el).map (fun f => ofSigned 16 (roundDivInt (if c = 0 then f.1 else f.2) 32) |> fun n => (n + 32768) % 65536))

/-- The tiles of a pixel row (R135, R136): medians in two's complement, the block's prediction where no vector is valid. -/
def flwTiles (d : Dev) (e : Nat) (x : VisCtx) (r : DenseRow) : List VisTile :=
  (List.range (flwBlocksAcross x)).map (fun tx =>
    let es := tilePart r.elems tx
    let cs := tilePart r.confs tx
    let bad := ((es.zip cs).filter (fun p => flowReason p.1 != 4 && flowReason p.1 != 1 && p.2 < flwConf x)).length
    let med (c : Nat) : Nat :=
      match validComps es c with
      | [] => ofSigned 16 (4 * (if c = 0 then (blockPred d e x tx x.row).1 else (blockPred d e x tx x.row).2))
      | l => (lowerMedian l + 32768) % 65536
    { tx := tx, ty := x.row, bad := bad, ranges := (es.filter (fun el => flowReason el == 3)).length, a := med 0, b := med 1 })

/-- The rows that the pixel unit writes: flow, confidence, level and change mask (R124, R134). -/
def flwOuts (d : Dev) (e : Nat) (x : VisCtx) (r : DenseRow) : List VisOut :=
  denseOuts x (flwOut x 0, flwOut x 1, flwOut x 2) 4 (rowAt x r.elems) (rowAt x r.confs) 0
    ++ [{ ring := flwOut x 3, row := x.row
          bytes := (List.range (flwBlocksAcross x)).map (fun tx => BitVec.ofNat 8 (b2n (flwChanged d e x r tx)))
          tile := 2 }]

/-- A block or a pixel unit may begin (R142). -/
def flwBlockReady (d : Dev) (e : Nat) (x : VisCtx) : Bool :=
  let last := ceilDiv (quarter (denseH x)) 32 - 1
  let m := min (x.rowA / 4 + 1) last
  x.rowA < flwBlockRows x && inHas d e x (flwRing x 2) m && inHas d e x (flwRing x 3) m
def flwPixelReady (d : Dev) (e : Nat) (x : VisCtx) : Bool :=
  let m := min (x.row + 1) (denseRows x - 1)
  x.row < denseRows x && !x.trunc && m < x.rowA && inHas d e x (flwRing x 0) m && inHas d e x (flwRing x 1) m
    && (!visFlags x || inHas d e x (flwRing x 5) m) && [0, 1, 2, 3].all (fun i => outFree d e x (flwOut x i) 1)

/-- Cost of a row of blocks in VX cycles (R143). -/
def flwBlockCost (x : VisCtx) : Nat := flwBlocksAcross x * 512 * (if flwFb x then 2 else 1)

/-- Scratchpad that the units read. -/
def flwBlockReads (d : Dev) (e : Nat) (x : VisCtx) : List (Nat × Nat) :=
  let w := quarter (denseW x)
  let rows := ceilDiv (quarter (denseH x)) 32
  rowsRound d e x (flwRing x 2) w rows (x.rowA / 4) ++ rowsRound d e x (flwRing x 3) w rows (x.rowA / 4)
    ++ (if flwPred x != 0 && inHas d e x (flwRing x 4) x.rowA then
          [(inAddr d e x (flwRing x 4) x.rowA, tileRowBytes (denseW x) 4)] else [])
def flwPixelReads (d : Dev) (e : Nat) (x : VisCtx) : List (Nat × Nat) :=
  let one (i : Nat) := rowsRound d e x (flwRing x i) (denseW x) (denseRows x) x.row
  one 0 ++ one 1 ++ (if visFlags x then one 5 else [])

/-- A tile refined from its patch (R139): the output patch. -/
def flwRefine (x : VisCtx) (p : List Byte) : List Byte :=
  let level := patchLevel p
  let n := 8 * level
  let tx := field p 0 2
  let ty := field p 2 2
  let ox := toSigned 16 (field p 6 2)
  let oy := toSigned 16 (field p 8 2)
  let w := denseW x
  let h := denseH x
  let cur := patchView x p 0x40 40 (32 * (tx : Int) - 4) (32 * (ty : Int) - 4) w h
  let pox := 32 * (tx : Int) - 24 - ox
  let poy := 32 * (ty : Int) - 24 - oy
  let prev := patchView x p 0x680 80 pox poy w h
  let inside (n : Nat) (o : Int) (v : Nat) : Bool :=
    decide (o ≤ max 0 ((v : Int) - 2) ∧ min ((n : Int) - 1) ((v : Int) + 2) < o + 80)
  let held (y c : Nat) : Bool := inside h poy y && inside w pox c
  let b0 := blkOf x ty tx
  let g0 : Int × Int := if b0.range || decide (x.blocks.length ≤ ty) then (ox, oy) else (b0.x, b0.y)
  let sub (j i : Nat) : FlowBlk :=
    let cs := candWindow n n (fun u v =>
      (List.range 64).foldl (fun t k =>
        let y := 32 * ty + 8 * j + k / 8
        let c := 32 * tx + 8 * i + k % 8
        if h ≤ y ∨ w ≤ c then t
        else
          let py := (y : Int) - g0.2 - v
          let px := (c : Int) - g0.1 - u
          match t with
          | none => none
          | some s =>
            if 0 ≤ py ∧ py < h ∧ 0 ≤ px ∧ px < w ∧ held py.toNat px.toNat then
              some (s + hamming (census cur 2 2 y c) (census prev 2 2 py.toNat px.toNat))
            else none) (some 0))
    match bestCand cs with
    | some (c, s1) => { x := g0.1 + c.u, y := g0.2 + c.v, range := c.u.natAbs == n || c.v.natAbs == n, conf := candConf cs c s1 }
    | none => { x := (Config.noCandidate 1 [ty, tx, j, i]).toInt, y := (Config.noCandidate 2 [ty, tx, j, i]).toInt, range := false, conf := 0 }
  let subs := (List.range 4).map (fun j => (List.range 4).map (fun i => sub j i))
  let v : FlowEnv :=
    { cur := cur, prev := prev, held := held, n := 8, x0 := 32 * tx, y0 := 32 * ty, across := 4, down := 4
      blk := fun j i => (subs.getD j []).getD i { x := 0, y := 0, range := false, conf := 0 }
      back := if flwFb x then some (backOf x) else none, tex := flwTex x, fbTh := flwFbTh x }
  let res (j i : Nat) : Nat × Nat :=
    if flowReason (field p (0x1F80 + 4 * (32 * j + i)) 4) = 4 then (flowCode 4, 0)
    else flowPixel v (min (h - 1) (32 * ty + j)) (min (w - 1) (32 * tx + i))
  outPatch p level 4 (fun j i => (res j i).1) (fun j i => (res j i).2)

end Sys2Proof.Machine
end

