-- ==== Sys2Proof/Machine/Pym.lean ====
section
/-! DEFINITION. Pyramid engines (R106-R110): levels from a descriptor and the lines read so far, and the tile rows they complete. -/

namespace Sys2Proof.Machine

def pymPoly (x : VisCtx) : Bool := bits (x.b 0) 0 2 == 1
def pymCopy (x : VisCtx) : Bool := bit (x.b 0) 2
def pymBorder (x : VisCtx) : Nat := bits (x.b 0) 3 2
def pymN (x : VisCtx) : Nat := clampNat 1 7 (x.b 1)
/-- Element size in bytes. -/
def pymE (x : VisCtx) : Nat := if x.b 2 = 1 then 2 else 1
def pymIn (x : VisCtx) : Nat := x.b 3
def pymW (x : VisCtx) : Nat := clampNat 1 4096 (x.h 4)
def pymH (x : VisCtx) : Nat := clampNat 1 4096 (x.h 6)
def pymPlane (x : VisCtx) : Nat := bits (x.b 0xA) 0 2
def pymRing (x : VisCtx) (l : Nat) : Nat := x.b (0x18 + l)

/-- The factor of polyphase mode within its limits (R107). -/
def polyF (f : Nat) : Nat := clampNat 0x10CD 0x4000 f

/-- Size of a level from the level below (R106, R107). -/
def levelSize (poly : Bool) (f : Nat) : Nat → Nat → Nat
  | 0, n => n
  | l + 1, n => let m := levelSize poly f l n
    if poly then max 1 (m * 4096 / polyF f) else ceilDiv m 2

def pymLw (x : VisCtx) (l : Nat) : Nat := levelSize (pymPoly x) (x.h 8) l (pymW x)
def pymLh (x : VisCtx) (l : Nat) : Nat := levelSize (pymPoly x) (x.h 8) l (pymH x)

/-- A field of the descriptor lies outside its range (R103, R107, R110). -/
def pymClamped (x : VisCtx) : Bool :=
  2 ≤ bits (x.b 0) 0 2 || pymBorder x == 3 || x.b 1 != pymN x || 2 ≤ x.b 2 || x.h 4 != pymW x || x.h 6 != pymH x
    || (pymPoly x && x.h 8 != polyF (x.h 8)) || 4 ≤ x.b 0xA

/-- A coordinate resolved by BORDER (R106); none for BORDER_VAL. -/
def borderAt (mode n : Nat) (i : Int) : Option Nat :=
  if 0 ≤ i ∧ i < n then some i.toNat
  else match mode with
    | 1 => some (clampInt 0 ((n : Int) - 1) (if i < 0 then -i else 2 * ((n : Int) - 1) - i)).toNat
    | 2 => none
    | _ => some (clampInt 0 ((n : Int) - 1) i).toNat

/-- A value of a level's lines, coordinates resolved by BORDER. -/
def levelPx (x : VisCtx) (w h : Nat) (ls : List (List Nat)) (i j : Int) : Int :=
  match borderAt (pymBorder x) w i, borderAt (pymBorder x) h j with
  | some a, some b => (((ls.getD b []).getD a 0 : Nat) : Int)
  | _, _ => ((x.h 0x14 % 2 ^ (8 * pymE x) : Nat) : Int)

/-- The kernel of factor-2 mode (R106). -/
def kern5 : List Int := [1, 4, 6, 4, 1]

/-- One element of a factor-2 level (R106). -/
def half (px : Int → Int → Int) (i j : Nat) : Nat :=
  let s := (List.range 5).foldl (fun t b => (List.range 5).foldl (fun t a =>
    t + kern5.getD a 0 * kern5.getD b 0 * px (2 * (i : Int) + (a : Int) - 2) (2 * (j : Int) + (b : Int) - 2)) t) 0
  (roundDivInt s 256).toNat

/-- The source position of a polyphase output coordinate, in 1/32 (R107). -/
def polyPos (f i : Nat) : Int := roundDivInt ((2 * (i : Int) + 1) * (polyF f : Int) - 4096) 256

/-- Coefficient of a phase and tap, S1.14 (R107). -/
def polyCoef (tab : List Byte) (phase tap : Nat) : Int := toSigned 16 (field tab (2 * (8 * phase + tap)) 2)

/-- One element of a polyphase level (R107): the horizontal pass keeps four fraction bits, the vertical pass rounds once. -/
def poly (tab : List Byte) (f esz : Nat) (px : Int → Int → Int) (i j : Nat) : Nat :=
  let xs := polyPos f i
  let ys := polyPos f j
  let hpass (line : Int) : Int := roundDivInt ((List.range 8).foldl (fun t k =>
    t + polyCoef tab (xs % 32).toNat k * px (xs / 32 + (k : Int) - 3) line) 0) 1024
  let v := roundDivInt ((List.range 8).foldl (fun t k =>
    t + polyCoef tab (ys % 32).toNat k * hpass (ys / 32 + (k : Int) - 3)) 0) 262144
  (clampInt 0 (2 ^ (8 * esz) - 1) v).toNat

/-- Lines of level l - 1 that line j of level l needs (R106-R108): one more than the highest index. -/
def pymLineNeeds (x : VisCtx) (l j : Nat) : Nat :=
  min (pymLh x (l - 1)) (if pymPoly x then (polyPos (x.h 8) j / 32 + 5).toNat else 2 * j + 3)

/-- Lines of level l that can be formed from the first n lines of level l - 1. -/
def pymFormed (x : VisCtx) (l n : Nat) : Nat := ((List.range (pymLh x l)).filter (fun j => pymLineNeeds x l j ≤ n)).length

/-- Tile rows that the first n lines of a level of h lines complete. -/
def wholeRows (h n : Nat) : Nat := if h ≤ n then ceilDiv h 32 else n / 32

/-! ### The carry area (R108, R110) -/

/-- Lines of each level that are kept: 4, or 7 in polyphase mode. -/
def pymKeep (x : VisCtx) : Nat := if pymPoly x then 7 else 4

/-- Bytes of a kept line of a level: rounded up to a multiple of 64. -/
def carryStride (x : VisCtx) (l : Nat) : Nat := 64 * ceilDiv (pymLw x l * pymE x) 64

/-- Byte address of a level's kept lines: the levels follow one another from level 0. (DESIGN CHOICE, log 131.) -/
def carryBase (x : VisCtx) (l : Nat) : Nat :=
  8 * bits (x.w 0x10) 0 23 + (List.range l).foldl (fun t k => t + pymKeep x * carryStride x k) 0

/-- Byte address of line y of a level: the lines kept take the places of a level in turn. (DESIGN CHOICE, log 131.) -/
def carryAddr (x : VisCtx) (l y : Nat) : Nat := carryBase x l + y % pymKeep x * carryStride x l

/-- What of the carry area the context has filled, as scratchpad ranges: levels 0 to N - 1. -/
def carryRanges (x : VisCtx) : List (Nat × Nat) :=
  ((List.range (pymN x)).map (fun l => (carryBase x l, min (pymKeep x) (x.lines.getD l []).length * carryStride x l))).filter (fun r => r.2 != 0)

/-- The lines of a level with those kept taken from the carry area. -/
def carried (d : Dev) (e : Nat) (x : VisCtx) (l : Nat) (ls : List (List Nat)) : List (List Nat) :=
  if pymN x ≤ l then ls
  else
    let n := ls.length
    let k := min (pymKeep x) n
    ls.take (n - k) ++ (List.range k).map (fun j => (List.range (pymLw x l)).map (fun i =>
      leNat (spadPeek d (e / 8) (carryAddr x l (n - k + j) + pymE x * i) (pymE x))))

/-- The new lines of levels 0 to N - 1 that are kept, by address (R108). -/
def carryWrites (x : VisCtx) (before after : List (List (List Nat))) : List (Nat × List Byte) :=
  (List.range (pymN x)).flatMap (fun l =>
    let ls := after.getD l []
    let from_ := max (before.getD l []).length (ls.length - pymKeep x)
    (List.range (ls.length - from_)).map (fun j =>
      (carryAddr x l (from_ + j), (ls.getD (from_ + j) []).flatMap (fun v => leBytes (pymE x) v))))

/-- The kept lines written. -/
def putCarry (e : Nat) (x : VisCtx) (vx : Nat) (after : VisCtx) (d : Dev) : Dev :=
  (carryWrites x x.lines after.lines).foldl (fun d w => spadWrite (visParty d e x vx) (e / 8) w.1 w.2 d) d

/-! ### The unit -/

/-- A level brought up to date from the lines of the level below: its lines, and the tile rows now complete. -/
def pymLevel (x : VisCtx) (tab : List Byte) (l : Nat) (below mine : List (List Nat)) (r : Nat) : List (List Nat) × List VisOut :=
  let px := levelPx x (pymLw x (l - 1)) (pymLh x (l - 1)) below
  let new := (List.range (pymFormed x l below.length - mine.length)).map (fun j => (List.range (pymLw x l)).map (fun i =>
    if pymPoly x then poly tab (x.h 8) (pymE x) px i (mine.length + j) else half px i (mine.length + j)))
  let all := mine ++ new
  (all, (List.range (wholeRows (pymLh x l) all.length - r)).map (fun k =>
    { ring := pymRing x l, row := r + k, tile := 2048 * pymE x
      bytes := tileRow (pymLw x l) (pymLh x l) (r + k) (fun y c => leBytes (pymE x) ((all.getD y []).getD c 0)) }))

/-- Levels 1 to N brought up to date after new lines of level 0. -/
def pymLevels (x : VisCtx) (tab : List Byte) : Nat → Nat → VisCtx → List VisOut → VisCtx × List VisOut
  | 0, _, s, outs => (s, outs)
  | k + 1, l, s, outs =>
    let a := pymLevel x tab l (s.lines.getD (l - 1) []) (s.lines.getD l []) (s.rows.getD l 0)
    pymLevels x tab k (l + 1) { s with lines := setAt l a.1 s.lines, rows := setAt l (s.rows.getD l 0 + a.2.length) s.rows } (outs ++ a.2)

/-- Lines of level l after the unit of the next input row. -/
def pymLinesAfter (x : VisCtx) : Nat → Nat
  | 0 => min (pymH x) (32 * (x.row + 1))
  | l + 1 => pymFormed x (l + 1) (pymLinesAfter x l)

/-- Tile rows of level l that the unit of the next input row completes (R108). -/
def pymNewRows (x : VisCtx) (l : Nat) : Nat := wholeRows (pymLh x l) (pymLinesAfter x l) - x.rows.getD l 0

/-- Rings that the next unit writes (R102). -/
def pymOutRings (x : VisCtx) : List Nat :=
  if x.owed.isEmpty then
    (if pymCopy x then [pymRing x 0] else [])
      ++ ((List.range (pymN x)).filter (fun k => pymNewRows x (k + 1) != 0)).map (fun k => pymRing x (k + 1))
  else x.owed.map (·.ring)

/-- The context's next unit may begin (R102): its input row is in, unless it writes rows that waited for a second slot, and every ring
that it writes has a free slot. (DEDUCED, log 132.) -/
def pymEligible (d : Dev) (e : Nat) (x : VisCtx) : Bool :=
  (!x.owed.isEmpty || (x.row < ceilDiv (pymH x) 32 && inHas d e x (pymIn x) x.row)) && (pymOutRings x).all (fun r => outFree d e x r 1)

/-- Cost of the unit in VX cycles (R109). -/
def pymCost (x : VisCtx) : Nat :=
  let row (w : Nat) := 32 * ceilDiv w 8 + 32
  if !x.owed.isEmpty then 0
  else if pymPoly x then
    row (pymW x) + ((List.range (pymN x - 1)).foldl (fun t k => t + pymNewRows x (k + 1) * row (pymLw x (k + 1))) 0)
  else row (pymW x)

/-- Scratchpad that the unit reads: the input slot, the carry area and the coefficient table. -/
def pymReads (d : Dev) (e : Nat) (x : VisCtx) : List (Nat × Nat) :=
  if !x.owed.isEmpty then []
  else
    (inAddr d e x (pymIn x) x.row + pymPlane x * tileRowBytes (pymW x) (pymE x), tileRowBytes (pymW x) (pymE x))
      :: (carryRanges x ++ (if pymPoly x then [(8 * bits (x.w 0xC) 0 23, 512)] else []))

/-- At most one tile row for each ring, the first, and the rest. -/
def oneEach : List VisOut → List VisOut × List VisOut
  | [] => ([], [])
  | o :: r =>
    let t := oneEach r
    (o :: t.1.filter (fun p => p.ring != o.ring), t.1.filter (fun p => p.ring == o.ring) ++ t.2)

/-- The rows of a unit that are written now, and the context with those that wait; a fold run has all slots (R102, R222). (DEDUCED, log 132.) -/
def pymSplit (x : VisCtx) (outs : List VisOut) : VisCtx × List VisOut :=
  if x.fold.isSome then (x, outs) else ({ x with owed := (oneEach outs).2 }, (oneEach outs).1)

/-- The context after its unit, and the tile rows that the unit writes (R108). -/
def pymRow (d : Dev) (e : Nat) (x : VisCtx) : VisCtx × List VisOut :=
  if !x.owed.isEmpty then pymSplit x x.owed
  else
    let q := e / 8
    let a := inAddr d e x (pymIn x) x.row
    let n := min 32 (pymH x - 32 * x.row)
    let new := (List.range n).map (fun j => (List.range (pymW x)).map (fun i => tileElem d q a (pymW x) (pymE x) (pymPlane x) j i))
    let lines := if x.lines.isEmpty then List.replicate 8 [] else (x.lines.zipIdx).map (fun l => carried d e x l.2 l.1)
    let x1 := { x with lines := setAt 0 (lines.getD 0 [] ++ new) lines, row := x.row + 1 }
    let copy : List VisOut :=
      if pymCopy x then
        [{ ring := pymRing x 0, row := x.row, tile := 2048 * pymE x
           bytes := spadPeek d q (a + pymPlane x * tileRowBytes (pymW x) (pymE x)) (tileRowBytes (pymW x) (pymE x)) }]
      else []
    let r := pymLevels x (spadPeek d q (8 * bits (x.w 0xC) 0 23) 512) (pymN x) 1 x1 copy
    pymSplit r.1 r.2

/-- Every output tile row has been written. -/
def pymWhole (x : VisCtx) : Bool := x.row == ceilDiv (pymH x) 32 && x.owed.isEmpty

end Sys2Proof.Machine
end

