-- ==== Sys2Proof/Machine/Fea.lean ====
section
/-! DEFINITION. Feature engines (R149-R169): detection, description, the cell store, the feature list, matching and retry. -/

namespace Sys2Proof.Machine

def feaMatch (x : VisCtx) : Bool := bit (x.b 0) 0
def feaNms5 (x : VisCtx) : Bool := bit (x.b 0) 1
def feaInv (x : VisCtx) : Bool := bit (x.b 0) 2
def feaSubpix (x : VisCtx) : Bool := bit (x.b 0) 3
def feaPoly (x : VisCtx) : Bool := bit (x.b 0) 4
def feaLevels (x : VisCtx) : Nat := if x.b 1 = 0 then 1 else x.b 1
def feaArc (x : VisCtx) : Nat := clampNat 9 12 (x.b 2)
def feaT (x : VisCtx) : Nat := max 1 (x.b 3)
def feaW (x : VisCtx) : Nat := clampNat 64 4096 (x.h 4)
def feaH (x : VisCtx) : Nat := clampNat 32 4096 (x.h 6)
def feaCell (x : VisCtx) : Nat := 32 * 2 ^ bits (x.b 0x10) 0 2
def feaCap (x : VisCtx) : Nat := clampNat 1 64 (x.b 0x11)
def feaMax (x : VisCtx) : Nat := clampNat 1 8192 (x.h 0x12)
def feaScoreMin (x : VisCtx) : Nat := max 1 (x.h 0x14)
def feaShift (x : VisCtx) : Nat := min 31 (x.b 0x17)
def feaRowMax (x : VisCtx) : Nat := clampNat 1 1024 (x.h 0x18)
def feaFs (x : VisCtx) : Nat := min 3 (x.b 0x35)
def feaTol (x : VisCtx) : Nat := min 7 (x.b 0x36)
def feaMwX (x : VisCtx) : Nat := clampNat 1 255 (x.h 0x38)
def feaMwY (x : VisCtx) : Nat := clampNat 1 255 (x.h 0x3A)
def feaTh (x : VisCtx) : Nat := min 256 (x.h 0x3C)
def feaMatchMax (x : VisCtx) : Nat := clampNat 1 256 (x.h 0x3E)
def feaWideMax (x : VisCtx) : Nat := clampNat 1 1024 (x.h 0x40)
def feaList (x : VisCtx) : Nat := 8 * bits (x.w 0x20) 0 23
def feaPrevList (x : VisCtx) : Nat := 8 * bits (x.w 0x24) 0 23
def feaPattern (x : VisCtx) : Nat := 8 * bits (x.w 0x28) 0 23
/-- Byte address of the work area (R169). -/
def feaWork (x : VisCtx) : Nat := 8 * bits (x.w 0x2C) 0 23
def feaCounter (x : VisCtx) : Nat := 8 * bits (x.w 0x30) 0 23
def feaLw (x : VisCtx) (l : Nat) : Nat := levelSize (feaPoly x) (x.h 0x42) l (feaW x)
def feaLh (x : VisCtx) (l : Nat) : Nat := levelSize (feaPoly x) (x.h 0x42) l (feaH x)
def feaOn (x : VisCtx) (l : Nat) : Bool := bit (feaLevels x) l
def feaRows (x : VisCtx) (l : Nat) : Nat := ceilDiv (feaLh x l) 32
def cellsAcross (x : VisCtx) : Nat := ceilDiv (feaW x) (feaCell x)

/-- A field of the descriptor lies outside its range (R103, R150, R169). -/
def feaClamped (x : VisCtx) : Bool :=
  x.b 1 == 0 || x.b 2 != feaArc x || x.b 3 == 0 || x.h 4 != feaW x || x.h 6 != feaH x || 4 ≤ x.b 0x10 || x.b 0x11 != feaCap x
    || x.h 0x12 != feaMax x || x.b 0x17 != feaShift x || x.h 0x18 != feaRowMax x || x.b 0x35 != feaFs x || x.b 0x36 != feaTol x
    || x.h 0x38 != feaMwX x || x.h 0x3A != feaMwY x || x.h 0x3C != feaTh x || x.h 0x3E != feaMatchMax x || x.h 0x40 != feaWideMax x
    || (feaPoly x && x.h 0x42 != polyF (x.h 0x42))

/-! ### Detection (R151-R153) -/

/-- The circle of the segment test, clockwise (R151). -/
def circle16 : List (Int × Int) :=
  [(0, -3), (1, -3), (2, -2), (3, -1), (3, 0), (3, 1), (2, 2), (1, 3), (0, 3), (-1, 3), (-2, 2), (-3, 1), (-3, 0), (-3, -1), (-2, -2), (-1, -3)]

/-- A pixel of a view by signed coordinates inside it. -/
def View.at_ (v : View) (y x : Int) : Nat := v.px y.toNat x.toNat
def View.badAt (v : View) (y x : Int) : Bool := v.bad y.toNat x.toNat

/-- The longest circular run of ones in a list. -/
def longestRun (l : List Bool) : Nat :=
  if l.all id then l.length
  else ((l ++ l).foldl (fun (a : Nat × Nat) b => if b then (max a.1 (a.2 + 1), a.2 + 1) else (a.1, 0)) (0, 0)).1

/-- The offsets of a square window of radius r, line by line. -/
def square (r : Nat) : List (Int × Int) :=
  (List.range ((2 * r + 1) * (2 * r + 1))).map (fun k =>
    (((k % (2 * r + 1) : Nat) : Int) - r, ((k / (2 * r + 1) : Nat) : Int) - r))

/-- The segment test (R151). -/
def segmentTest (v : View) (arc t : Nat) (y x : Nat) : Bool :=
  let at_ (o : Int × Int) : Nat := v.at_ ((y : Int) + o.2) ((x : Int) + o.1)
  let bad (o : Int × Int) : Bool := v.badAt ((y : Int) + o.2) ((x : Int) + o.1)
  let c := v.px y x
  !circle16.any bad && !(square 3).any bad
    && (arc ≤ longestRun (circle16.map (fun o => decide (c + t < at_ o))) || arc ≤ longestRun (circle16.map (fun o => decide (at_ o + t < c))))

/-- The Sobel gradients at a pixel (R152). -/
def sobel (v : View) (y x : Int) : Int × Int :=
  let p (dy dx : Int) : Int := ((v.at_ (y + dy) (x + dx) : Nat) : Int)
  (p (-1) 1 + 2 * p 0 1 + p 1 1 - p (-1) (-1) - 2 * p 0 (-1) - p 1 (-1),
   p 1 (-1) + 2 * p 1 0 + p 1 1 - p (-1) (-1) - 2 * p (-1) 0 - p (-1) 1)

/-- 256 R at a pixel (R152). -/
def cornerR (v : View) (k : Nat) (y x : Nat) : Int :=
  let s := (square 3).foldl (fun (a : Int × Int × Int) o =>
    let g := sobel v ((y : Int) + o.2) ((x : Int) + o.1)
    (a.1 + g.1 * g.1, a.2.1 + g.2 * g.2, a.2.2 + g.1 * g.2)) (0, 0, 0)
  256 * (s.1 * s.2.1 - s.2.2 * s.2.2) - (k : Int) * (s.1 + s.2.1) * (s.1 + s.2.1)

/-- The pixel lies at least 18 pixels from every edge of its level (R150). -/
def wellInside (v : View) (y x : Nat) : Bool := 18 ≤ y && y + 18 < v.h && 18 ≤ x && x + 18 < v.w

/-- The score of a candidate; none where the pixel is no candidate (R151, R152). -/
def cornerScore (x : VisCtx) (v : View) (y c : Nat) : Option Nat :=
  if !wellInside v y c || !segmentTest v (feaArc x) (feaT x) y c then none
  else
    let s := (clampInt 0 65535 (cornerR v (x.b 0x16) y c / ((256 * 2 ^ feaShift x : Nat) : Int))).toNat
    if feaScoreMin x ≤ s then some s else none

/-- A candidate survives non-maximum suppression (R153). -/
def survives (x : VisCtx) (v : View) (score y c : Nat) : Bool :=
  (square (if feaNms5 x then 2 else 1)).all (fun o =>
    if o.1 = 0 ∧ o.2 = 0 then true
    else
      let oy := ((y : Int) + o.2).toNat
      let ox := ((c : Int) + o.1).toNat
      match cornerScore x v oy ox with
      | none => true
      | some s => !(score < s || (s == score && (oy < y || (oy == y && ox < c)))))

/-- Sub-pixel offsets in 1/16 of a level pixel (R153): along x, then along y. -/
def cornerOffsets (x : VisCtx) (v : View) (y c : Nat) : Int × Int :=
  if !feaSubpix x then (0, 0)
  else
    let r := cornerR v (x.b 0x16)
    (parabola 16 (r y (c - 1)) (r y c) (r y (c + 1)), parabola 16 (r (y - 1) c) (r y c) (r (y + 1) c))

/-- A level coordinate mapped to level 0, in Q12.4 (R150). -/
def levelCoord (x : VisCtx) (l i : Nat) (off : Int) : Nat :=
  let p := 16 * (i : Int) + off
  let v : Int :=
    if feaPoly x then
      let f : Int := (polyF (x.h 0x42) : Nat)
      roundDivInt ((p + 8) * f ^ l - 8 * 4096 ^ l) (4096 ^ l)
    else p * 2 ^ l
  (clampInt 0 65535 v).toNat

/-! ### Orientation and descriptor (R155, R156) -/

/-- arctan of a number z / 2^120 by its series, of k terms from the last to the first. -/
def atanSeries (z : Nat) : Nat → Int → Int
  | 0, acc => acc
  | k + 1, acc =>
    let z2 : Int := ((z * z / 2 ^ 120 : Nat) : Int)
    atanSeries z k (((2 ^ 120 / (2 * k + 1) : Nat) : Int) - acc * z2 / ((2 ^ 120 : Nat) : Int))

/-- arctan of z / 2^120, z at most 0.2 of it. -/
def atanSmall (z : Nat) : Nat := (atanSeries z 40 0 * (z : Int) / ((2 ^ 120 : Nat) : Int)).toNat

/-- z / (1 + sqrt(1 + z^2)): the tangent of half the angle. -/
def halfTan (z : Nat) : Nat :=
  let r := isqrtFrom 130 0 (2 ^ 240 + z * z)
  z * 2 ^ 120 / (2 ^ 120 + r)

/-- arctan of y / x, 0 ≤ y ≤ x, in units of 2^-120: three halvings, then the series. -/
def atanRatio (y x : Nat) : Nat := 8 * atanSmall (halfTan (halfTan (halfTan (y * 2 ^ 120 / x))))

/-- A turn in units of 2^-120 radians, by Machin's formula. -/
def fullTurn : Nat := 8 * (4 * atanSmall (2 ^ 120 / 5) - atanSmall (2 ^ 120 / 239))

/-- The angle of a vector as a u16 of a turn, nearest (R155); 0 for the zero vector. -/
def angle16 (m10 m01 : Int) : Nat :=
  let ax := m10.natAbs
  let ay := m01.natAbs
  if ax = 0 ∧ ay = 0 then 0
  else
    let small := if ay ≤ ax then atanRatio ay ax else fullTurn / 4 - atanRatio ax ay
    let quad := if 0 ≤ m10 then (if 0 ≤ m01 then small else fullTurn - small) else (if 0 ≤ m01 then fullTurn / 2 - small else fullTurn / 2 + small)
    (2 * 65536 * quad + fullTurn) / (2 * fullTurn) % 65536

/-- The orientation of a feature (R155). -/
def orientation (v : View) (y x : Nat) : Nat :=
  let m := (square 15).foldl (fun (a : Int × Int) o =>
    if o.1 * o.1 + o.2 * o.2 ≤ 225 then
      let p : Int := ((v.at_ ((y : Int) + o.2) ((x : Int) + o.1) : Nat) : Int)
      (a.1 + o.1 * p, a.2 + o.2 * p)
    else a) (0, 0)
  angle16 m.1 m.2

/-- round(16,384 cos(2 pi b / 32)) and the sine likewise (R156). -/
def binCos : List Int := [16384, 16069, 15137, 13623, 11585, 9102, 6270, 3196, 0, -3196, -6270, -9102, -11585, -13623, -15137, -16069, -16384, -16069, -15137, -13623, -11585, -9102, -6270, -3196, 0, 3196, 6270, 9102, 11585, 13623, 15137, 16069]
def binSin : List Int := [0, 3196, 6270, 9102, 11585, 13623, 15137, 16069, 16384, 16069, 15137, 13623, 11585, 9102, 6270, 3196, 0, -3196, -6270, -9102, -11585, -13623, -15137, -16069, -16384, -16069, -15137, -13623, -11585, -9102, -6270, -3196]

/-- A pattern point, (0, 0) when it lies outside the disc (R156). -/
def patternPoint (pat : List Byte) (i k : Nat) : Int × Int :=
  let px := toSigned 8 (byteAt pat (4 * i + 2 * k))
  let py := toSigned 8 (byteAt pat (4 * i + 2 * k + 1))
  if 225 < px * px + py * py then (0, 0) else (px, py)

/-- Some point of the pattern acts as (0, 0). -/
def patternClamped (pat : List Byte) : Bool :=
  (List.range 512).any (fun j =>
    let px := toSigned 8 (byteAt pat (2 * j))
    let py := toSigned 8 (byteAt pat (2 * j + 1))
    decide (225 < px * px + py * py))

/-- The descriptor of a feature and whether a summed pixel is source-bad (R156). -/
def describe (v : View) (pat : List Byte) (orient y x : Nat) : Nat × Bool :=
  let b := (orient + 1024) / 2048 % 32
  let c := binCos.getD b 0
  let s := binSin.getD b 0
  let at_ (p : Int × Int) : Int × Int := ((x : Int) + roundAway (c * p.1 - s * p.2) 16384, (y : Int) + roundAway (s * p.1 + c * p.2) 16384)
  let box (p : Int × Int) : Nat := (square 2).foldl (fun t o => t + v.at_ (p.2 + o.2) (p.1 + o.1)) 0
  let bad (p : Int × Int) : Bool := (square 2).any (fun o => v.badAt (p.2 + o.2) (p.1 + o.1))
  (List.range 256).foldl (fun (a : Nat × Bool) i =>
    let p1 := at_ (patternPoint pat i 0)
    let p2 := at_ (patternPoint pat i 1)
    (a.1 + b2n (box p1 < box p2) * 2 ^ i, a.2 || bad p1 || bad p2)) (0, false)

/-! ### The cell store (R154, R157) -/

/-- Feature a outranks feature b (R157). (DEDUCED, log 45.) -/
def outranks (a b : Feat) : Bool :=
  if a.score ≠ b.score then b.score < a.score else if a.level ≠ b.level then a.level < b.level
  else if a.y ≠ b.y then a.y < b.y else a.x < b.x

/-- The cell of a feature, in line order. -/
def cellOfFeat (x : VisCtx) (f : Feat) : Nat := (f.y / 16 / feaCell x) * cellsAcross x + f.x / 16 / feaCell x

/-- The lowest-ranked feature of a list. (DEDUCED, log 45.) -/
def lowestFeat : List Feat → Option Feat
  | [] => none
  | f :: r => match lowestFeat r with
    | none => some f
    | some g => some (if outranks f g then g else f)

/-- The cell store would take a feature (R157). -/
def cellTakes (x : VisCtx) (cells : List Feat) (f : Feat) : Bool :=
  let mine := cells.filter (fun g => cellOfFeat x g == cellOfFeat x f)
  mine.length < feaCap x || (match lowestFeat mine with
    | some g => outranks f g
    | none => true)

/-- A feature put into its cell (R157): the store, and how many features were dropped, itself or the one evicted. -/
def cellInsert (x : VisCtx) (cells : List Feat) (f : Feat) : List Feat × Nat :=
  if !cellTakes x cells f then (cells, 1)
  else
    let mine := cells.filter (fun g => cellOfFeat x g == cellOfFeat x f)
    if mine.length < feaCap x then (cells ++ [f], 0)
    else match lowestFeat mine with
      | some g => ((cells.erase g) ++ [f], 1)
      | none => (cells ++ [f], 0)

/-! ### The work area (R169): the cell store, then the index of the previous list -/

/-- Cells of a frame. -/
def feaNcells (x : VisCtx) : Nat := ceilDiv (feaW x) (feaCell x) * ceilDiv (feaH x) (feaCell x)

/-- Bytes of a cell, and byte address of a cell, and of its entry in the index. (DESIGN CHOICE, log 131.) -/
def cellBytes (x : VisCtx) : Nat := 64 * feaCap x + 64
def cellAddr (x : VisCtx) (c : Nat) : Nat := feaWork x + cellBytes x * c
def indexAddr (x : VisCtx) (c : Nat) : Nat := feaWork x + cellBytes x * feaNcells x + 4 * c

/-- An entry of the feature list (R160). -/
def featBytes (f : Feat) : List Byte :=
  leBytes 2 f.x ++ leBytes 2 f.y ++ leBytes 2 f.score ++ leBytes 1 f.level ++ leBytes 1 f.flags ++ leBytes 2 f.orient ++ leBytes 2 f.dist
    ++ leBytes 4 f.id ++ leBytes 2 f.age ++ List.replicate 14 0#8 ++ leBytes 32 f.desc

/-- A list entry read. -/
def featOf (b : List Byte) : Feat :=
  { x := field b 0 2, y := field b 2 2, score := field b 4 2, level := byteAt b 6, flags := byteAt b 7, orient := field b 8 2
    dist := field b 0xA 2, id := field b 0xC 4, age := field b 0x10 2, desc := field b 0x20 32 }

/-- A cell as it is stored: its count, then its features. (DESIGN CHOICE, log 131.) -/
def cellRow (x : VisCtx) (fs : List Feat) (c : Nat) : List Byte :=
  let mine := fs.filter (fun f => cellOfFeat x f == c)
  leBytes 4 mine.length ++ List.replicate 60 0#8 ++ mine.flatMap featBytes

/-- No row of the frame has been detected: the area holds nothing for the context yet. -/
def feaFresh (x : VisCtx) : Bool := x.rows.all (· == 0)

/-- The cell store as the work area holds it. -/
def feaStore (d : Dev) (e : Nat) (x : VisCtx) : List Feat :=
  if feaFresh x then []
  else (List.range (feaNcells x)).flatMap (fun c =>
    (List.range (min (feaCap x) (leNat (spadPeek d (e / 8) (cellAddr x c) 4)))).map (fun k =>
      featOf (spadPeek d (e / 8) (cellAddr x c + 64 + 64 * k) 64)))

/-- The cell store as scratchpad ranges. -/
def storeReads (x : VisCtx) : List (Nat × Nat) := if feaFresh x then [] else [(cellAddr x 0, cellBytes x * feaNcells x)]

/-- The cells that a unit changes written; the first unit writes them all. -/
def putStore (e : Nat) (x : VisCtx) (vx : Nat) (before after : List Feat) (d : Dev) : Dev :=
  (List.range (feaNcells x)).foldl (fun d c =>
    guardDev (feaFresh x || cellRow x before c != cellRow x after c)
      (spadWrite (visParty d e x vx) (e / 8) (cellAddr x c) (cellRow x after c)) d) d

/-- The index of the previous list: for each cell its first entry and how many it has. (DESIGN CHOICE, log 131.) -/
def indexOf (x : VisCtx) (prev : List Feat) (c : Nat) : List Byte :=
  leBytes 2 ((prev.findIdx? (fun f => cellOfFeat x f == c)).getD 0) ++ leBytes 2 (prev.filter (fun f => cellOfFeat x f == c)).length

/-- The index written (R166). -/
def putIndex (e : Nat) (x : VisCtx) (vx : Nat) (prev : List Feat) (d : Dev) : Dev :=
  spadWrite (visParty d e x vx) (e / 8) (indexAddr x 0) ((List.range (feaNcells x)).flatMap (indexOf x prev)) d

/-- The index as a scratchpad range. -/
def indexReads (x : VisCtx) : List (Nat × Nat) := [(indexAddr x 0, 4 * feaNcells x)]

/-- A level's view in its ring (R149). -/
def feaView (d : Dev) (e : Nat) (x : VisCtx) (l : Nat) : View :=
  let w := feaLw x l
  let px (y c : Nat) : Nat := tileElem d (e / 8) (inAddr d e x (x.b (8 + l)) (y / 32)) w 1 0 y c
  { w := w, h := feaLh x l, px := px, bad := fun y c => feaInv x && px y c == 0xFF }

/-- What a detected row gives: the context, candidates, features described, survivors dropped by ROW_MAX, pattern clamped. -/
structure FeaRow where
  ctx : VisCtx
  cands : Nat
  described : Nat
  rowDrop : Nat
  clamped : Bool

/-- The detection unit of a level's next tile row (R151-R157). -/
def feaDetect (d : Dev) (e : Nat) (x : VisCtx) (l : Nat) : FeaRow :=
  let v := feaView d e x l
  let r := x.rows.getD l 0
  let n := min 32 (feaLh x l - 32 * r)
  let cands : List (Nat × Nat × Nat) := (List.range n).flatMap (fun k => (List.range v.w).filterMap (fun c =>
    (cornerScore x v (32 * r + k) c).map (fun s => (s, 32 * r + k, c))))
  let surv := cands.filter (fun p => survives x v p.1 p.2.1 p.2.2)
  let feats : List (Feat × Nat × Nat) := surv.map (fun p =>
    let o := cornerOffsets x v p.2.1 p.2.2
    ({ x := levelCoord x l p.2.2 o.1, y := levelCoord x l p.2.1 o.2, score := p.1, level := l, flags := if feaSubpix x then 32 else 0 },
      p.2.1, p.2.2))
  let held := feaStore d e x
  let fits := feats.filter (fun f => cellTakes x held f.1)
  let ranked := sortBy (fun (a b : Feat × Nat × Nat) => b.1.score < a.1.score) fits
  let kept := ranked.take (feaRowMax x)
  let pat := spadPeek d (e / 8) (feaPattern x) 1024
  let done := kept.map (fun f =>
    let o := orientation v f.2.1 f.2.2
    let ds := describe v pat o f.2.1 f.2.2
    { f.1 with orient := o, desc := ds.1, flags := f.1.flags + (if ds.2 then 16 else 0) })
  let ins := done.foldl (fun (a : List Feat × Nat) f => let t := cellInsert x a.1 f; (t.1, a.2 + t.2)) (held, 0)
  let rowDrop := fits.length - kept.length
  { ctx := { x with cells := ins.1, rows := setAt l (r + 1) x.rows, dropped := x.dropped + (feats.length - fits.length) + rowDrop + ins.2 }
    cands := cands.length, described := done.length, rowDrop := rowDrop, clamped := !done.isEmpty && patternClamped pat }

/-! ### The list (R158-R160) -/

/-- The header of a context's list (R159). -/
def listHeader (x : VisCtx) (passed : Bool) : List Byte :=
  let flags := b2n x.trunc + 2 * b2n (x.full != 0) + 4 * b2n passed + 8 * b2n x.noFlow
  leBytes 2 0x0101 ++ leBytes 1 (x.b 0x1A) ++ leBytes 1 flags ++ leBytes 4 (x.w 0x1C) ++ leBytes 2 x.list.length ++ leBytes 2 x.full
    ++ leBytes 4 (satTo 32 x.dropped) ++ leBytes 2 x.matched ++ leBytes 2 (x.list.filter (fun f => bit f.flags 1)).length
    ++ leBytes 2 (feaCell x) ++ leBytes 2 (feaW x)
    ++ (List.range 8).flatMap (fun l => leBytes 2 (x.list.filter (fun f => f.level == l)).length) ++ List.replicate 24 0#8

/-- The features in list order: cells in line order, by rank within a cell (R158). -/
def listOrder (x : VisCtx) (l : List Feat) : List Feat :=
  sortBy (fun a b => if cellOfFeat x a ≠ cellOfFeat x b then cellOfFeat x a < cellOfFeat x b else outranks a b) l

/-- The list drops its lowest-ranked features beyond a length, ties going to the later (R158). -/
def trimList (n : Nat) (l : List Feat) : List Feat :=
  let idx := (List.range l.length).zip l
  let keep := ((sortBy (fun (a b : Nat × Feat) => outranks a.2 b.2) idx).take n).map (·.1)
  (idx.filter (fun p => keep.contains p.1)).map (·.2)

/-- The context with its list formed (R158). -/
def feaFormList (x : VisCtx) : VisCtx :=
  let all := listOrder x x.cells
  let l := trimList (feaMax x) all
  { x with list := l, full := all.length - l.length }

/-! ### Matching (R161-R165) -/

/-- The previous list's entries, as its header counts them. -/
def feaPrevious (d : Dev) (e : Nat) (x : VisCtx) : List Feat :=
  let a := feaPrevList x
  let n := leNat (spadPeek d (e / 8) (a + 8) 2)
  (List.range n).map (fun i => featOf (spadPeek d (e / 8) (a + 64 + 64 * i) 64))

/-- Size of the flow plane that a flow ring holds (R161). -/
def flowPlaneW (x : VisCtx) : Nat := max 1 (ceilDiv (feaW x) (2 ^ feaFs x))
def flowPlaneH (x : VisCtx) : Nat := max 1 (ceilDiv (feaH x) (2 ^ feaFs x))

/-- The flow sample of a feature (R161), times 2^FS, in 1/32 of a level-0 pixel. -/
def feaFlow (d : Dev) (e : Nat) (x : VisCtx) (f : Feat) : Option (Int × Int) :=
  if x.b 0x34 = 0xFF then none
  else
    let s := 16 * 2 ^ feaFs x
    let c := min (flowPlaneW x - 1) ((2 * f.x + s) / (2 * s))
    let y := min (flowPlaneH x - 1) ((2 * f.y + s) / (2 * s))
    (flowOf (tileElem d (e / 8) (inAddr d e x (x.b 0x34) (y / 32)) (flowPlaneW x) 4 0 y c)).map
      (fun v => (v.1 * 2 ^ feaFs x, v.2 * 2 ^ feaFs x))

/-- The candidates of a feature round a window centre (R162): indices of the previous entries, in order. -/
def feaCands (x : VisCtx) (f : Feat) (flow : Int × Int) (mx my : Nat) : List Nat :=
  let cx := 2 * (f.x : Int) - flow.1
  let cy := 2 * (f.y : Int) - flow.2
  indicesFrom (fun g : Feat =>
    decide ((2 * (g.x : Int) - cx).natAbs ≤ 32 * mx ∧ (2 * (g.y : Int) - cy).natAbs ≤ 32 * my) && absDiff g.level f.level ≤ feaTol x) 0 x.prev

/-- What a match gives (R163): the entry claimed with its distance, or none and whether only the UNIQ test failed. -/
inductive FeaMatch where
  | hit (idx dist : Nat)
  | miss (ambiguous : Bool)
  deriving DecidableEq, Repr

/-- Hamming distance of two descriptors. -/
def descDist (a b : Nat) : Nat := popCount 256 (Nat.xor a b)

/-- The match of a feature among examined candidates (R163). -/
def feaJudge (x : VisCtx) (f : Feat) (cs : List Nat) : FeaMatch :=
  let ds := (cs.filter (fun i => !x.claimed.contains i)).map (fun i => (i, descDist f.desc ((x.prev.getD i { x := 0, y := 0, score := 0, level := 0 }).desc)))
  match sortBy (fun (a b : Nat × Nat) => a.2 < b.2) ds with
  | [] => .miss false
  | (i, d1) :: rest =>
    let d2 := match rest with
      | [] => 257
      | (_, k) :: _ => k
    if feaTh x < d1 then .miss false else if d2 - d1 < x.b 0x37 then .miss true else .hit i d1

/-- A match pass's or a retry's examination of one feature: the context and the feature after it, entries compared, entries not
examined. -/
def feaExamine (x : VisCtx) (f : Feat) (flow : Option (Int × Int)) (mx my limit : Nat) (wide : Bool) : VisCtx × Feat × Nat × Nat :=
  let all := feaCands x f (flow.getD (0, 0)) mx my
  let cs := all.take limit
  let base := f.flags ||| (if flow.isNone then 4 else 0)
  match feaJudge x f cs with
  | .hit i dist =>
    let p := x.prev.getD i { x := 0, y := 0, score := 0, level := 0 }
    let fl := (if wide then putBits (putBits base 1 1 0) 3 1 0 ||| 64 else base) ||| 1
    ({ x with claimed := x.claimed ++ [i] }, { f with flags := fl, dist := dist, id := p.id, age := satTo 16 (p.age + 1) }, cs.length, all.length - cs.length)
  | .miss amb => (x, { f with flags := if amb then base ||| 8 else base }, cs.length, all.length - cs.length)

/-- A detection unit of a level may begin (R167). -/
def feaDetectReady (d : Dev) (e : Nat) (x : VisCtx) (l : Nat) : Bool :=
  feaOn x l && x.rows.getD l 0 < feaRows x l && x.phase == 0 && !x.trunc
    && inHas d e x (x.b (8 + l)) (min (x.rows.getD l 0 + 1) (feaRows x l - 1))

/-- Detection has ended on every enabled level (R158, R168). -/
def feaDetected (x : VisCtx) : Bool :=
  x.trunc || (List.range 8).all (fun l => !feaOn x l || x.rows.getD l 0 == feaRows x l)

/-- Flow tile row that the match of a feature needs (R167). -/
def feaFlowRow (x : VisCtx) (f : Feat) : Nat :=
  let j := f.y / 16 / feaCell x
  min (((j + 1) * feaCell x) / 2 ^ feaFs x) (flowPlaneH x - 1) / 32

/-- Cost of detection and description of a row in VX cycles (R166). -/
def feaDetectCost (x : VisCtx) (l kept : Nat) : Nat := 32 * ceilDiv (feaLw x l) 8 + 32 + 16 + 4 * kept

/-- Scratchpad that a detection unit reads. -/
def feaReads (d : Dev) (e : Nat) (x : VisCtx) (l : Nat) : List (Nat × Nat) :=
  rowsRound d e x (x.b (8 + l)) (feaLw x l) (feaRows x l) (x.rows.getD l 0) ++ [(feaPattern x, 1024)] ++ storeReads x

end Sys2Proof.Machine
end

