-- ==== Sys2Proof/Machine/SoftFloat.lean ====
section
/-! DEFINITION. IEEE 754 arithmetic on bit patterns: exact results over integers, rounded once. Used by the warp engines (R112),
the general cores (R297) and the matrix engines (R254). -/

namespace Sys2Proof.Machine

/-- A binary format: exponent bits and fraction bits. -/
structure FFmt where
  eb : Nat
  mb : Nat
  deriving DecidableEq, Repr

def f32 : FFmt := ⟨8, 23⟩
def bf16 : FFmt := ⟨8, 7⟩
def f16 : FFmt := ⟨5, 10⟩

def FFmt.bias (f : FFmt) : Nat := 2 ^ (f.eb - 1) - 1
/-- Exponent of the smallest normal number. -/
def FFmt.emin (f : FFmt) : Int := 1 - (f.bias : Int)
def FFmt.signBit (f : FFmt) : Nat := 2 ^ (f.eb + f.mb)
def FFmt.infBits (f : FFmt) : Nat := (2 ^ f.eb - 1) * 2 ^ f.mb
/-- The canonical quiet NaN. -/
def FFmt.nanBits (f : FFmt) : Nat := f.infBits + 2 ^ (f.mb - 1)

/-- What a pattern means: a finite value is (-1)^s * m * 2^e. -/
inductive FVal where
  | nan (signaling : Bool)
  | inf (s : Bool)
  | fin (s : Bool) (m : Nat) (e : Int)
  deriving DecidableEq, Repr

/-- A pattern read. -/
def FFmt.decode (f : FFmt) (n : Nat) : FVal :=
  let s := bit n (f.eb + f.mb)
  let ex := bits n f.mb f.eb
  let fr := bits n 0 f.mb
  if ex = 2 ^ f.eb - 1 then (if fr = 0 then .inf s else .nan (!bit fr (f.mb - 1)))
  else if ex = 0 then .fin s fr (f.emin - f.mb)
  else .fin s (fr + 2 ^ f.mb) ((ex : Int) - f.bias - f.mb)

/-- Exception flags as fflags numbers them: NV 16, DZ 8, OF 4, UF 2, NX 1. -/
abbrev FRes := Nat × Nat

/-- Number of bits of a number. -/
def bitLen (n : Nat) : Nat := if n = 0 then 0 else Nat.log2 n + 1

/-- The fraction above a cut goes up under a rounding mode: 0 nearest even, 1 to zero, 2 down, 3 up, 4 nearest away. -/
def roundsUp (rm : Nat) (s odd : Bool) (rem half : Nat) (sticky : Bool) : Bool :=
  let inexact := rem != 0 || sticky
  match rm with
  | 0 => half < rem || (rem == half && half != 0 && (sticky || odd))
  | 1 => false
  | 2 => s && inexact
  | 3 => !s && inexact
  | _ => half != 0 && half ≤ rem

/-- m * 2^e cut at 2^qe and rounded: the quotient, and whether it is inexact; sticky adds a positive amount below 2^e. -/
def roundAt (rm : Nat) (s : Bool) (m : Nat) (e qe : Int) (sticky : Bool) : Nat × Bool :=
  if qe ≤ e then (m * 2 ^ (e - qe).toNat, sticky)
  else
    let sh := (qe - e).toNat
    let q := m / 2 ^ sh
    let r := m % 2 ^ sh
    (if roundsUp rm s (q % 2 == 1) r (2 ^ (sh - 1)) sticky then q + 1 else q, r != 0 || sticky)

/-- A value (-1)^s * (m + sticky) * 2^e rounded once into a format, with its flags; tininess is judged after rounding. -/
def FFmt.round (f : FFmt) (rm : Nat) (s : Bool) (m : Nat) (e : Int) (sticky : Bool) : FRes :=
  let sb := if s then f.signBit else 0
  if m = 0 then (sb, 0)
  else
    let top := e + (bitLen m : Int) - 1
    let qe := max (top - f.mb) (f.emin - f.mb)
    let r := roundAt rm s m e qe sticky
    let big := r.1 == 2 ^ (f.mb + 1)
    let mant := if big then 2 ^ f.mb else r.1
    let qx := if big then qe + 1 else qe
    let free := roundAt rm s m e (top - f.mb) sticky
    let tiny := top + 1 < f.emin || (top + 1 == f.emin && free.1 != 2 ^ (f.mb + 1))
    let nx := if r.2 then 1 else 0
    if mant < 2 ^ f.mb then (sb + mant, nx + (if r.2 && tiny then 2 else 0))
    else
      let ex := (qx + f.mb + f.bias).toNat
      if 2 ^ f.eb - 1 ≤ ex then
        let toInf := match rm with
          | 0 => true
          | 1 => false
          | 2 => s
          | 3 => !s
          | _ => true
        (sb + (if toInf then f.infBits else f.infBits - 1), 5)
      else (sb + ex * 2 ^ f.mb + (mant - 2 ^ f.mb), nx + (if r.2 && tiny then 2 else 0))

/-- A signed integer times 2^e rounded; an exact zero takes the sign given. -/
def FFmt.roundInt (f : FFmt) (rm : Nat) (zs : Bool) (m : Int) (e : Int) : FRes :=
  if m = 0 then ((if zs then f.signBit else 0), 0) else f.round rm (decide (m < 0)) m.natAbs e false

/-- Invalid operation when an operand is a signaling NaN. -/
def nvOf : List FVal → Nat
  | [] => 0
  | .nan true :: _ => 16
  | _ :: r => nvOf r

def FVal.isNan : FVal → Bool
  | .nan _ => true
  | _ => false

/-- a * b + c rounded once. -/
def FFmt.fma (f : FFmt) (rm : Nat) (a b c : FVal) : FRes :=
  match a, b, c with
  | .fin sa ma ea, .fin sb mb eb, .fin sc mc ec =>
    let e := min (ea + eb) ec
    let p : Int := (if sa != sb then -1 else 1) * ((ma * mb * 2 ^ (ea + eb - e).toNat : Nat) : Int)
    let q : Int := (if sc then -1 else 1) * ((mc * 2 ^ (ec - e).toNat : Nat) : Int)
    let zs := if p = 0 ∧ q = 0 ∧ (sa != sb) = sc then sc else rm == 2
    f.roundInt rm zs (p + q) e
  | .nan x, y, z => (f.nanBits, nvOf [.nan x, y, z])
  | x, .nan y, z => (f.nanBits, nvOf [x, .nan y, z])
  | .inf sa, .inf sb, z => match z with
    | .nan s => (f.nanBits, nvOf [.nan s])
    | .inf sc => if (sa != sb) = sc then ((if sc then f.signBit else 0) + f.infBits, 0) else (f.nanBits, 16)
    | .fin _ _ _ => ((if sa != sb then f.signBit else 0) + f.infBits, 0)
  | .inf sa, .fin sb mb _, z =>
    if mb = 0 then (f.nanBits, 16)
    else match z with
      | .nan s => (f.nanBits, nvOf [.nan s])
      | .inf sc => if (sa != sb) = sc then ((if sc then f.signBit else 0) + f.infBits, 0) else (f.nanBits, 16)
      | .fin _ _ _ => ((if sa != sb then f.signBit else 0) + f.infBits, 0)
  | .fin sa ma _, .inf sb, z =>
    if ma = 0 then (f.nanBits, 16)
    else match z with
      | .nan s => (f.nanBits, nvOf [.nan s])
      | .inf sc => if (sa != sb) = sc then ((if sc then f.signBit else 0) + f.infBits, 0) else (f.nanBits, 16)
      | .fin _ _ _ => ((if sa != sb then f.signBit else 0) + f.infBits, 0)
  | .fin _ _ _, .fin _ _ _, .nan s => (f.nanBits, nvOf [.nan s])
  | .fin _ _ _, .fin _ _ _, .inf sc => ((if sc then f.signBit else 0) + f.infBits, 0)

/-- Minus a value. -/
def FVal.neg : FVal → FVal
  | .nan s => .nan s
  | .inf s => .inf (!s)
  | .fin s m e => .fin (!s) m e

/-- One, as a value. -/
def FVal.one : FVal := .fin false 1 0

/-- A sum rounded once. -/
def FFmt.add (f : FFmt) (rm : Nat) (a b : FVal) : FRes := f.fma rm a .one b

/-- A product rounded once: the zero added takes the product's sign. -/
def FFmt.mul (f : FFmt) (rm : Nat) (a b : FVal) : FRes :=
  let sgn : FVal → Bool := fun v => match v with
    | .nan _ => false
    | .inf s => s
    | .fin s _ _ => s
  f.fma rm a b (.fin (sgn a != sgn b) 0 0)

/-- A quotient rounded once. -/
def FFmt.div (f : FFmt) (rm : Nat) (a b : FVal) : FRes :=
  match a, b with
  | .nan x, y => (f.nanBits, nvOf [.nan x, y])
  | x, .nan y => (f.nanBits, nvOf [x, .nan y])
  | .inf _, .inf _ => (f.nanBits, 16)
  | .inf sa, .fin sb _ _ => ((if sa != sb then f.signBit else 0) + f.infBits, 0)
  | .fin sa _ _, .inf sb => ((if sa != sb then f.signBit else 0), 0)
  | .fin sa ma ea, .fin sb mb eb =>
    if mb = 0 then (if ma = 0 then (f.nanBits, 16) else ((if sa != sb then f.signBit else 0) + f.infBits, 8))
    else if ma = 0 then ((if sa != sb then f.signBit else 0), 0)
    else
      let k := f.mb + 4 + bitLen mb
      let q := ma * 2 ^ k / mb
      f.round rm (sa != sb) q (ea - eb - k) (ma * 2 ^ k % mb != 0)

/-- A square root rounded once. -/
def FFmt.sqrt (f : FFmt) (rm : Nat) (a : FVal) : FRes :=
  match a with
  | .nan x => (f.nanBits, nvOf [.nan x])
  | .inf s => if s then (f.nanBits, 16) else (f.infBits, 0)
  | .fin s m e =>
    if m = 0 then ((if s then f.signBit else 0), 0)
    else if s then (f.nanBits, 16)
    else
      let k := 2 * f.mb + 8 + (if e % 2 = 0 then 0 else 1)
      let n := m * 2 ^ k
      let r := isqrt n
      f.round rm false r ((e - k) / 2) (r * r != n)

/-- A finite value times 2^k rounded to an integer, ties to even. -/
def scaledInt (s : Bool) (m : Nat) (e : Int) (k : Nat) : Int :=
  let x := e + k
  let v : Nat := if 0 ≤ x then m * 2 ^ x.toNat else roundDiv m (2 ^ (-x).toNat)
  if s then -(v : Int) else v

end Sys2Proof.Machine
end

