-- ==== Sys2Proof/Machine/Wrp.lean ====
section
/-! DEFINITION. Warp engines (R111-R116): the map, the samples, the span table and one output tile row. -/

namespace Sys2Proof.Machine

def wrpHomography (x : VisCtx) : Bool := bits (x.b 0) 0 2 == 1
def wrpCubic (x : VisCtx) : Bool := bit (x.b 0) 2
def wrpEdge (x : VisCtx) : Nat := bits (x.b 0) 3 2
def wrpSide (x : VisCtx) : Bool := bit (x.b 0) 5
def wrpKind (x : VisCtx) : Nat := if 3 < x.b 1 then 0 else x.b 1
def wrpSw (x : VisCtx) : Nat := clampNat 1 4096 (x.h 4)
def wrpSh (x : VisCtx) : Nat := clampNat 1 4096 (x.h 6)
def wrpW (x : VisCtx) : Nat := clampNat 1 4096 (x.h 8)
def wrpH (x : VisCtx) : Nat := clampNat 1 4096 (x.h 0xA)
def wrpX0 (x : VisCtx) : Nat := x.h 0xC
def wrpY0 (x : VisCtx) : Nat := x.h 0xE
def wrpGx (x : VisCtx) : Nat := clampNat 3 7 (x.b 0x14)
def wrpGy (x : VisCtx) : Nat := clampNat 3 7 (x.b 0x15)
def wrpPlane (x : VisCtx) : Nat := bits (x.b 0x16) 0 2
def wrpIn (x : VisCtx) : Nat := x.b 2
def wrpOut (x : VisCtx) : Nat := x.b 3
/-- Element size of a kind (R113). -/
def wrpE (x : VisCtx) : Nat :=
  match wrpKind x with
  | 0 => 1
  | 3 => 4
  | _ => 2

/-- A field of the descriptor lies outside its range (R103, R111, R116). -/
def wrpClamped (x : VisCtx) : Bool :=
  2 ≤ bits (x.b 0) 0 2 || wrpEdge x == 3 || 3 < x.b 1 || x.h 4 != wrpSw x || x.h 6 != wrpSh x || x.h 8 != wrpW x || x.h 0xA != wrpH x
    || (!wrpHomography x && (x.b 0x14 != wrpGx x || x.b 0x15 != wrpGy x)) || 4 ≤ x.b 0x16

/-- Nodes of the grid on an axis (R111). -/
def gridNodes (o n g : Nat) : Nat := min 129 (ceilDiv (o + n - 1) (2 ^ g) + 1)

/-- Coordinate c (0 for x, 1 for y) of node (i, j), S15.16 (R111). -/
def gridNode (d : Dev) (e : Nat) (x : VisCtx) (i j c : Nat) : Int :=
  let nx := gridNodes (wrpX0 x) (wrpW x) (wrpGx x)
  let ny := gridNodes (wrpY0 x) (wrpH x) (wrpGy x)
  toSigned 32 (leNat (spadPeek d (e / 8) (8 * bits (x.w 0x10) 0 23 + 8 * (min j (ny - 1) * nx + min i (nx - 1)) + 4 * c) 4))

/-- A source coordinate of grid mode in 1/32 (R111). -/
def gridPos (d : Dev) (e : Nat) (x : VisCtx) (gx gy c : Nat) : Int :=
  let sx := 2 ^ wrpGx x
  let sy := 2 ^ wrpGy x
  let i := gx / sx
  let j := gy / sy
  let a : Int := ((gx % sx : Nat) : Int)
  let b : Int := ((gy % sy : Nat) : Int)
  let n (i j : Nat) : Int := gridNode d e x i j c
  let s := ((sx : Int) - a) * ((sy : Int) - b) * n i j + a * ((sy : Int) - b) * n (i + 1) j + ((sx : Int) - a) * b * n i (j + 1)
    + a * b * n (i + 1) (j + 1)
  roundDivInt s (sx * sy * 2048)

/-- A source position of homography mode in 1/32; none where w is not positive or a coordinate is not finite (R112). -/
def homPos (x : VisCtx) (gx gy : Nat) : Option (Int × Int) :=
  let h (k : Nat) : FVal := f32.decode (x.w (0x20 + 4 * k))
  let num (n : Nat) : FVal := f32.decode (f32.roundInt 0 false n 0).1
  let mul (a b : FVal) : FVal := f32.decode (f32.mul 0 a b).1
  let add (a b : FVal) : FVal := f32.decode (f32.add 0 a b).1
  let div (a b : FVal) : FVal := f32.decode (f32.div 0 a b).1
  let row (k : Nat) : FVal := add (add (mul (h k) (num gx)) (mul (h (k + 1)) (num gy))) (h (k + 2))
  let w := row 6
  let pos : Bool := match w with
    | .fin false m _ => m != 0
    | .inf false => true
    | _ => false
  if !pos then none
  else match div (row 0) w, div (row 3) w with
    | .fin sx mx ex, .fin sy my ey => some (scaledInt sx mx ex 5, scaledInt sy my ey 5)
    | _, _ => none

/-- The source position of an output pixel in 1/32. -/
def wrpPos (d : Dev) (e : Nat) (x : VisCtx) (u v : Nat) : Option (Int × Int) :=
  let gx := u + wrpX0 x
  let gy := v + wrpY0 x
  if wrpHomography x then homPos x gx gy else some (gridPos d e x gx gy 0, gridPos d e x gx gy 1)

/-- The bicubic kernel with a = -0.5 at a distance in 1/32, in S1.14 (R113). -/
def cubic (n : Int) : Int :=
  let k : Int := if n < 0 then -n else n
  if k < 32 then roundDivInt (3 * k * k * k - 160 * k * k + 65536) 4
  else if k < 64 then roundDivInt (-(k * k * k) + 160 * k * k - 8192 * k + 131072) 4
  else 0

/-- Source-invalid value of a kind (R113). -/
def wrpBad (x : VisCtx) : Nat :=
  match wrpKind x with
  | 0 => 0xFF
  | 1 => 0xFFFF
  | 2 => 0xFFFC
  | _ => 0x8000 + 65536 * 4

/-- The span of an output tile row (R114), its first row raised when the span exceeds the ring's slots. -/
def wrpSpan (d : Dev) (e : Nat) (x : VisCtx) (r : Nat) : Nat × Nat :=
  let a := 8 * bits (x.w 0x18) 0 23 + 4 * r
  let f := leNat (spadPeek d (e / 8) a 2)
  let l := leNat (spadPeek d (e / 8) (a + 2) 2)
  let n := (getRegion d (e / 8) (wrpIn x)).n
  (if f ≤ l ∧ n < l - f + 1 then l + 1 - n else f, l)

def wrpLastRow (x : VisCtx) : Nat := ceilDiv (wrpSh x) 32 - 1

/-- The source lines held for an output tile row (R114). -/
def wrpHeld (d : Dev) (e : Nat) (x : VisCtx) (r : Nat) (line : Nat) : Bool :=
  let s := wrpSpan d e x r
  32 * s.1 ≤ line && line < 32 * (min s.2 (wrpLastRow x) + 1)

/-- What a sample gives (R113, R114): its value, and whether it counts as source-invalid or as a span miss. -/
structure WrpSample where
  value : Nat
  bad : Bool := false
  miss : Bool := false
  deriving DecidableEq, Repr

/-- Source element (y, x) of the plane, in its ring. -/
def wrpSrc (d : Dev) (e : Nat) (x : VisCtx) (y c : Nat) : Nat :=
  tileElem d (e / 8) (inAddr d e x (wrpIn x) (y / 32)) (wrpSw x) (wrpE x) (wrpPlane x) y c

/-- The nearest source pixel of a position, when it is inside (R113). -/
def wrpNearest (x : VisCtx) (p : Int × Int) : Option (Nat × Nat) :=
  if 0 ≤ p.1 ∧ p.1 ≤ 32 * ((wrpSw x : Int) - 1) ∧ 0 ≤ p.2 ∧ p.2 ≤ 32 * ((wrpSh x : Int) - 1) then
    some (((p.1 + 16) / 32).toNat, ((p.2 + 16) / 32).toNat)
  else none

/-- An interpolated sample at an inside position (R113). -/
def wrpInterp (d : Dev) (e : Nat) (x : VisCtx) (r : Nat) (p : Int × Int) : WrpSample :=
  let px := p.1 / 32
  let py := p.2 / 32
  let fx := p.1 % 32
  let fy := p.2 % 32
  let col (k : Int) : Nat := (clampInt 0 ((wrpSw x : Int) - 1) (px + k)).toNat
  let line (k : Int) : Nat := (clampInt 0 ((wrpSh x : Int) - 1) (py + k)).toNat
  let taps : List Int := if wrpCubic x then [-1, 0, 1, 2] else [0, 1]
  let wt (f k : Int) : Int := if wrpCubic x then cubic (32 * k - f) else if k = 0 then 32 - f else f
  if taps.any (fun k => wt fy k != 0 && !wrpHeld d e x r (line k)) then { value := wrpBad x, miss := true }
  else
    let s := taps.foldl (fun t j => taps.foldl (fun t i =>
      if wt fy j = 0 then t else t + wt fx i * wt fy j * (wrpSrc d e x (line j) (col i) : Int)) t) 0
    let v := roundDivInt s (if wrpCubic x then 2 ^ 28 else 1024)
    { value := (clampInt 0 ((wrpBad x : Int) - 1) v).toNat }

/-- The sample of an output pixel of tile row r (R112-R114). -/
def wrpSample (d : Dev) (e : Nat) (x : VisCtx) (r u v : Nat) : WrpSample :=
  let image := wrpKind x < 2
  let const := x.h 0x1C % 2 ^ (8 * wrpE x)
  match wrpPos d e x u v with
  | none => if wrpEdge x == 2 then { value := const } else { value := wrpBad x, bad := true }
  | some p =>
    match wrpNearest x p with
    | some (nx, ny) =>
      if image then wrpInterp d e x r p
      else if wrpHeld d e x r ny then { value := wrpSrc d e x ny nx }
      else { value := wrpBad x, miss := true }
    | none =>
      if !image then { value := wrpBad x, bad := true }
      else match wrpEdge x with
        | 1 => wrpInterp d e x r (clampInt 0 (32 * ((wrpSw x : Int) - 1)) p.1, clampInt 0 (32 * ((wrpSh x : Int) - 1)) p.2)
        | 2 => { value := const }
        | _ => { value := wrpBad x, bad := true }

/-- The flag byte of an output pixel (R113, SIDE). -/
def wrpFlag (d : Dev) (e : Nat) (x : VisCtx) (r u v : Nat) : Nat :=
  match wrpPos d e x u v with
  | none => 0
  | some p => match wrpNearest x p with
    | none => 0
    | some (nx, ny) =>
      if wrpHeld d e x r ny then tileElem d (e / 8) (inAddr d e x (x.b 0x1E) (ny / 32)) (wrpSw x) 1 0 ny nx else 0

def wrpRows (x : VisCtx) : Nat := ceilDiv (wrpH x) 32

/-- The context may write its next output tile row (R102, R114). -/
def wrpEligible (d : Dev) (e : Nat) (x : VisCtx) : Bool :=
  let need := min (wrpSpan d e x x.row).2 (wrpLastRow x)
  let have_ (r : Nat) : Bool := x.fold.isSome || need < inRows d e x r
  x.row < wrpRows x && have_ (wrpIn x) && outFree d e x (wrpOut x) 1
    && (!wrpSide x || (have_ (x.b 0x1E) && outFree d e x (x.b 0x1F) 1))

/-- Cost of an output tile row in VX cycles (R115). -/
def wrpCost (x : VisCtx) : Nat :=
  ceilDiv (wrpW x) 64 * ((if wrpCubic x && wrpKind x < 2 then 1032 else 520) + (if wrpSide x then 128 else 0))

/-- Scratchpad that the unit reads: the grid, the span entry and the source rows held. -/
def wrpReads (d : Dev) (e : Nat) (x : VisCtx) : List (Nat × Nat) :=
  let s := wrpSpan d e x x.row
  let rows := (List.range (min s.2 (wrpLastRow x) + 1 - s.1)).map (· + s.1)
  (8 * bits (x.w 0x18) 0 23 + 4 * x.row, 4)
    :: (if wrpHomography x then []
        else [(8 * bits (x.w 0x10) 0 23, 8 * gridNodes (wrpX0 x) (wrpW x) (wrpGx x) * gridNodes (wrpY0 x) (wrpH x) (wrpGy x))])
    ++ rows.map (fun r => (inAddr d e x (wrpIn x) r + wrpPlane x * tileRowBytes (wrpSw x) (wrpE x), tileRowBytes (wrpSw x) (wrpE x)))
    ++ (if wrpSide x then rows.map (fun r => (inAddr d e x (x.b 0x1E) r, tileRowBytes (wrpSw x) 1)) else [])

/-- The samples of an output tile row, line by line. -/
def wrpSamples (d : Dev) (e : Nat) (x : VisCtx) : List (List WrpSample) :=
  (List.range (min 32 (wrpH x - 32 * x.row))).map (fun l => (List.range (wrpW x)).map (fun u =>
    wrpSample d e x x.row u (32 * x.row + l)))

/-- The tile rows that the unit writes, with the counts of source-invalid pixels and span misses (R113, R114). -/
def wrpRow (d : Dev) (e : Nat) (x : VisCtx) : List VisOut × Nat × Nat :=
  let ss := wrpSamples d e x
  let count (p : WrpSample → Bool) : Nat := ss.foldl (fun t l => t + (l.filter p).length) 0
  let pic : VisOut :=
    { ring := wrpOut x, row := x.row, tile := 2048 * wrpE x
      bytes := tileRow (wrpW x) (wrpH x) x.row (fun y c =>
        leBytes (wrpE x) ((ss.getD (y - 32 * x.row) []).getD c { value := 0 }).value) }
  let side : List VisOut :=
    if wrpSide x then
      [{ ring := x.b 0x1F, row := x.row, tile := 2048
         bytes := tileRow (wrpW x) (wrpH x) x.row (fun y c => leBytes 1 (wrpFlag d e x x.row c y)) }]
    else []
  (pic :: side, count (·.bad), count (·.miss))

/-- The first source row that the context still needs after an output row: below it slots are freed (R114). -/
def wrpKeep (d : Dev) (e : Nat) (x : VisCtx) (row : Nat) : Nat :=
  if row + 1 < wrpRows x then (wrpSpan d e x (row + 1)).1 else min (wrpSpan d e x row).2 (wrpLastRow x) + 1

end Sys2Proof.Machine
end

