-- ==== Sys2Proof/Machine/Vis.lean ====
section
/-! DEFINITION. The vision engines' commands (R100-R170): starts, units of work, completions, stops, truncation, grants, refinement
and retry. Operand vx is the VX cycle within the DT unit. -/

namespace Sys2Proof.Machine

/-- The k-th vision engine of a quadrant, by v of R432. (DEDUCED, log 41.) -/
def engOf (q : Fin 4) (k : Nat) : Nat := 8 * q.val + k

/-! ### Starts (R101, R103) -/

def visDescLen (e : Nat) : Nat := if e % 8 < 2 then 64 else 128

/-- Some descriptor value is clamped or substituted (R103). -/
def visClamped (e : Nat) (x : VisCtx) : Bool :=
  match e % 8 with
  | 0 => pymClamped x
  | 1 => pymClamped x
  | 2 => wrpClamped x
  | 3 => wrpClamped x
  | 4 => steClamped x
  | 5 => flwClamped x
  | _ => feaClamped x

/-- The lowest context that is free. -/
def freeVis (d : Dev) (e : Nat) : Option Nat := (List.range (visCtxs e)).find? (fun c => !(getVis d e c).live)

/-- The engine takes starts: it is enabled and its scratchpad holds data (R117, R203). -/
def visTakes (d : Dev) (e : Nat) : Bool := getF d (visBlk e).1 (visBlk e).2 0 0 1 == 1 && (getSpd d (e / 8)).initDone

/-- A descriptor context filled (R101): the descriptor is copied; an uncorrectable word of it stops the context (R105). -/
def fillVis (e c addr dl : Nat) (st : Starter) (fold : Option Nat) (desc : List Byte) (bad : Bool) (vx : Nat) (d : Dev) : Dev :=
  let x : VisCtx := { live := true, addr := addr, desc := desc, dl := dl, starter := st, fold := fold }
  let d1 := guardDev (visClamped e x) (visErr e 2) (updVis e c (fun _ => x) d)
  guardDev bad (visStopCtx e c 2 vx []) d1

/-- A start enters a free context. -/
def acceptVis (e c vx : Nat) (m : StartMsg) (d : Dev) : Dev :=
  let r := spadRead { req := 133 + 8 + e % 8 } (e / 8) (8 * m.desc) (visDescLen e) d
  idleExit (fillVis e c m.desc m.dl m.starter none r.1 r.2.1 vx
    (guardDev (decide (e % 8 < 4)) (pmuUc (e / 8) (448 + 8 * (e % 8) + 6) 1) r.2.2))

/-- VIS_START (R101): a waiting start enters a context that has freed; else the winner under R27 of the n starts that arrive in
this VX cycle enters a context or waits; starts of one deadline go in the order in which they were sent. (DESIGN CHOICE, log 119.) -/
def visStart (e n vx : Nat) (d : Dev) : Dev :=
  let g := getEng d e
  match g.waiting, (if visTakes d e then freeVis d e else none) with
  | m :: r, some c => acceptVis e c vx m (updEng e (fun g => { g with waiting := r }) d)
  | w, free =>
    let mine := d.fab.starts.filter (fun m => m.unit == visUnit e && startReady d m)
    let first := mine.take (max 1 n)
    match first.find? (fun m => first.all (fun o => m.dl ≤ o.dl)) with
    | none => d
    | some m =>
      let d1 := { d with fab := { d.fab with starts := d.fab.starts.erase m } }
      match w, free with
      | [], some c => acceptVis e c vx m d1
      | _, _ => visCnt e 5 1 (updEng e (fun g => { g with waiting := g.waiting ++ [m] }) d1)

/-! ### Units of work (R102, R118, R142, R149, R167) -/

/-- Levels of a feature context whose next row may be detected. -/
def feaLevelReady (d : Dev) (e : Nat) (x : VisCtx) : Option Nat := (List.range 8).find? (fun l => feaDetectReady d e x l)

/-- The feature that a retry takes next: the first NEW_TRACK one from a place in the list (R165). -/
def nextRetry (x : VisCtx) : Option Nat :=
  (List.range x.list.length).find? (fun i => x.next ≤ i && bit (x.list.getD i { x := 0, y := 0, score := 0, level := 0 }).flags 1)

/-- DT that a retry is checked for (R165). -/
def retryDt (x : VisCtx) : Nat := ceilDiv (8 + feaWideMax x) 5

def featAt (x : VisCtx) (i : Nat) : Feat := x.list.getD i { x := 0, y := 0, score := 0, level := 0 }

/-- The match of the next feature of the pass (R161-R163). -/
def feaNextMatch (d : Dev) (e : Nat) (x : VisCtx) : VisCtx × Feat × Nat × Nat :=
  let f := featAt x x.next
  feaExamine x f (feaFlow d e x f) (feaMwX x) (feaMwY x) (feaMatchMax x) false

/-- The retry of a feature in the widened window (R165), by the flow vector that the match pass used. -/
def feaRetry (x : VisCtx) (i : Nat) : VisCtx × Feat × Nat × Nat :=
  feaExamine x (featAt x i) (x.flows.getD i none) (2 * feaMwX x) (2 * feaMwY x) (feaWideMax x) true

/-- The unit that a context would start in a datapath with its cost in VX cycles, where the unit's inputs and outputs allow it. -/
def visNext (d : Dev) (e dp : Nat) (x : VisCtx) : Option (Nat × Nat) :=
  match e % 8, dp with
  | 0, 0 => if pymEligible d e x then some (0, pymCost x) else none
  | 1, 0 => if pymEligible d e x then some (0, pymCost x) else none
  | 2, 0 => if wrpEligible d e x then some (0, wrpCost x) else none
  | 3, 0 => if wrpEligible d e x then some (0, wrpCost x) else none
  | 4, 0 => if x.phase = 0 ∧ !x.trunc ∧ steCoarseReady d e x then some (0, steCoarseCost x) else none
  | 4, 1 => if x.phase = 0 ∧ steFineReady d e x then some (0, denseCost x) else none
  | 5, 0 => if x.phase = 0 ∧ !x.trunc ∧ flwBlockReady d e x then some (0, flwBlockCost x) else none
  | 5, 1 => if x.phase = 0 ∧ flwPixelReady d e x then some (0, denseCost x) else none
  | 6, 0 => (feaLevelReady d e x).map (fun l => (l, feaDetectCost x l (feaDetect d e x l).described))
  | 7, 0 => (feaLevelReady d e x).map (fun l => (l, feaDetectCost x l (feaDetect d e x l).described))
  | k, 1 =>
    if k < 6 then none
    else if x.phase = 0 then
      (if feaDetected x && (visWork d e 0).all (fun w => getVis d e w.ctx != x) then some (0, 64 + 4 * (feaStore d e x).length) else none)
    else if x.phase ≠ 1 then none
    else match x.stage with
      | 1 => some (1, leNat (spadPeek d (e / 8) (feaPrevList x + 8) 2))
      | 2 =>
        if x.next < x.list.length ∧ (x.b 0x34 = 0xFF ∨ inHas d e x (x.b 0x34) (feaFlowRow x (featAt x x.next))) then
          some (2, 8 + (feaNextMatch d e x).2.2.1)
        else none
      | _ => none
  | k, 2 =>
    if k < 6 ∨ x.phase ≠ 3 then none
    else match nextRetry x, x.tstop with
      | some i, some t => if t ≠ 0 ∧ d.dt + retryDt x ≤ t then some (i, 8 + (feaRetry x i).2.2.1) else none
      | _, _ => none
  | _, _ => none

/-! ### Ends of units -/

/-- Region of a dense context's REFIN and REFOUT rings. -/
def refIn (e : Nat) (x : VisCtx) : Nat := if e % 8 = 4 then steOut x 3 else flwOut x 4
def refOut (e : Nat) (x : VisCtx) : Nat := if e % 8 = 4 then steOut x 4 else flwOut x 5

/-- Input slots that a stopped context lets go of: those that its next unit would have used, none after its first pass (R105, R145). -/
def visHeld (d : Dev) (e : Nat) (x : VisCtx) : List (Nat × Nat) :=
  let upto (rows r : Nat) := min rows r
  if pastFirst e x then []
  else match e % 8 with
  | 0 => [(pymIn x, upto (ceilDiv (pymH x) 32) (x.row + 1))]
  | 1 => [(pymIn x, upto (ceilDiv (pymH x) 32) (x.row + 1))]
  | 2 => let n := min (wrpSpan d e x x.row).2 (wrpLastRow x) + 1
    (wrpIn x, n) :: (if wrpSide x then [(x.b 0x1E, n)] else [])
  | 3 => let n := min (wrpSpan d e x x.row).2 (wrpLastRow x) + 1
    (wrpIn x, n) :: (if wrpSide x then [(x.b 0x1E, n)] else [])
  | 4 =>
    let n := upto (denseRows x) (x.row + 2)
    let m := upto (steCoarseRows x) (x.rowA + 2)
    [(steRing x 0, n), (steRing x 1, n), (steRing x 2, m), (steRing x 3, m)]
      ++ (if visFlags x then [(steRing x 5, n), (steRing x 6, n)] else [])
      ++ (if stePred x then [(steRing x 4, upto (denseRows x) (x.row + 1))] else [])
  | 5 =>
    let n := upto (denseRows x) (x.row + 2)
    let m := upto (ceilDiv (quarter (denseH x)) 32) (x.rowA / 4 + 2)
    [(flwRing x 0, n), (flwRing x 1, n), (flwRing x 2, m), (flwRing x 3, m)]
      ++ (if visFlags x then [(flwRing x 5, n)] else [])
      ++ (if flwPred x ≠ 0 then [(flwRing x 4, upto (denseRows x) (x.row + 1))] else [])
  | _ => ((List.range 8).filter (fun l => feaOn x l)).map (fun l => (x.b (8 + l), upto (feaRows x l) (x.rows.getD l 0 + 2)))
      ++ (if x.b 0x34 ≠ 0xFF ∧ x.stage = 2 ∧ x.next < x.list.length then
            [(x.b 0x34, feaFlowRow x (featAt x x.next) + 1)] else [])

/-- An uncorrectable read by a unit (R105, R225): the context stops, with the patch of its tile in refinement, or in a fold run the
run does. -/
def visBadRead (e c vx : Nat) (d : Dev) : Dev :=
  let x := getVis d e c
  match x.fold with
  | some f => updFold (e / 8) f (fun s => { s with stop := some (s.stop.getD 2) })
      (updEng e (fun g => { g with work := g.work.map (fun w => w.filter (fun w => w.ctx != c)) }) (visErr e 1 (countBusyOf e c vx d)))
  | none =>
    let patch := (e % 8 == 4 || e % 8 == 5) && visHas d e 2 c
    visStopCtx e c 2 vx (visHeld d e x) (guardDev patch (ringRelease (e / 8) (refIn e x) 1 (some (visRecv e))) d)

/-! ### Stops (R105, R145, R168): the tile in progress is finished, and of a feature context the unit in progress -/

/-- Tiles of a unit, and the VX cycles of one; a unit not made of tiles is one. (DEDUCED, log 40.) -/
def unitTiles (e dp : Nat) (x : VisCtx) : Nat :=
  match e % 8, dp with
  | 0, _ => ceilDiv (pymW x) 64
  | 1, _ => ceilDiv (pymW x) 64
  | 2, _ => ceilDiv (wrpW x) 64
  | 3, _ => ceilDiv (wrpW x) 64
  | 4, 0 => ceilDiv (quarter (denseW x)) 64
  | 4, 1 => ceilDiv (denseW x) 64
  | 5, 0 => flwBlocksAcross x
  | 5, 1 => ceilDiv (denseW x) 64
  | _, _ => 1
def tileCycles (e dp : Nat) (x : VisCtx) : Nat :=
  match e % 8, dp with
  | 0, _ => 256
  | 1, _ => 256
  | 2, _ => wrpCost x / unitTiles e dp x
  | 3, _ => wrpCost x / unitTiles e dp x
  | 5, 0 => flwBlockCost x / unitTiles e dp x
  | _, _ => 1024

/-- A stop makes a unit end with the tile in progress; the last tile ends with the unit. -/
def cutUnit (e c vx : Nat) (d : Dev) (dp : Nat) : Dev :=
  match visWork d e dp with
  | none => d
  | some w =>
    let x := getVis d e c
    let k := ceilDiv (visNow d e x vx - w.start) (tileCycles e dp x)
    let end_ := w.start + k * tileCycles e dp x
    guardDev (w.ctx == c && decide (k < unitTiles e dp x) && decide (end_ < w.due))
      (setWork e dp (some { w with due := end_, cut := some k })) d

/-- The tile rows that a unit under way writes. -/
def partOuts (d : Dev) (e c : Nat) (x : VisCtx) : List VisOut :=
  match e % 8 with
  | 0 => if visHas d e 0 c then (pymRow d e x).2 else []
  | 1 => if visHas d e 0 c then (pymRow d e x).2 else []
  | 2 => if visHas d e 0 c then (wrpRow d e x).1 else []
  | 3 => if visHas d e 0 c then (wrpRow d e x).1 else []
  | 4 => if visHas d e 1 c then steOuts x (steFine d e x) else []
  | 5 => if visHas d e 1 c then flwOuts d e x (flwPixels d e x) else []
  | _ => []

/-- Tiles of an output row that k of n tiles of its unit have finished. (DEDUCED, log 40.) -/
def tilesDone (o : VisOut) (k n : Nat) : Nat := ceilDiv o.bytes.length (max 1 o.tile) * k / n

/-- The tiles that a cut unit has finished, written and counted, and not published (R105, R194). -/
def putTiles (e c dp k vx : Nat) (d : Dev) : Dev :=
  let x := getVis d e c
  let n := unitTiles e dp x
  let outs := if dp = busyDp e then partOuts d e c x else []
  let d1 := outs.foldl (fun d o =>
    guardDev (decide (e % 8 < 4)) (visCnt e 0 (tilesDone o k n)) (putPart e x vx (tilesDone o k n) o d)) d
  guardDev ((e % 8 == 4 || e % 8 == 5) && dp == 1) (visCnt e 0 (min (2 * k) (ceilDiv (denseW x) 32))) d1

/-- A context that a stop has reached ends with code 1 once no unit of its work is in progress. -/
def stopIdle (e c vx : Nat) (d : Dev) : Dev :=
  let x := getVis d e c
  guardDev (x.live && x.stop && !([0, 1, 2].any (fun dp => visHas d e dp c))) (visStopCtx e c 1 vx (visHeld d e x)) d

/-- The unit that a datapath has finished, with its reads made: the rest acts on the context. (DEDUCED, log 39.) -/
def endUnit (e dp vx : Nat) (reads : VisCtx → VisWork → Dev → List (Nat × Nat)) (f : VisCtx → VisWork → Dev → Dev) (d : Dev) : Dev :=
  match visDone d e dp vx with
  | none => d
  | some (w, x) =>
    let t := visTouch e x vx (reads x w d) d
    if t.1 then visBadRead e w.ctx vx t.2
    else
      let d1 := guardDev (dp == busyDp e) (countBusy e w.due) t.2
      stopIdle e w.ctx vx (match w.cut with
        | some k => setWork e dp none (putTiles e w.ctx dp k vx d1)
        | none => f x w (setWork e dp none d1))

/-! ### Grants (R138, R140, R165) -/

def patchLen (e : Nat) : Nat := if e % 8 = 4 then 16384 else 12288

/-- A patch is at the head of REFIN, and where it lies. -/
def patchReady (d : Dev) (e : Nat) (x : VisCtx) : Bool := slotsFilled d (e / 8) (refIn e x) 1
def patchAddr (d : Dev) (e : Nat) (x : VisCtx) : Nat :=
  slotAddr (getRegion d (e / 8) (refIn e x)) (tailFor d (e / 8) (refIn e x) (visRecv e))

/-- Cost of a refined tile in VX cycles (R143). -/
def refineCost (e level : Nat) : Nat :=
  match e % 8, level with
  | 4, 2 => 4800
  | 4, _ => 2400
  | _, 2 => 6400
  | _, _ => 2000

/-- Cost of the tile at the head of REFIN. -/
def headCost (d : Dev) (e : Nat) (x : VisCtx) : Nat := refineCost e (patchLevel (spadPeek d (e / 8) (patchAddr d e x) 16))

/-- The tile at the head may start now (R138). -/
def tileFits (d : Dev) (e : Nat) (x : VisCtx) : Bool :=
  match x.tstop with
  | some t => t != 0 && d.dt + ceilDiv (headCost d e x) 5 ≤ t
  | none => false

/-- A grant that no message sent before it holds up (R17). -/
def grantReady (d : Dev) (m : GrantMsg) : Bool := !behind d m.seq m.unit m.inst.q

/-- A tile or feature in progress that the new grant does not cover is abandoned at once (R140, R165). -/
def abandon (e c : Nat) (d : Dev) : Dev :=
  let x := getVis d e c
  match visWork d e 2 with
  | none => d
  | some w =>
    let cost := if e % 8 < 6 then ceilDiv (headCost d e x) 5 else retryDt x
    let covered := match x.tstop with
      | some t => t != 0 && w.began + cost ≤ t
      | none => false
    if w.ctx != c || covered then d
    else
      let d1 := setWork e 2 none d
      if e % 8 < 6 then
        ringRelease (e / 8) (refIn e x) 1 (some (visRecv e)) (visCnt e 3 1
          (updVis e c (fun x => { x with consumed := x.consumed + 1, abandoned := x.abandoned + 1 }) d1))
      else updVis e c (fun x => { x with abandoned := x.abandoned + 1, next := w.unit + 1 }) d1

/-- A grant reaches its context (R138): held until the first pass ends, or taken at once; 0 withdraws. -/
def deliverGrant (e : Nat) (m : GrantMsg) (d : Dev) : Dev :=
  let d1 := { d with fab := { d.fab with grants := d.fab.grants.erase m } }
  match (List.range (visCtxs e)).find? (fun c => (getVis d e c).live && (match (getVis d e c).starter with
      | .drover i t _ => i == m.inst && t == m.tag
      | _ => false)) with
  | none => d1
  | some c =>
    let wait := if e % 8 < 6 then 1 else 2
    if e % 8 < 4 then d1
    else stopIdle e c 0 (abandon e c (updVis e c (fun x =>
      { x with tstop := some m.tstop, phase := if x.phase = wait ∧ m.tstop ≠ 0 then wait + 1 else x.phase }) d1))

/-- The grants that have arrived by a VX cycle take effect before the check or the commit of that cycle (R138). -/
def applyGrants (e vx : Nat) (d : Dev) : Dev :=
  (d.fab.grants.filter (fun m => m.unit == visUnit e && m.due ≤ vxAt d vx)).foldl (fun d m =>
    guardDev (grantReady d m) (deliverGrant e m) d) d

/-! ### A unit begins -/

/-- A unit put into a datapath. (DEDUCED, log 39.) -/
def beginUnit (e dp c unit cost vx : Nat) (d : Dev) : Dev :=
  let now := visNow d e (getVis d e c) vx
  let d2 := guardDev (e % 8 ≥ 6 && dp == 1 && unit == 0) (updVis e c (fun x => { x with phase := 1 })) d
  setWork e dp (some { ctx := c, unit := unit, began := d.dt, due := now + cost, start := now, counted := now }) d2

/-- VIS_UNIT_START (R102): an idle datapath takes the winner under R27 of its eligible contexts. -/
def visUnitStart (e dp vx : Nat) (d0 : Dev) : Dev :=
  let d := guardDev (dp == 2) (applyGrants e vx) d0
  if (visWork d e dp).isSome || visInFold d e || decide (d.dt < d.wakeAt) || !(getSpd d (e / 8)).initDone then d
  else
    let ok := (List.range (visCtxs e)).filter (fun c => (getVis d e c).live && !(getVis d e c).stop && (visNext d e dp (getVis d e c)).isSome)
    let r := arbitrate arbEngine (4 * e + dp) (visCtxs e) (ok.map (fun c => ⟨c, (getVis d e c).dl, 0⟩)) d
    match r.1 with
    | none => r.2
    | some c =>
      match visNext d e dp (getVis d e c) with
      | some (u, cost) => beginUnit e dp c u cost vx r.2
      | none => r.2

/-! ### What units do -/

/-- PYM_TILE_ROW_DONE (R108). -/
def pymRowDone (e vx : Nat) (d : Dev) : Dev :=
  endUnit e 0 vx (fun x _ d => pymReads d e x) (fun x w d =>
    let r := pymRow d e x
    let d1 := r.2.foldl (fun d o => visCnt e 0 (o.bytes.length / o.tile) (putOut e x vx o d)) d
    let d2 := putCarry e x vx r.1 (updVis e w.ctx (fun c => { r.1 with stop := c.stop }) d1)
    releaseBelow e w.ctx (pymIn x) r.1.row d2) d

/-- WRP_TILE_ROW_DONE (R114). -/
def wrpRowDone (e vx : Nat) (d : Dev) : Dev :=
  endUnit e 0 vx (fun x _ d => wrpReads d e x) (fun x w d =>
    let r := wrpRow d e x
    let keep := wrpKeep d e x x.row
    let d1 := r.1.foldl (fun d o => visCnt e 0 (o.bytes.length / o.tile) (putOut e x vx o d)) d
    let d2 := visCnt e 3 r.2.2 (visCnt e 2 r.2.1 d1)
    let d3 := updVis e w.ctx (fun x => { x with row := x.row + 1, invalid := x.invalid + r.2.1 }) d2
    let d4 := releaseBelow e w.ctx (wrpIn x) keep d3
    guardDev (wrpSide x) (releaseBelow e w.ctx (x.b 0x1E) keep) d4) d

/-- Every output tile row of a pyramid or warp context has been written. -/
def visWhole (e : Nat) (x : VisCtx) : Bool := if e % 8 < 2 then pymWhole x else x.row == wrpRows x

/-- VIS_CONTEXT_COMPLETE (R104): pyramid and warp contexts, once their last row is written. (DEDUCED, log 39.) -/
def visComplete (e c vx : Nat) (d : Dev) : Dev :=
  let x := getVis d e c
  if !x.live || !visWhole e x || x.fold.isSome then d
  else visFree e c (visSignal e x (fun r => r) (putStatus e x vx (statusAddr e x) 0 (firstWord e x 0) d))

/-- Releases of input rings after a unit: rows below one, or all at the last. -/
def afterRow (e c ring rows r : Nat) (d : Dev) : Dev := releaseBelow e c ring (if r + 1 = rows then rows else r) d

/-- STE_COARSE_ROW_DONE (R127). -/
def steCoarseDone (e vx : Nat) (d : Dev) : Dev :=
  endUnit e 0 vx (fun x _ d => steCoarseReads d e x) (fun x w d =>
    let d1 := updVis e w.ctx (fun _ => steCoarse d e x) d
    afterRow e w.ctx (steRing x 3) (steCoarseRows x) x.rowA (afterRow e w.ctx (steRing x 2) (steCoarseRows x) x.rowA d1)) d

/-- Pixels of a row that hold a reserved code (R120, R121). -/
def codedPixels (e : Nat) (r : DenseRow) : Nat :=
  r.elems.foldl (fun t l => t + (l.filter (fun v => if e % 8 = 4 then decide (0xFFF0 ≤ v) else bits v 0 16 == 0x8000)).length) 0

/-- A dense row written: its planes, counts, and the context after it. -/
def denseDone (e c vx : Nat) (x : VisCtx) (r : DenseRow) (outs : List VisOut) (tiles : List VisTile) (d : Dev) : Dev :=
  let d1 := outs.foldl (fun d o => putOut e x vx o d) d
  let d2 := visCnt e 6 (codedPixels e r) (visCnt e 0 (ceilDiv (denseW x) 32) d1)
  let now := visNow d e x vx
  updVis e c (fun x => { x with row := x.row + 1, pathB := r.path, tiles := x.tiles ++ tiles
                                due := now + (if x.trunc ∧ x.row + 1 < denseRows x then 64 * ceilDiv (denseW x) 64 else 0) }) d2

/-- STE_FINE_ROW_DONE (R128). -/
def steFineDone (e vx : Nat) (d : Dev) : Dev :=
  endUnit e 1 vx (fun x _ d => steFineReads d e x) (fun x w d =>
    let r := steFine d e x
    let d1 := denseDone e w.ctx vx x r (steOuts x r) (steTiles x r) d
    let rings := [steRing x 0, steRing x 1] ++ (if visFlags x then [steRing x 5, steRing x 6] else [])
      ++ (if stePred x then [steRing x 4] else [])
    rings.foldl (fun d g => afterRow e w.ctx g (denseRows x) x.row d) d1) d

/-- FLW_BLOCK_ROW_DONE (R131). -/
def flwBlockDone (e vx : Nat) (d : Dev) : Dev :=
  endUnit e 0 vx (fun x _ d => flwBlockReads d e x) (fun x w d =>
    let r := flwBlocks d e x
    let d1 := visCnt e 3 r.2 (updVis e w.ctx (fun _ => r.1) d)
    let rows := ceilDiv (quarter (denseH x)) 32
    let keep := if r.1.rowA = flwBlockRows x then rows else r.1.rowA / 4 - 1
    releaseBelow e w.ctx (flwRing x 3) keep (releaseBelow e w.ctx (flwRing x 2) keep d1)) d

/-- FLW_PIXEL_ROW_DONE (R132): the previous frame's rows stay four rows longer, as far as block vectors reach. -/
def flwPixelDone (e vx : Nat) (d : Dev) : Dev :=
  endUnit e 1 vx (fun x _ d => flwPixelReads d e x) (fun x w d =>
    let r := flwPixels d e x
    let outs := flwOuts d e x r
    let tiles := flwTiles d e x r
    let d1 := denseDone e w.ctx vx x r outs tiles d
    let rings := [flwRing x 0] ++ (if visFlags x then [flwRing x 5] else []) ++ (if flwPred x ≠ 0 then [flwRing x 4] else [])
    let d2 := rings.foldl (fun d g => afterRow e w.ctx g (denseRows x) x.row d) d1
    releaseBelow e w.ctx (flwRing x 1) (if x.row + 1 = denseRows x then denseRows x else x.row - 4) d2) d

/-! ### The end of a first pass, truncation (R135, R136, R145) -/

/-- The candidate list of a dense context, worst first (R135). -/
def candidates (x : VisCtx) : List VisTile :=
  sortBy (fun (a b : VisTile) => if a.bad ≠ b.bad then b.bad < a.bad else
    a.ty * ceilDiv (denseW x) 32 + a.tx < b.ty * ceilDiv (denseW x) 32 + b.tx) (x.tiles.filter (fun t => t.bad != 0))

def denseListMax (e : Nat) (x : VisCtx) : Nat := if e % 8 = 4 then steListMax x else flwListMax x
def denseWiden (e : Nat) (x : VisCtx) : Nat := if e % 8 = 4 then steWiden x else flwWiden x
def denseList (e : Nat) (x : VisCtx) : Nat := 8 * bits (if e % 8 = 4 then x.w 0x24 else x.w 0x28) 0 23

/-- An entry of the candidate list (R136). -/
def candEntry (e : Nat) (x : VisCtx) (t : VisTile) : List Byte :=
  let level := if denseWiden e x ≠ 0 ∧ denseWiden e x ≤ t.ranges then 2 else 1
  let a := if e % 8 = 4 then entryLow (steDmin x) level t.a else t.a
  leBytes 2 t.tx ++ leBytes 2 t.ty ++ leBytes 2 t.bad ++ leBytes 1 level ++ [0#8] ++ leBytes 2 a
    ++ leBytes 2 (if e % 8 = 4 then 0 else t.b) ++ leBytes 4 0

/-- The words and tile count that a context started with TILES reports (R183, R189); feature engines add nothing to them (R149). -/
def withTiles (e : Nat) (x : VisCtx) (first refined : Option W64) (r : TagReport) : TagReport :=
  match x.starter with
  | .drover _ _ true => if e % 8 < 6 then { r with first := first, refined := refined, tiles := denseTiles x } else r
  | _ => r

/-- A first pass has ended, with its status word (R145, R168): the context awaits a grant, or goes on under the grant it holds;
one that a write started has none to await. -/
def passEnd (e c vx : Nat) (d : Dev) : Dev :=
  let x := getVis d e c
  let code := if x.trunc then 3 else 0
  let word := firstWord e x code
  let granted := match x.tstop with
    | some t => t != 0
    | none => false
  let base := if e % 8 < 6 then 1 else 2
  let d1 := putStatus e x vx (statusAddr e x) 0 word d
  let d2 := updVis e c (fun x => { x with phase := if granted then base + 1 else base, next := 0 }) d1
  match x.starter, x.fold with
  | .drover _ _ _, none => visSignal e x (fun r =>
      withTiles e x (some (BitVec.ofNat 64 word)) none { r with code := code, final := false, flags := reportFlags e code x false }) d2
  | _, some _ => d2
  | _, none => visFree e c (visSignal e x (fun r => r) (putStatus e x vx (statusAddr e x) 1 (refineWord e x 5) d2))

/-- FIRST_PASS_END (R135): the list is written, 64 + 4 cycles an entry after the last row. -/
def firstPassEnd (e c vx : Nat) (d : Dev) : Dev :=
  let x := getVis d e c
  let all := candidates x
  let l := all.take (denseListMax e x)
  if !x.live || x.phase != 0 || x.row != denseRows x || !visMoves d e x || decide (visNow d e x vx < x.due + 64 + 4 * l.length) then d
  else
    let bytes := l.flatMap (candEntry e x)
    let d1 := spadWrite (visParty d e x vx) (e / 8) (denseList e x) bytes d
    let d2 := guardDev (denseListMax e x < all.length) (visErr e 4) d1
    passEnd e c vx (updVis e c (fun x => { x with entries := l.length }) d2)

/-- A context is truncated during its first pass (R145, R168). -/
def truncateCtx (e c vx : Nat) (d : Dev) : Dev :=
  let x := getVis d e c
  guardDev (x.live && x.phase == 0 && 4 ≤ e % 8)
    (updVis e c (fun x => { x with trunc := true
                                   due := if e % 8 < 6 ∧ x.row < denseRows x then visNow d e x vx + 64 * ceilDiv (denseW x) 64 else x.due })) d

def truncAddr (e : Nat) : Nat := addrOf (visBlk e).1 (visBlk e).2 0x18

/-- A write of TRUNC (R148, R170). -/
def truncEffect (e vx : Nat) (v : W32) (d : Dev) : Dev :=
  guardDev (fld v 31 1 == 1 && 4 ≤ e % 8) (truncateCtx e (fld v 0 (if e % 8 < 6 then 6 else 5)) vx) d

/-- A Drover's truncation reaches its context. -/
def truncMsg (e vx : Nat) (d : Dev) : Dev :=
  match takeFirst (fun m : TruncMsg => m.unit == visUnit e && !behind d m.seq m.unit m.inst.q) d.fab.truncs with
  | none => d
  | some (m, rest) =>
    let d1 := { d with fab := { d.fab with truncs := rest } }
    match (List.range (visCtxs e)).find? (fun c => (getVis d e c).live && (match (getVis d e c).starter with
        | .drover i t _ => i == m.inst && t == m.tag
        | _ => false)) with
    | some c => truncateCtx e c vx d1
    | none => d1

/-- A truncated row's planes (R145): ABORTED elements, confidence 0, level 3, CHANGED 1. -/
def truncOuts (e : Nat) (x : VisCtx) : List VisOut :=
  if e % 8 = 4 then denseOuts x (steOut x 0, steOut x 1, steOut x 2) 2 (fun _ _ => 0xFFFB) (fun _ _ => 0) 3
  else denseOuts x (flwOut x 0, flwOut x 1, flwOut x 2) 4 (fun _ _ => flowCode 5) (fun _ _ => 0) 3
    ++ [{ ring := flwOut x 3, row := x.row, bytes := List.replicate (ceilDiv (denseW x) 32) 1#8, tile := 2 }]

/-- TRUNCATED_ROW_WRITE (R145). -/
def truncRow (e c vx : Nat) (d : Dev) : Dev :=
  let x := getVis d e c
  let busy := [0, 1].any (fun dp => visHas d e dp c)
  let outs := truncOuts e x
  if !x.live || !x.trunc || x.phase != 0 || busy || x.row == denseRows x || !visMoves d e x || decide (visNow d e x vx < x.due)
      || !outs.all (fun o => outFree d e x o.ring 1) then d
  else
    let d1 := outs.foldl (fun d o => putOut e x vx o d) d
    let lines := min 32 (denseH x - 32 * x.row)
    let d2 := visCnt e 6 (lines * denseW x) (visCnt e 0 (ceilDiv (denseW x) 32) d1)
    updVis e c (fun x => { x with row := x.row + 1, level3 := x.level3 + ceilDiv (denseW x) 32
                                  due := visNow d e x vx + (if x.row + 1 < denseRows x then 64 * ceilDiv (denseW x) 64 else 0) }) d2

/-! ### Stops (R105) -/

/-- A start of a voided instance that no context has taken is dropped, and reported as stopped. -/
def dropStart (e : Nat) (m : StartMsg) (d : Dev) : Dev :=
  match m.starter with
  | .drover i tag _ => report { inst := i, tag := tag, code := 1, remote := i.q != e / 8 } d
  | _ => d

/-- The last tile of a context's pass completes in this VX cycle, whatever the order of the commands of one cycle (R105, R140). -/
def endsNow (d : Dev) (e c vx : Nat) (x : VisCtx) : Bool :=
  let now := visNow d e x vx
  let ends (dp : Nat) : Bool := match visWork d e dp with
    | some w => w.ctx == c && decide (w.due ≤ now)
    | none => false
  if e % 8 < 2 then pymWhole x || (ends 0 && pymWhole (pymRow d e x).1)
  else if e % 8 < 4 then visWhole e x || (ends 0 && x.row + 1 == wrpRows x)
  else if e % 8 < 6 then
    match x.phase with
    | 0 => (x.row == denseRows x && x.due == now) || (ends 1 && x.row + 1 == denseRows x)
    | 2 => decide (x.entries ≤ x.consumed) || (ends 2 && x.consumed + 1 == x.entries)
    | _ => false
  else
    match x.phase with
    | 1 => (x.stage == 2 && x.next == x.list.length && !visHas d e 1 c)
        || (ends 1 && (if feaMatch x then x.stage == 2 && x.next + 1 == x.list.length else x.stage == 0))
    | 3 => (nextRetry x).isNone || (ends 2 && (nextRetry { x with next := x.next + 1 }).isNone)
    | _ => false

/-- A stop reaches a context (R105): the tile in progress is finished in every datapath, and then it ends with code 1; where its last tile
completes in this very cycle it goes on as if none had come. -/
def stopOne (e vx : Nat) (d : Dev) (c : Nat) : Dev :=
  if endsNow d e c vx (getVis d e c) then d
  else stopIdle e c vx ([0, 1, 2].foldl (cutUnit e c vx) (updVis e c (fun x => { x with stop := true }) d))

/-- VIS_STOP (R105): the next stop of a quadrant's Drover reaches the contexts of a voided instance; Drovers have no order among one
another (R17). (DEDUCED, log 6 and 40.) -/
def visStop (e home vx : Nat) (d : Dev) : Dev :=
  match takeFirst (fun m : StopMsg => m.kind == .engine && m.unit == visUnit e && m.inst.q == home && stopReady d m) d.fab.stops with
  | none => d
  | some (m, rest) =>
    let mine (s : StartMsg) : Bool := s.unit == visUnit e && s.starter.inst == some m.inst
    let gone := (getEng d e).waiting.filter mine ++ d.fab.starts.filter mine
    let d1 := { d with fab := { d.fab with stops := rest, starts := d.fab.starts.filter (fun s => !mine s) } }
    let d2 := updEng e (fun g => { g with waiting := g.waiting.filter (fun s => !mine s) }) d1
    let d3 := gone.foldl (fun d s => dropStart e s d) d2
    ((List.range (visCtxs e)).filter (fun c => (getVis d e c).live && (getVis d e c).starter.inst == some m.inst)).foldl (stopOne e vx) d3

/-! ### Grants and refinement (R138-R141, R165) -/

/-- REFINE_TILE_START (R138): grants that arrive in the same cycle go before. -/
def refineStart (e vx : Nat) (d0 : Dev) : Dev :=
  let d := applyGrants e vx d0
  if (visWork d e 2).isSome || visInFold d e || decide (d.dt < d.wakeAt) then d
  else
    let ok := (List.range (visCtxs e)).filter (fun c =>
      let x := getVis d e c
      x.live && !x.stop && x.phase == 2 && x.consumed < x.entries && patchReady d e x && tileFits d e x && slotFreeIn d (e / 8) (refOut e x))
    let r := arbitrate arbEngine (4 * e + 2) (visCtxs e) (ok.map (fun c => ⟨c, (getVis d e c).dl, 0⟩)) d
    match r.1 with
    | none => r.2
    | some c => beginUnit e 2 c 0 (headCost d e (getVis d e c)) vx r.2

/-- Pixels of an output patch inside the view that hold a reserved code (R120, R121, R148). -/
def codedPatch (e : Nat) (x : VisCtx) (p out : List Byte) : Nat :=
  ((List.range 1024).filter (fun k =>
    let v := if e % 8 = 4 then field out (0x40 + 2 * k) 2 else field out (0x40 + 4 * k) 2
    decide (32 * field p 2 2 + k / 32 < denseH x ∧ 32 * field p 0 2 + k % 32 < denseW x)
      && (if e % 8 = 4 then decide (0xFFF0 ≤ v) else v == 0x8000))).length

/-- REFINE_TILE_WRITE (R140): the output patch is written, and its input slot freed; grants that arrive in the same cycle go before. -/
def refineWrite (e vx : Nat) (d : Dev) : Dev :=
  endUnit e 2 vx (fun x _ d => [(patchAddr d e x, patchLen e)]) (fun x w d =>
    let p := spadPeek d (e / 8) (patchAddr d e x) (patchLen e)
    let out := if e % 8 = 4 then steRefine x p else flwRefine x p
    let d1 := produceSlot (visParty d e x vx) (e / 8) (refOut e x) out x.starter.inst d
    let d2 := ringRelease (e / 8) (refIn e x) 1 (some (visRecv e)) d1
    let two := patchLevel p = 2
    visCnt e 6 (codedPatch e x p out) (visCnt e 2 1 (visCnt e 0 1 (updVis e w.ctx (fun x =>
      { x with consumed := x.consumed + 1, refined := x.refined + 1, refined2 := x.refined2 + b2n two }) d2)))) (applyGrants e vx d)

/-- A context ends its refinement or retry with a code (R141). -/
def endRefine (e c code vx : Nat) (d : Dev) : Dev :=
  let x := getVis d e c
  let word := refineWord e x code
  visFree e c (visSignal e x (fun r => withTiles e x none (some (BitVec.ofNat 64 word))
    { r with code := code, flags := reportFlags e code x true }) (putStatus e x vx (statusAddr e x) 1 word d))

/-- How the refinement or retry of a context ends now, if it does (R141). -/
def refineCode (d : Dev) (e : Nat) (x : VisCtx) : Option Nat :=
  if x.tstop = some 0 then some 5
  else if e % 8 < 6 then
    (if x.entries ≤ x.consumed then some 0 else if patchReady d e x && !tileFits d e x then some 4 else none)
  else match nextRetry x, x.tstop with
    | none, _ => some 0
    | some _, some t => if t < d.dt + retryDt x then some 4 else none
    | some _, none => none

/-- REFINE_END (R141): grants that arrive in the same cycle go before. -/
def refineEnd (e c vx : Nat) (d0 : Dev) : Dev :=
  let d := applyGrants e vx d0
  let x := getVis d e c
  if !x.live || x.phase != (if e % 8 < 6 then 2 else 3) || visHas d e 2 c then d
  else match refineCode d e x with
    | some code => endRefine e c code vx d
    | none => d

/-- REFINE_NO_GRANT_FREE (R141): at the record of an instance that gave no grant. (DEDUCED, log 44.) -/
def noGrantFree (e c vx : Nat) (d : Dev) : Dev :=
  let x := getVis d e c
  match x.starter with
  | .drover i _ _ =>
    guardDev (x.live && x.phase == (if e % 8 < 6 then 1 else 2) && !instLive d i
      && !d.fab.stops.any (fun m => m.kind == .engine && m.unit == visUnit e && m.inst == i)) (endRefine e c 5 vx) d
  | _ => d

/-- GRANT_ARRIVAL (R138). (DEDUCED, log 44.) -/
def grantArrival (e : Nat) (d : Dev) : Dev :=
  match takeFirst (fun m : GrantMsg => m.unit == visUnit e && grantReady d m) d.fab.grants with
  | none => d
  | some (m, _) => deliverGrant e m d

/-! ### Feature engines (R154-R165) -/

/-- FEA_DETECT_ROW_DONE (R154). -/
def feaDetectDone (e vx : Nat) (d : Dev) : Dev :=
  endUnit e 0 vx (fun x w d => feaReads d e x w.unit) (fun x w d =>
    let r := feaDetect d e x w.unit
    let d1 := visCnt e 0 r.cands (visCnt e 2 r.described (visCnt e 3 r.rowDrop (putStore e x vx (feaStore d e x) r.ctx.cells (updVis e w.ctx (fun _ => r.ctx) d))))
    afterRow e w.ctx (x.b (8 + w.unit)) (feaRows x w.unit) (x.rows.getD w.unit 0) (guardDev r.clamped (visErr e 2) d1)) d

/-- The list stored at its address, header first. -/
def storeList (e : Nat) (x : VisCtx) (vx : Nat) (passed : Bool) (d : Dev) : Dev :=
  spadWrite (visParty d e x vx) (e / 8) (feaList x) (listHeader x passed ++ x.list.flatMap featBytes) d

/-- FEA_LIST_WRITE (R158): without matching the first pass ends here. -/
def feaListWrite (e vx : Nat) (d : Dev) : Dev :=
  endUnit e 1 vx (fun x w _ => if w.unit = 0 then storeReads x else []) (fun x w d =>
    if w.unit ≠ 0 then setWork e 1 (some w) d
    else
      let x1 := { feaFormList { x with cells := feaStore d e x } with stage := 1 }
      let d1 := storeList e x1 vx false (updVis e w.ctx (fun _ => x1) d)
      let d2 := guardDev (x1.full != 0) (visErr e 4) d1
      guardDev (!feaMatch x) (passEnd e w.ctx vx) d2) d

/-- FEA_INDEX_BUILD (R166). -/
def feaIndexBuild (e vx : Nat) (d : Dev) : Dev :=
  endUnit e 1 vx (fun x w d => if w.unit = 1 then [(feaPrevList x, 64 + 64 * leNat (spadPeek d (e / 8) (feaPrevList x + 8) 2))] else [])
    (fun x w d =>
      if w.unit ≠ 1 then setWork e 1 (some w) d
      else updVis e w.ctx (fun c => { c with prev := feaPrevious d e x, stage := 2, next := 0, noFlow := x.b 0x34 == 0xFF })
        (putIndex e x vx (feaPrevious d e x) d)) d

/-- FEA_MATCH_FEATURE (R163): the entry rewritten; flow slots below the next cell row's need are freed (R167). -/
def feaMatchFeature (e vx : Nat) (d : Dev) : Dev :=
  endUnit e 1 vx (fun x w d =>
      if w.unit ≠ 2 then []
      else indexReads x ++ (if x.b 0x34 ≠ 0xFF then
        [(inAddr d e x (x.b 0x34) (feaFlowRow x (featAt x x.next)), tileRowBytes (flowPlaneW x) 4)] else []))
    (fun x w d =>
      if w.unit ≠ 2 then setWork e 1 (some w) d
      else
        let f0 := featAt x x.next
        let r := feaNextMatch d e x
        let hit := bit r.2.1.flags 0
        let x1 := { r.1 with list := setAt x.next r.2.1 x.list, next := x.next + 1, matched := x.matched + b2n hit
                             flows := x.flows ++ [feaFlow d e x f0] }
        let d1 := spadWrite (visParty d e x vx) (e / 8) (feaList x + 64 + 64 * x.next) (featBytes r.2.1) (updVis e w.ctx (fun _ => x1) d)
        let d2 := visCnt e 6 r.2.2.2 d1
        let row := f0.y / 16 / feaCell x
        let last := x.next + 1 = x.list.length ∨ (featAt x (x.next + 1)).y / 16 / feaCell x ≠ row
        if x.b 0x34 ≠ 0xFF ∧ last then releaseBelow e w.ctx (x.b 0x34) (((row + 1) * feaCell x) / 2 ^ feaFs x / 32) d2 else d2) d

/-- IDs given from a counter value to the unmatched features, in list order (R164); the counter wraps from 2^32 - 1 to 1. -/
def assignIds : Nat → List Feat → List Feat × Nat
  | c, [] => ([], c)
  | c, f :: r =>
    if bit f.flags 0 then
      let t := assignIds c r
      (f :: t.1, t.2)
    else
      let t := assignIds (if c = 2 ^ 32 - 1 then 1 else c + 1) r
      ({ f with id := c, age := 0, flags := f.flags ||| 2 } :: t.1, t.2)

/-- FEA_TRACK_ASSIGN (R164): the match pass ends. -/
def feaTrackAssign (e c vx : Nat) (d : Dev) : Dev :=
  let x := getVis d e c
  if !x.live || e % 8 < 6 || x.phase != 1 || x.stage != 2 || x.next != x.list.length || visHas d e 1 c || !visMoves d e x then d
  else
    let t := visTouch e x vx [(feaCounter x, 4)] d
    if t.1 then visBadRead e c vx t.2
    else
      let a := assignIds (leNat (spadPeek d (e / 8) (feaCounter x) 4)) x.list
      let x1 := { x with list := a.1 }
      let d1 := spadWrite (visParty d e x vx) (e / 8) (feaCounter x) (leBytes 4 a.2) (updVis e c (fun _ => x1) t.2)
      let d2 := if x.b 0x34 = 0xFF then d1 else releaseBelow e c (x.b 0x34) (ceilDiv (flowPlaneH x) 32) d1
      passEnd e c vx (storeList e x1 vx true d2)

/-- FEA_RETRY_FEATURE (R165): on success the entry is rewritten in one write. -/
def feaRetryFeature (e vx : Nat) (d : Dev) : Dev :=
  endUnit e 2 vx (fun x _ _ => indexReads x) (fun x w d =>
    let r := feaRetry x w.unit
    let hit := bit r.2.1.flags 0
    let x1 := { r.1 with next := w.unit + 1, retried := x.retried + 1, retryHit := x.retryHit + b2n hit
                         list := if hit then setAt w.unit r.2.1 x.list else x.list }
    let d1 := visEv e 59 1 (visCnt e 6 r.2.2.2 (updVis e w.ctx (fun _ => x1) d))
    guardDev hit (fun d => visCnt e 7 1 (spadWrite (visParty d e x vx) (e / 8) (feaList x + 64 + 64 * w.unit) (featBytes r.2.1) d)) d1) (applyGrants e vx d)

/-! ### The commands -/

/-- VIS_START (R101). -/
def execVisStart (q : Fin 4) (k : Fin 8) (batch : Nat) (vx : Fin 5) (s : State) : Out State :=
  onDev (visStart (engOf q k.val) batch vx.val) s
/-- VIS_UNIT_START (R102). -/
def execVisUnitStart (q : Fin 4) (k : Fin 8) (dp : Fin 3) (vx : Fin 5) (s : State) : Out State :=
  onDev (visUnitStart (engOf q k.val) dp.val vx.val) s
/-- PYM_TILE_ROW_DONE (R108). -/
def execPymTileRowDone (q : Fin 4) (k : Fin 2) (vx : Fin 5) (s : State) : Out State := onDev (pymRowDone (engOf q k.val) vx.val) s
/-- WRP_TILE_ROW_DONE (R114). -/
def execWrpTileRowDone (q : Fin 4) (k : Fin 2) (vx : Fin 5) (s : State) : Out State := onDev (wrpRowDone (engOf q (2 + k.val)) vx.val) s
/-- VIS_CONTEXT_COMPLETE (R104). -/
def execVisContextComplete (q : Fin 4) (k : Fin 4) (ctx : Fin 32) (vx : Fin 5) (s : State) : Out State :=
  onDev (visComplete (engOf q k.val) ctx.val vx.val) s
/-- VIS_STOP (R105). -/
def execVisStop (q : Fin 4) (k : Fin 8) (home : Fin 4) (vx : Fin 5) (s : State) : Out State :=
  onDev (visStop (engOf q k.val) home.val vx.val) s
/-- STE_COARSE_ROW_DONE (R127). -/
def execSteCoarseRowDone (q : Fin 4) (vx : Fin 5) (s : State) : Out State := onDev (steCoarseDone (engOf q 4) vx.val) s
/-- STE_FINE_ROW_DONE (R128). -/
def execSteFineRowDone (q : Fin 4) (vx : Fin 5) (s : State) : Out State := onDev (steFineDone (engOf q 4) vx.val) s
/-- FLW_BLOCK_ROW_DONE (R131). -/
def execFlwBlockRowDone (q : Fin 4) (vx : Fin 5) (s : State) : Out State := onDev (flwBlockDone (engOf q 5) vx.val) s
/-- FLW_PIXEL_ROW_DONE (R132). -/
def execFlwPixelRowDone (q : Fin 4) (vx : Fin 5) (s : State) : Out State := onDev (flwPixelDone (engOf q 5) vx.val) s
/-- FIRST_PASS_END (R135). -/
def execFirstPassEnd (q : Fin 4) (flow : Bool) (ctx : Fin 64) (vx : Fin 5) (s : State) : Out State :=
  onDev (firstPassEnd (engOf q (4 + b2n flow)) ctx.val vx.val) s
/-- VIS_TRUNCATE (R145): by a Drover's message, or by a write of TRUNC. -/
def execVisTruncate (q : Fin 4) (k : Fin 8) (write : Option (WriteBy × W32)) (vx : Fin 5) (s : State) : Out State :=
  onDev (fun d => match write with
    | none => truncMsg (engOf q k.val) vx.val d
    | some (by_, v) => guardDev (fld v 31 1 == 1 && 4 ≤ k.val)
        (fun d => committedWrite (originOf d by_) (truncAddr (engOf q k.val)) v (truncEffect (engOf q k.val) vx.val v) d) d) s
/-- TRUNCATED_ROW_WRITE (R145). -/
def execTruncatedRowWrite (q : Fin 4) (flow : Bool) (ctx : Fin 64) (vx : Fin 5) (s : State) : Out State :=
  onDev (truncRow (engOf q (4 + b2n flow)) ctx.val vx.val) s
/-- GRANT_ARRIVAL (R138). -/
def execGrantArrival (q : Fin 4) (k : Fin 8) (s : State) : Out State := onDev (grantArrival (engOf q k.val)) s
/-- REFINE_TILE_START (R138). -/
def execRefineTileStart (q : Fin 4) (flow : Bool) (vx : Fin 5) (s : State) : Out State :=
  onDev (refineStart (engOf q (4 + b2n flow)) vx.val) s
/-- REFINE_TILE_WRITE (R140). -/
def execRefineTileWrite (q : Fin 4) (flow : Bool) (vx : Fin 5) (s : State) : Out State :=
  onDev (refineWrite (engOf q (4 + b2n flow)) vx.val) s
/-- REFINE_END (R141). -/
def execRefineEnd (q : Fin 4) (k : Fin 4) (ctx : Fin 64) (vx : Fin 5) (s : State) : Out State :=
  onDev (refineEnd (engOf q (4 + k.val)) ctx.val vx.val) s
/-- REFINE_NO_GRANT_FREE (R141). -/
def execRefineNoGrantFree (q : Fin 4) (k : Fin 4) (ctx : Fin 64) (vx : Fin 5) (s : State) : Out State :=
  onDev (noGrantFree (engOf q (4 + k.val)) ctx.val vx.val) s
/-- FEA_DETECT_ROW_DONE (R154). -/
def execFeaDetectRowDone (q : Fin 4) (k : Fin 2) (vx : Fin 5) (s : State) : Out State := onDev (feaDetectDone (engOf q (6 + k.val)) vx.val) s
/-- FEA_LIST_WRITE (R158). -/
def execFeaListWrite (q : Fin 4) (k : Fin 2) (vx : Fin 5) (s : State) : Out State := onDev (feaListWrite (engOf q (6 + k.val)) vx.val) s
/-- FEA_INDEX_BUILD (R166). -/
def execFeaIndexBuild (q : Fin 4) (k : Fin 2) (vx : Fin 5) (s : State) : Out State := onDev (feaIndexBuild (engOf q (6 + k.val)) vx.val) s
/-- FEA_MATCH_FEATURE (R163). -/
def execFeaMatchFeature (q : Fin 4) (k : Fin 2) (vx : Fin 5) (s : State) : Out State := onDev (feaMatchFeature (engOf q (6 + k.val)) vx.val) s
/-- FEA_TRACK_ASSIGN (R164). -/
def execFeaTrackAssign (q : Fin 4) (k : Fin 2) (ctx : Fin 32) (vx : Fin 5) (s : State) : Out State :=
  onDev (feaTrackAssign (engOf q (6 + k.val)) ctx.val vx.val) s
/-- FEA_RETRY_FEATURE (R165). -/
def execFeaRetryFeature (q : Fin 4) (k : Fin 2) (vx : Fin 5) (s : State) : Out State := onDev (feaRetryFeature (engOf q (6 + k.val)) vx.val) s

end Sys2Proof.Machine
end

