-- ==== Sys2Proof/Machine/Drover.lean ====
section
/-! DEFINITION. The Drovers (R171-R198): Frame Start notices, admission and reservations, the instructions of programs and chain
tables, reports of units, the drain and the deadline of an instance, with their commands. -/

namespace Sys2Proof.Machine

/-! ### Reservations (R176) -/

/-- A live instance of a stream runs a graph of an image generation. -/
def liveOf (d : Dev) (stream : Nat) (gen gid : Nat) : Bool :=
  d.ctxs.any (fun e => e.2.live && e.2.stream == stream && e.2.gen == gen && e.2.gid == gid)

/-- Live instances of a stream. (DEDUCED, log 47.) -/
def streamLive (d : Dev) (stream : Nat) : Nat := (d.ctxs.filter (fun e => e.2.live && e.2.stream == stream)).length

/-- A density in a list by resource, 0 without one. (DEDUCED, log 47.) -/
def densIn (l : List (Nat × Nat)) (r : Nat) : Nat :=
  match l.find? (fun e => e.1 == r) with
  | some e => e.2
  | none => 0

/-- The density that a reservation holds on a resource (R176): that of its graph, or the larger one of an earlier graph while an
instance of that lives. -/
def resvDensity (d : Dev) (v : Reservation) (r : Nat) : Nat :=
  ((v.olds.filter (fun o => liveOf d v.stream o.1 o.2.1)).map (fun o => densIn o.2.2 r)).foldl max (densIn v.dens r)

/-- USED of a resource in a quadrant (R176). -/
def usedOf (d : Dev) (q r : Nat) : Nat := ((getDrv d q).resv.map (fun v => resvDensity d v r)).foldl (· + ·) 0

/-- The densities of a graph by resource, in range order (R173). -/
def graphDens (ss : List Sect) (g : Graph) : List (Nat × Nat) :=
  ((graphBudgets ss g).filter (fun b => b.kind == 1)).map (fun b => (b.res, b.val))

/-- The reservation of a stream in its home Drover. -/
def findResv (d : Dev) (q stream : Nat) : Option Reservation := (getDrv d q).resv.find? (fun v => v.stream == stream)

/-- The release condition of a reservation (R176): no live instance, and the last admitted Frame Start 2 * P_min old. -/
def resvOver (d : Dev) (v : Reservation) : Bool := streamLive d v.stream == 0 && decide (v.lastFs + 2 * v.pMin ≤ d.dt)

/-- RESERVATION_RELEASE (R176). -/
def resvRelease (q stream : Nat) (d : Dev) : Dev :=
  updDrv q (fun x => { x with resv := x.resv.filter (fun v => v.stream != stream || !resvOver d v) }) d

/-- The reservation that an admission takes or renews (R176). (DEDUCED, log 47.) -/
def resvAdmit (q : Nat) (n : FsNotice) (gen : Nat) (pm : Nat) (dens : List (Nat × Nat)) (d : Dev) : Dev :=
  match findResv d q n.stream with
  | none =>
    let v : Reservation := { stream := n.stream, plane := n.plane, gid := n.gid, gen := gen, lastFs := n.fs, pMin := pm, dens := dens }
    updDrv q (fun x => { x with resv := x.resv ++ [v] }) d
  | some v =>
    let same := v.gid == n.gid && v.gen == gen
    let olds := if same then v.olds else (v.gen, v.gid, v.dens) :: v.olds
    let v' : Reservation :=
      { v with plane := n.plane, gid := n.gid, gen := gen, lastFs := n.fs, pMin := pm, dens := dens
               olds := olds.filter (fun o => liveOf d n.stream o.1 o.2.1) }
    updDrv q (fun x => { x with resv := x.resv.map (fun y => if y.stream == n.stream then v' else y) }) d

/-! ### Notices and the admission test (R177, R178) -/

/-- The graph that a notice would run. -/
def noticeGraph (d : Dev) (n : FsNotice) : Option Graph :=
  if n.hasGraph then findGraph (planeOf d n.plane).sections n.gid else none

/-- The deadline that a notice's instance would get (R178). -/
def noticeDl (d : Dev) (n : FsNotice) : Nat :=
  match noticeGraph d n with
  | some g => n.fs + g.bound
  | none => n.fs

/-- VX cycles of a test (R178): 20, and 2 for each record of the graph's range. -/
def testCycles (d : Dev) (n : FsNotice) : Nat :=
  match noticeGraph d n with
  | some g => 20 + 2 * g.count
  | none => 20

/-- The first waiting notice goes into test when none is. -/
def nextTest (q vx : Nat) (d : Dev) : Dev :=
  let x := getDrv d q
  match x.test, x.waiting with
  | none, n :: r => updDrv q (fun x => { x with waiting := r, test := some (n, vxAt d vx + testCycles d n) }) d
  | _, _ => d

/-- Notices of one VX cycle put in the order of R27: fuel bounds their number. -/
def orderNotices (q : Nat) : Nat → List FsNotice → Dev → List FsNotice × Dev
  | 0, l, d => (l, d)
  | fuel + 1, l, d =>
    match arbitrate arbNotice q 256 (l.map (fun n => ⟨n.stream, noticeDl d n, 0⟩)) d with
    | (none, d1) => (l, d1)
    | (some w, d1) =>
      match takeFirst (fun n : FsNotice => n.stream == w) l with
      | none => (l, d1)
      | some (n, r) =>
        let rest := orderNotices q fuel r d1
        (n :: rest.1, rest.2)

/-- FS_NOTICE (R178, R388): the oldest notices on their way to a Drover reach it in one VX cycle, once its scratchpad is initialised (R203);
from a power fail's t0 on they open nothing (R407). (DESIGN CHOICE, log 5.) -/
def fsNotice (q count vx : Nat) (d : Dev) : Dev :=
  let mine := (d.fab.notices.filter (fun n => n.q == q)).take count
  if mine.isEmpty || !(getSpd d q).initDone then d
  else
    let d0 := { d with fab := { d.fab with notices := d.fab.notices.filter (fun n => !mine.contains n) } }
    if d.pow.fail.isSome then d0 else
    let d1 := idleExit d0
    let r := orderNotices q mine.length mine d1
    nextTest q vx (updDrv q (fun x => { x with waiting := x.waiting ++ r.1 }) r.2)

/-- How a test ends: admission, or a refusal with its reason, sub-code and the failing resource (R177). -/
inductive Verdict177 where
  | accepted
  | refuse (reason sub extra : Nat)
  deriving DecidableEq, Repr

/-- Step 5 of R177: the first record whose resource has no room for the increase. (DEDUCED, log 46.) -/
def overRes (d : Dev) (q : Nat) (v : Option Reservation) (dens : List (Nat × Nat)) : Option Nat :=
  (dens.find? (fun e =>
    let has := match v with
      | some v => resvDensity d v e.1
      | none => 0
    shareInForce d q e.1 < usedOf d q e.1 + (e.2 - has))).map (·.1)

/-- The test of R177, step by step. (DEDUCED, log 46.) -/
def admissionTest (d : Dev) (q : Nat) (n : FsNotice) (g : Graph) : Verdict177 :=
  let p := planeOf d n.plane
  let v := findResv d q n.stream
  let changed := match v with
    | some v => v.gid != n.gid || v.plane != n.plane || v.gen != p.gen
    | none => true
  let pm := match v with
    | some v => if changed then max (pMin p.sections g) v.pMin else pMin p.sections g
    | none => 0
  let early := match v with
    | some v => decide (n.fs < v.lastFs + pm)
    | none => false
  if (List.range 64).all (fun c => (getCtx d q c).held) then .refuse 32 1 0
  else if g.limit ≤ streamLive d n.stream then .refuse 32 2 0
  else if early then .refuse 32 4 0
  else if v.isNone && getF d .drv q 0 16 1 == 1 then .refuse 34 0 0
  else if changed then
    match overRes d q v (graphDens p.sections g) with
    | some r => .refuse 32 3 r
    | none => .accepted
  else .accepted

/-! ### ISPINIT at an admission (R97) -/

/-- The frame of a context takes the set that was committed as if before its Frame Start: its settings, and the mode chosen with
them, whose flag and count replace those of the mode before (R89, R97). -/
def reopenFrame (i stream index : Nat) (d : Dev) : Dev :=
  match ispFrameOf d i stream index with
  | none => d
  | some x =>
    let pipe := i / 16
    let x1 := { x with set := shadowSet d i, activated := true }
    let c := getIsp d i
    let c0 := if c.frame == some x then { c with frame := none } else c
    let x2 := { x1 with mode := tnrModeAt d c0 x1 }
    let undo (d : Dev) : Dev :=
      if !tnrRuns x || x.mode == 0 then d
      else
        let k := if x.mode = 1 then 1 else 2
        let clear (f : Nat) : Nat := if bit f k then f - 2 ^ k else f
        let d1 := ispCnt pipe k (2 ^ 48 - 1) d
        match findInst d1 stream index with
        | some n => updInst n (fun c => { c with flags := clear c.flags }) d1
        | none => d1
    noteMode pipe x2 (undo (updIspFrame i stream index (fun _ => x2) d))

/-- ISPINIT pairs that wait for the first instance of a stream on the new plane, written to the shadow set and committed (R97). (DEDUCED, log 24.) -/
def applyIspInit (stream index p : Nat) (d : Dev) : Dev :=
  let pl := planeOf d p
  let pipe := (routeOf pl.sections stream).pipe
  let i := 16 * pipe + stream % 16
  if !d.cfg.ispInit.contains (i, pl.gen) then d
  else
    let pairs := ctxPairs pl.sections i
    let d1 := pairs.foldl (fun d e => storeFields (addrOf .ispCtx i e.1) e.2 d)
      { d with cfg := { d.cfg with ispInit := d.cfg.ispInit.filter (· != (i, pl.gen)) } }
    let d2 := updIsp i (fun c => { c with active := shadowSet d1 i }) d1
    requestChange { at_ := d.dt, cls := 6, oid := 0, target := addrOf .ispCtx i 0, kind := 0x000B,
                    new := BitVec.ofNat 32 pairs.length, extra := BitVec.ofNat 64 pl.gen } (reopenFrame i stream index d2)

/-! ### What instructions do (R182-R185) -/

/-- The word at a context's program counter. -/
def drvWord (d : Dev) (q : Nat) (x : DrvCtx) : Nat := (mapGet 0#64 (65536 * q + x.pc) d.prog).toNat

/-- A context's registers, by a change. -/
def updSelf (i : InstRef) (f : DrvCtx → DrvCtx) (d : Dev) : Dev := updCtx i.q i.ctx f d

/-- The unit of a START (R183). -/
def startUnit (a : Nat) : UnitKind := if a % 64 < 8 then .me else if a % 64 < 16 then .engine else .fold

/-- START (R183): the start travels to the unit, with the instance's deadline, tag and plane. -/
def drvStart (i : InstRef) (w : Nat) (d : Dev) : Dev :=
  let c := getCtx d i.q i.ctx
  let tag := bits (drvB w) 0 5
  let m : StartMsg := { unit := drvA w, desc := bits (drvC w) 0 23, dl := c.dl, starter := .drover i tag (bit (drvB w) 8),
                        plane := some c.plane }
  idleExit (sendStart m (updSelf i (fun c => { c with units := c.units ++ [⟨startUnit (drvA w), drvA w, tag⟩] }) d))

/-- Bytes that a Drover reads from its scratchpad; those of an uncorrectable quarter are open (R200). (DESIGN CHOICE, log 53.) -/
def drvRead (q ctx a len : Nat) (d : Dev) : List Byte × Dev :=
  let r := spadRead { req := 132, idx := ctx } q a len d
  ((r.1.zipIdx).map (fun e => if quarterState d q ((a + e.2) / 16) = 2 then Config.poisonByte q (a + e.2) else e.1), r.2.2)

/-- STARTDMA (R21, R228): the channel's staging set is loaded from the register image and started with the instance's deadline; to a
channel of another quadrant a control message takes the image. -/
def drvStartDma (i : InstRef) (w : Nat) (d : Dev) : Dev :=
  let c := getCtx d i.q i.ctx
  let tag := bits (drvB w) 0 5
  let ch := 64 * (drvA w % 4) + bits (drvB w) 8 6
  let r := drvRead i.q i.ctx (8 * bits (drvC w) 0 23) 128 d
  let d1 := updSelf i (fun c => { c with units := c.units ++ [⟨.dma, ch, tag⟩] }) r.2
  if ch / 64 = i.q then
    let d2 := loadStaging ch r.1 d1
    dmaStart ch (stagingRegs d2 ch) c.dl (.drover i tag false) d2
  else sendDmaStart { ch := ch, image := r.1, dl := c.dl, starter := .drover i tag false } d1

/-- POST (R182, R323): the template goes to the quadrant's Shepherd with the instance's deadline and the tag. -/
def drvPost (i : InstRef) (w : Nat) (d : Dev) : Dev :=
  let c := getCtx d i.q i.ctx
  let tag := bits (drvB w) 0 5
  let to_ := drvA w % 4
  let r := drvRead i.q i.ctx (8 * bits (drvC w) 0 23) 16 d
  let ev := { eventOf r.1 with dl32 := c.dl % 2 ^ 32 }
  post { q := to_, src := 164 + i.q, ev := ev, dl := c.dl, attach := some i, tag := some (i, tag) }
    (updSelf i (fun c => { c with units := c.units ++ [⟨.post, to_, tag⟩]
                                  posted := if c.posted.contains to_ then c.posted else c.posted ++ [to_] }) r.2)

/-- A jump (R182). -/
def drvJump (i : InstRef) (target : Nat) (d : Dev) : Dev := updSelf i (fun c => { c with pc := target }) d

/-- JOIN and WAITANY park until their mask is met, which it may be at once (R182). -/
def drvPark (i : InstRef) (wt : DrvWait) (d : Dev) : Dev := updSelf i (fun c => ({ c with wait := wt } : DrvCtx).wake) d

/-- WAITDT (R182). -/
def drvWaitDt (i : InstRef) (w : Nat) (d : Dev) : Dev :=
  updSelf i (fun c => if c.fs + drvC w ≤ d.dt then c else { c with wait := .waitDt (c.fs + drvC w) }) d

/-- BROUT (R182). -/
def drvBrout (i : InstRef) (w : Nat) (d : Dev) : Dev :=
  guardDev ((getCtx d i.q i.ctx).tagCode.getD (bits (drvA w) 0 5) 0 != 0) (drvJump i (drvB w)) d

/-- Vn written. -/
def setV (i : InstRef) (n : Nat) (v : W32) (d : Dev) : Dev := updSelf i (fun c => { c with v := setAt (n % 16) v c.v }) d

/-- Vn read. -/
def getV (d : Dev) (i : InstRef) (n : Nat) : W32 := (getCtx d i.q i.ctx).v.getD (n % 16) 0

/-- LDS (R182, R200): a field of a scratchpad word; a poisoned read voids the instance with reason 3. -/
def drvLds (i : InstRef) (w : Nat) (d : Dev) : Dev :=
  let r := spadRead { req := 132, idx := i.ctx } i.q (8 * bits (drvC w) 0 23) 8 d
  if r.2.1 then voidInst 3 false i r.2.2
  else setV i (drvA w) (BitVec.ofNat 32 (bits (leNat r.1) (bits (drvB w) 0 6) (bits (drvB w) 6 5 + 1))) r.2.2

/-- MOVI and ADDI (R182). -/
def drvMovi (i : InstRef) (w : Nat) (d : Dev) : Dev := setV i (drvA w) (BitVec.ofNat 32 (drvC w)) d
def drvAddi (i : InstRef) (w : Nat) (d : Dev) : Dev := setV i (drvA w) (getV d i (drvA w) + BitVec.ofNat 32 (drvC w)) d

/-- The condition of BRCMP (R182). -/
def brCond (cond : Nat) (a b : W32) : Bool :=
  match cond with
  | 0 => a == b
  | 1 => a != b
  | 2 => a.toNat < b.toNat
  | 3 => b.toNat ≤ a.toNat
  | _ => false

/-- BRCMP (R182). -/
def drvBrcmp (i : InstRef) (w : Nat) (d : Dev) : Dev :=
  guardDev (brCond (bits (drvA w) 4 3) (getV d i (drvA w)) (BitVec.ofNat 32 (drvC w))) (drvJump i (drvB w)) d

/-- The slack reserve of an instance's graph (R38). -/
def instReserve (d : Dev) (i : InstRef) : Nat :=
  match instGraph d i with
  | some g => g.reserve
  | none => 0

/-- SLACK (R185). -/
def drvSlack (i : InstRef) (w : Nat) (d : Dev) : Dev :=
  let c := getCtx d i.q i.ctx
  let spent := drvC w + instReserve d i
  if d.dt + spent < c.dl then updSelf i (fun c => { c with tStop := c.dl - spent }) d
  else addCnt .drv i.q 0x34 1 (updSelf i (fun c => { c with tStop := 0, flags := c.flags ||| 16, pc := drvB w }) d)

/-- The engine context that an instance started with a tag. (DEDUCED, log 44.) -/
def taggedEngine (d : Dev) (i : InstRef) (tag : Nat) : Option UnitRef :=
  (getCtx d i.q i.ctx).units.find? (fun u => u.kind == .engine && u.tag == tag)

/-- GRANT (R185): T_stop, or 0 with WITHDRAW, to the tagged context. -/
def drvGrant (i : InstRef) (w : Nat) (d : Dev) : Dev :=
  let tag := bits (drvA w) 0 5
  let t := if bit (drvB w) 0 then 0 else (getCtx d i.q i.ctx).tStop
  match taggedEngine d i tag with
  | none => d
  | some u =>
    let held := (getCtx d i.q i.ctx).granted.contains tag
    let d1 := guardDev (t == 0 && held) (pmuUc i.q 556 1) (pmuEv i.q 51 1 (byMaster 6 i.ctx) .none d)
    addCnt .drv i.q 0x30 1 (sendGrant { unit := u.idx, inst := i, tag := tag, tstop := t }
      (updSelf i (fun c =>
        let rest := c.granted.filter (· != tag)
        { c with granted := if t = 0 then rest else rest ++ [tag] }) d1))

/-- TRUNC (R182). -/
def drvTrunc (i : InstRef) (w : Nat) (d : Dev) : Dev :=
  let tag := bits (drvA w) 0 5
  match taggedEngine d i tag with
  | none => d
  | some u => pmuUc i.q 557 1 (sendTrunc { unit := u.idx, inst := i, tag := tag } d)

/-- A register that WREG may write (R184): a context register of a home pipe, or TX_LO, TX_HI, REG or CMD of a controller. -/
def wregTarget (q a : Nat) : Option RegRef :=
  match locate a with
  | some r =>
    match r.blk with
    | .ispCtx => if r.idx / 64 = q then some r else none
    | .cci => if r.off = 8 ∨ r.off = 0xC ∨ r.off = 0x10 ∨ r.off = 0x14 then some r else none
    | _ => none
  | none => none

/-- A write of a context register of an image pipe by its program or driver (R93, R94). -/
def ispCtxEffect (r : RegRef) (a : Nat) (v : W32) (d : Dev) : Dev :=
  if r.off = 4 then ispCommitEffect r.idx v d else storeFields a v d

/-- WREG (R184): Vn written on behalf of the instance, or discarded. (DEDUCED, log 52.) -/
def drvWreg (i : InstRef) (w : Nat) (d : Dev) : Dev :=
  let a := drvC w
  let v := getV d i (drvA w)
  match wregTarget i.q a with
  | none => digestItem i ⟨a, v, 0, 1⟩ (orR .drv i.q 0x10 2 (addCnt .drv i.q 0x3C 1 d))
  | some r =>
    match r.blk with
    | .cci =>
      if r.off = 0x14 then cciPush (.drover i) r.idx (BitVec.ofNat 32 (putBits v.toNat 16 8 (getCtx d i.q i.ctx).stream)) d
      else committedWrite (.drover i) a v (storeFields a v) d
    | _ => committedWrite (.drover i) a v (ispCtxEffect r a v) d

/-- COMMIT (R182): a write of that context's COMMIT. -/
def drvCommit (i : InstRef) (w : Nat) (d : Dev) : Dev :=
  let k := 16 * (4 * i.q + drvA w % 4) + drvB w % 16
  committedWrite (.drover i) (ispCommitAddr k) 1 (ispCommitEffect k 1) d

/-- SIGNAL (R89, R182): flow complete for the instance's frame, stamped at issue. -/
def drvSignal (i : InstRef) (d : Dev) : Dev :=
  let c := getCtx d i.q i.ctx
  { d with flowDone := mapUpd [] c.stream (fun l => (c.index, d.dt) :: l.take 7) d.flowDone }

/-- EMIT (R187): the context drains. -/
def drvEmit (i : InstRef) (w : Nat) (d : Dev) : Dev := updSelf i (fun c => { c with wait := .emit (drvB w % 4) }) d

/-- The reason of a VOID instruction (R182). -/
def voidReason (c : Nat) : Nat := if c = 0 ∨ c = 7 ∨ 12 < c then 5 else c

/-! ### Chain mode (R186) -/

/-- The pairs of a chain table from an index on: index of the action word, mask, action word; fuel bounds their number. -/
def chainPairs (d : Dev) (q : Nat) : Nat → Nat → List (Nat × Nat × Nat)
  | 0, _ => []
  | fuel + 1, idx =>
    let m := (mapGet 0#64 (65536 * q + idx) d.prog).toNat
    let a := (mapGet 0#64 (65536 * q + idx + 1) d.prog).toNat
    let p := (idx + 1, drvC m, a)
    if drvOp m ≠ 0x15 then [] else if drvOp a = 0x13 then [p] else p :: chainPairs d q fuel (idx + 2)

/-- The actions of a chain-mode context that may issue now: not issued, every bit of the mask set in EV. (DEDUCED, log 49.) -/
def chainReady (d : Dev) (q : Nat) (x : DrvCtx) : List (Nat × Nat × Nat) :=
  if !x.chain || !x.live then []
  else (chainPairs d q 32768 x.pc).filter (fun p => !x.chainDone.contains p.1 && p.2.1 &&& x.ev.toNat == p.2.1)

/-- One chain action. (DEDUCED, log 49.) -/
def chainAct (i : InstRef) (w : Nat) (d : Dev) : Dev :=
  match drvOp w with
  | 0x04 => drvStart i w d
  | 0x05 => drvStartDma i w d
  | 0x06 => drvPost i w d
  | 0x11 => drvCommit i w d
  | 0x12 => drvSignal i d
  | 0x13 => drvEmit i w d
  | _ => d

/-- An instruction of a context issues (R434, R436-R439). -/
def drvIssued (i : InstRef) (index w : Nat) (d : Dev) : Dev :=
  let c := getCtx d i.q i.ctx
  sampleItem i.q 2 (i.serial * 2 ^ 40 + index) (sampleInst d (some i)
    { source := 2, unit := i.ctx, ident := index, detail := w, dl := c.dl, start := d.dt, cls := 0 })
    (pmuEv i.q 48 1 (byMaster 6 i.ctx) .none (pmuUc i.q 552 1 d))

/-- An instruction has parked its context, or is complete (R438). (DEDUCED, log 49.) -/
def drvDone (i : InstRef) (vx : Nat) (d : Dev) : Dev :=
  if !instLive d i then d
  else if (getCtx d i.q i.ctx).wait = .run then drvComplete i vx d
  else match (getPmu d i.q).track.getD 2 none with
    | some t => guardDev (t.key / 2 ^ 40 == i.serial) (sampleStage i.q 2 t.key 1) d
    | none => d

/-- A context's first ready action in table order issued (R180, R186). (DEDUCED, log 49.) -/
def chainIssue (i : InstRef) (vx : Nat) (d : Dev) : Dev :=
  match chainReady d i.q (getCtx d i.q i.ctx) with
  | [] => d
  | p :: _ => drvDone i vx (chainAct i p.2.2
      (updSelf i (fun c => { c with chainDone := c.chainDone ++ [p.1] }) (drvIssued i p.1 p.2.2 d)))

/-! ### Issue (R180) -/

/-- A context has an issuable instruction: it is live, before its deadline's void, and not parked; or a chain action is ready. -/
def issuable (d : Dev) (q : Nat) (x : DrvCtx) : Bool :=
  x.live && decide (d.dt + 2 ≤ x.dl) && (if x.chain then !(chainReady d q x).isEmpty else x.wait == .run)

/-- The opcode that a context issues: LINK for a chain action. (DEDUCED, log 48.) -/
def issueOp (d : Dev) (q : Nat) (x : DrvCtx) : Nat := if x.chain then 0x15 else drvOp (drvWord d q x)

/-- The Drover issues an instruction of one opcode in a VX cycle (R180): that of the context chosen under R27 with class 0; none until its
scratchpad is initialised (R203). Nothing happens when the chosen context's instruction is another one. (DEDUCED, log 48.) -/
def drvIssue (op q vx : Nat) (act : InstRef → Nat → Dev → Dev) (d : Dev) : Dev :=
  let reqs := ((List.range 64).filter (fun c => issuable d q (getCtx d q c))).map (fun c => (⟨c, (getCtx d q c).dl, 0⟩ : ArbReq))
  if vxAt d vx < (getDrv d q).issueAt || !(getSpd d q).initDone then d
  else
    match arbitrate arbDrv q 64 reqs d with
    | (none, _) => d
    | (some c, d1) =>
      let x := getCtx d q c
      let i := ctxRef d q c
      if issueOp d q x ≠ op then d
      else
        let d2 := updDrv q (fun y => { y with issueAt := vxAt d vx + 1 }) (pmuUc q 555 (b2n (decide (1 < reqs.length))) d1)
        if x.chain then chainIssue i vx d2
        else
          let w := drvWord d q x
          let d3 := drvIssued i x.pc w (updCtx q c (fun y => { y with pc := y.pc + 1 }) d2)
          drvDone i vx (act i w (guardDev (op == 0x14) (drvComplete i vx) d3))

/-! ### Admission (R171, R172, R296) -/

/-- The voids, flags and group notices of a frame that came before its admission. (DEDUCED, log 50.) -/
def earlyCauses (i : InstRef) (n : FsNotice) (d : Dev) : Dev :=
  let is (s x : Nat) : Bool := s == n.stream && x == n.index
  let flags := (d.rx.earlyFlags.filter (fun e => is e.1 e.2.1)).foldl (fun m e => m ||| e.2.2) 0
  let d1 := updSelf i (fun c => { c with flags := c.flags ||| flags }) d
  match firstCause (d.rx.early.filter (fun e => is e.stream e.index)) with
  | some v => voidInst v.reason v.remote i d1
  | none => (getDrv d1 i.q).groups.foldl (fun d g => guardDev (g.present.any (fun e => is e.1 e.2)) (groupNoticeAt g i) d) d1

/-- What was kept for a frame until its admission, dropped. -/
def dropEarly (q : Nat) (n : FsNotice) (d : Dev) : Dev :=
  let is (s x : Nat) : Bool := s == n.stream && x == n.index
  let d1 := { d with rx := { d.rx with early := d.rx.early.filter (fun e => !is e.stream e.index)
                                       earlyFlags := d.rx.earlyFlags.filter (fun e => !is e.1 e.2.1) } }
  updDrv q (fun x => { x with groups := x.groups.filter (fun g => g.present.any (fun e => noticePending d1 e.1 e.2)) }) d1

/-- An instance of a step whose job abort has arrived is voided at its admission (R296). (DESIGN CHOICE, log 54.) -/
def abortedStep (i : InstRef) (d : Dev) : Dev :=
  let c := getCtx d i.q i.ctx
  guardDev (d.peer.aborts.any (fun e => e.2 == c.index && carriesJob d c.gen c.gid c.stream e.1)) (voidInst 6 true i) d

/-- Admission of a notice's instance into a context (R171, R172). -/
def admitInstance (q : Nat) (n : FsNotice) (g : Graph) (d : Dev) : Dev :=
  let p := planeOf d n.plane
  let ss := p.sections
  let c := ((List.range 64).find? (fun c => !(getCtx d q c).held)).getD 0
  let i : InstRef := ⟨q, c, d.serial⟩
  let chain := g.mode == 0
  let x : DrvCtx :=
    { live := true, held := true, serial := d.serial, pc := if chain then chainIndex ss g else g.entry, dl := n.fs + g.bound
      fs := n.fs, index := n.index, stream := n.stream, gid := n.gid, plane := n.plane, gen := p.gen, chain := chain }
  let d1 := resvAdmit q n p.gen (pMin ss g) (graphDens ss g) (addCnt .drv q 0x20 1 { d with serial := d.serial + 1 })
  let d2 := applyIspInit n.stream n.index n.plane (updCtx q c (fun _ => x) d1)
  abortedStep i (dropEarly q n (earlyCauses i n d2))

/-- ADMISSION_DECISION (R177, R178, R197): the test in progress completes, and the next waiting notice goes into test. (DEDUCED, log 46.) -/
def admissionDecision (q vx : Nat) (d : Dev) : Dev :=
  match (getDrv d q).test with
  | none => d
  | some (n, at_) =>
    if vxAt d vx < at_ || !(getSpd d q).initDone then d
    else
      let d1 := pmuEv q 50 1 (byMaster 6 0) .none (pmuUc q 553 1 (updDrv q (fun x => { x with test := none }) d))
      let d2 := match noticeGraph d1 n with
        | none => dropEarly q n (sealRefused q n 33 0 0 0 none d1)
        | some g =>
          match admissionTest d1 q n g with
          | .accepted => admitInstance q n g d1
          | .refuse reason sub extra => dropEarly q n (sealRefused q n reason sub extra g.bound (some g) d1)
      nextTest q vx d2

/-! ### Reports, drain and deadline (R181, R187, R189) -/

/-- A report taken into the instance's context (R181, R189): event bit, status code, hold cycles, tile counts, flags. -/
def takeReport (r : TagReport) (c : DrvCtx) : DrvCtx :=
  let tiles (c : DrvCtx) : DrvCtx :=
    match r.first, r.refined with
    | some w, _ => { c with coarse := c.coarse + (r.tiles - bits w.toNat 48 16) }
    | none, some w => { c with refined := c.refined + bits w.toNat 16 16, coarse := c.coarse - bits w.toNat 16 16 }
    | none, none => c
  let c1 := tiles { c with hold := c.hold + r.hold, flags := c.flags ||| r.flags
                           tagCode := if r.tag < 24 then setAt r.tag r.code c.tagCode else c.tagCode }
  if r.setsEv then ({ c1 with ev := c1.ev ||| BitVec.ofNat 32 (2 ^ r.tag) } : DrvCtx).wake else c1

/-- A unit with a tag is done with. -/
def dropUnit (tag : Nat) (us : List UnitRef) : List UnitRef :=
  match takeFirst (fun u : UnitRef => u.tag == tag) us with
  | some (_, r) => r
  | none => us

/-- TAG_REPORT (R181, R186, R195): the oldest report on its way to a Drover reaches it. After the seal it changes nothing but what
the context still waits for (R171, R193). -/
def tagReport (q : Nat) (d : Dev) : Dev :=
  match takeFirst (fun r : TagReport => r.inst.q == q) d.fab.reports with
  | none => d
  | some (r, rest) =>
    let d1 := { d with fab := { d.fab with reports := rest } }
    let d2 := drvWoken d1 r.inst (guardDev (instLive d1 r.inst) (updSelf r.inst (takeReport r)) d1)
    let d3 := guardDev r.final (updInst r.inst (fun c => { c with units := dropUnit r.tag c.units })) d2
    let d4 := match r.void with
      | some reason => voidInst reason r.remote r.inst d3
      | none => d3
    guardDev (instHeld d4 r.inst) (releaseCtx q r.inst.ctx) d4

/-- A started engine context holds nothing that it has still to write for its instance: its first pass has ended and no unit of its
work is in progress (R187). (DEDUCED, log 51.) -/
def engineQuiet (d : Dev) (i : InstRef) (u : UnitRef) : Bool :=
  let e := 8 * (u.idx / 64) + (u.idx % 64 - 8)
  !d.fab.starts.any (fun m => m.unit == u.idx && m.starter.inst == some i)
    && !((mapGet {} e d.eng : VisEng).waiting.any (fun m => m.starter.inst == some i))
    && (List.range 128).all (fun c =>
      let x := getVis d e c
      !x.live || x.starter.inst != some i
        || (x.phase != 0 && (e % 8 < 6 || x.phase != 1) && [0, 1, 2].all (fun dp => match visWork d e dp with
            | some w => w.ctx != c
            | none => true)))

/-- The instance is drained (R187): its DMA sets have ended, so that their writes are acknowledged or in a port's or link's queue;
every ring slot that its units and its image pipe fill is committed. (DEDUCED, log 51.) -/
def instDrained (d : Dev) (i : InstRef) : Bool :=
  let c := getCtx d i.q i.ctx
  c.units.all (fun u => match u.kind with
    | .engine => engineQuiet d i u
    | .post => true
    | _ => false)
    && d.folds.all (fun e => e.2.commits.all (fun k => k.inst != some i))
    && d.isp.ctxs.all (fun e =>
      let mine (o : Option IspFrame) : Bool := match o with
        | some f => f.stream == c.stream && f.index == c.index
        | none => false
      !mine e.2.frame && !mine e.2.next)

/-- DRV_EMIT_DRAIN_END (R187): the drained instance is sealed RESULT, at its deadline - 3 at the latest. (DEDUCED, log 51.) -/
def emitDrainEnd (q c : Nat) (d : Dev) : Dev :=
  let x := getCtx d q c
  match x.wait with
  | .emit g =>
    let i := ctxRef d q c
    guardDev (x.live && decide (d.dt + 3 ≤ x.dl) && instDrained d i) (sealResult i g) d
  | _ => d

/-- DEADLINE_VOID (R187): an instance not sealed by its deadline - 2. (DESIGN CHOICE, log 4; DEDUCED, log 50 and 118.) -/
def deadlineVoid (q c : Nat) (d : Dev) : Dev :=
  guardDev ((getCtx d q c).live && decide ((getCtx d q c).dl ≤ d.dt + 2)) (voidInst 1 false (ctxRef d q c)) d

/-- DRV_WAITDT_EXPIRY (R182). -/
def waitDtExpiry (q c : Nat) (d : Dev) : Dev :=
  match (getCtx d q c).wait with
  | .waitDt t => guardDev (decide (t ≤ d.dt)) (fun d =>
      drvWoken d (ctxRef d q c) (pmuUc q 559 1 (updCtx q c (fun x => { x with wait := .run }) d))) d
  | _ => d

/-- Address of ABORT, and a write of it (R198). -/
def drvAbortAddr (q : Nat) : Nat := addrOf .drv q 0x14
def drvAbortEffect (q : Nat) (v : W32) (d : Dev) : Dev :=
  guardDev (fld v 31 1 == 1) (voidInst 11 false (ctxRef d q (fld v 0 6))) d

/-! ### The commands -/

/-- FS_NOTICE (R178). -/
def execFsNotice (q : Fin 4) (batch : Nat) (vx : Fin 5) (s : State) : Out State := onDev (fsNotice q.val batch vx.val) s

/-- ADMISSION_DECISION (R177). -/
def execAdmissionDecision (q : Fin 4) (vx : Fin 5) (s : State) : Out State := onDev (admissionDecision q.val vx.val) s

/-- RESERVATION_RELEASE (R176). -/
def execReservationRelease (q : Fin 4) (stream : Fin 256) (s : State) : Out State := onDev (resvRelease q.val stream.val) s

/-- NOP (R182). -/
def execDrvNop (q : Fin 4) (vx : Fin 5) (s : State) : Out State := onDev (drvIssue 0x00 q.val vx.val (fun _ _ d => d)) s

/-- JOIN (R182). -/
def execDrvJoin (q : Fin 4) (vx : Fin 5) (s : State) : Out State :=
  onDev (drvIssue 0x01 q.val vx.val (fun i w => drvPark i (.join (BitVec.ofNat 32 (drvC w))))) s

/-- WAITANY (R182). -/
def execDrvWaitany (q : Fin 4) (vx : Fin 5) (s : State) : Out State :=
  onDev (drvIssue 0x02 q.val vx.val (fun i w => drvPark i (.waitAny (drvA w % 16) (BitVec.ofNat 32 (drvC w))))) s

/-- WAITDT (R182). -/
def execDrvWaitdt (q : Fin 4) (vx : Fin 5) (s : State) : Out State := onDev (drvIssue 0x03 q.val vx.val drvWaitDt) s

/-- DRV_WAITDT_EXPIRY (R182). -/
def execDrvWaitdtExpiry (q : Fin 4) (ctx : Fin 64) (s : State) : Out State := onDev (waitDtExpiry q.val ctx.val) s

/-- START (R183). -/
def execDrvStart (q : Fin 4) (vx : Fin 5) (s : State) : Out State := onDev (drvIssue 0x04 q.val vx.val drvStart) s

/-- STARTDMA (R228). -/
def execDrvStartdma (q : Fin 4) (vx : Fin 5) (s : State) : Out State := onDev (drvIssue 0x05 q.val vx.val drvStartDma) s

/-- POST (R182). -/
def execDrvPost (q : Fin 4) (vx : Fin 5) (s : State) : Out State := onDev (drvIssue 0x06 q.val vx.val drvPost) s

/-- BR (R182). -/
def execDrvBr (q : Fin 4) (vx : Fin 5) (s : State) : Out State := onDev (drvIssue 0x07 q.val vx.val (fun i w => drvJump i (drvB w))) s

/-- BROUT (R182). -/
def execDrvBrout (q : Fin 4) (vx : Fin 5) (s : State) : Out State := onDev (drvIssue 0x08 q.val vx.val drvBrout) s

/-- LDS (R182). -/
def execDrvLds (q : Fin 4) (vx : Fin 5) (s : State) : Out State := onDev (drvIssue 0x09 q.val vx.val drvLds) s

/-- MOVI (R182). -/
def execDrvMovi (q : Fin 4) (vx : Fin 5) (s : State) : Out State := onDev (drvIssue 0x0A q.val vx.val drvMovi) s

/-- ADDI (R182). -/
def execDrvAddi (q : Fin 4) (vx : Fin 5) (s : State) : Out State := onDev (drvIssue 0x0B q.val vx.val drvAddi) s

/-- BRCMP (R182). -/
def execDrvBrcmp (q : Fin 4) (vx : Fin 5) (s : State) : Out State := onDev (drvIssue 0x0C q.val vx.val drvBrcmp) s

/-- SLACK (R185). -/
def execDrvSlack (q : Fin 4) (vx : Fin 5) (s : State) : Out State := onDev (drvIssue 0x0D q.val vx.val drvSlack) s

/-- GRANT (R185). -/
def execDrvGrant (q : Fin 4) (vx : Fin 5) (s : State) : Out State := onDev (drvIssue 0x0E q.val vx.val drvGrant) s

/-- TRUNC (R182). -/
def execDrvTrunc (q : Fin 4) (vx : Fin 5) (s : State) : Out State := onDev (drvIssue 0x0F q.val vx.val drvTrunc) s

/-- WREG (R184). -/
def execDrvWreg (q : Fin 4) (vx : Fin 5) (s : State) : Out State := onDev (drvIssue 0x10 q.val vx.val drvWreg) s

/-- COMMIT (R182). -/
def execDrvCommit (q : Fin 4) (vx : Fin 5) (s : State) : Out State := onDev (drvIssue 0x11 q.val vx.val drvCommit) s

/-- SIGNAL (R182). -/
def execDrvSignal (q : Fin 4) (vx : Fin 5) (s : State) : Out State := onDev (drvIssue 0x12 q.val vx.val (fun i _ => drvSignal i)) s

/-- EMIT (R187). -/
def execDrvEmit (q : Fin 4) (vx : Fin 5) (s : State) : Out State := onDev (drvIssue 0x13 q.val vx.val drvEmit) s

/-- DRV_EMIT_DRAIN_END (R187). -/
def execDrvEmitDrainEnd (q : Fin 4) (ctx : Fin 64) (s : State) : Out State := onDev (emitDrainEnd q.val ctx.val) s

/-- VOID (R195). -/
def execDrvVoid (q : Fin 4) (vx : Fin 5) (s : State) : Out State :=
  onDev (drvIssue 0x14 q.val vx.val (fun i w => voidInst (voidReason (drvC w)) false i)) s

/-- LINK (R186): a chain-mode context's next ready action issues; in sequencer mode it is a NOP. -/
def execDrvLink (q : Fin 4) (vx : Fin 5) (s : State) : Out State := onDev (drvIssue 0x15 q.val vx.val (fun _ _ d => d)) s

/-- TAG_REPORT (R181). -/
def execTagReport (q : Fin 4) (s : State) : Out State := onDev (tagReport q.val) s

/-- DEADLINE_VOID (R187). -/
def execDeadlineVoid (q : Fin 4) (ctx : Fin 64) (s : State) : Out State := onDev (deadlineVoid q.val ctx.val) s

/-- DRV_ABORT (R198). -/
def execDrvAbort (by_ : WriteBy) (q : Fin 4) (v : W32) (s : State) : Out State :=
  onDev (guardDev (fld v 31 1 == 1) (fun d =>
    committedWrite (originOf d by_) (drvAbortAddr q.val) v (drvAbortEffect q.val v) d)) s

end Sys2Proof.Machine
end

