-- ==== Sys2Proof/Machine/MeMath.lean ====
section
/-! DEFINITION. Arithmetic of the matrix engines (R254-R266): element formats, exact block sums, the accumulator, the post unit's steps,
tables, reductions, requantisation and the random lanes. -/

namespace Sys2Proof.Machine

/-! ### Formats (R254-R257) -/

/-- Bits of an element, whether a format has block scales, and the family of a code (R254, R255). -/
def meBits (c : Nat) : Nat := [8, 4, 8, 8, 8, 8, 6, 6, 4, 8, 16, 16, 32, 32].getD c 8
def meIsMx (c : Nat) : Bool := 4 ≤ c && c ≤ 9
def meFamily (c : Nat) : Nat := if c ≤ 1 then 0 else if c ≤ 9 then 1 else 2

/-- Largest tile of a pass (R255): rows and columns. -/
def meMaxKr (a w : Nat) : Nat := if (a = 1 ∧ w = 1) ∨ (a = 8 ∧ w = 8) then 256 else if meFamily w = 2 then 64 else 128
def meMaxNc (w : Nat) : Nat := if meFamily w = 2 then 64 else 128

/-- The float layout of an element code. -/
def meLayout (c : Nat) : FFmt :=
  match c with
  | 2 => ⟨4, 3⟩
  | 4 => ⟨4, 3⟩
  | 3 => ⟨5, 2⟩
  | 5 => ⟨5, 2⟩
  | 6 => ⟨3, 2⟩
  | 7 => ⟨2, 3⟩
  | 8 => ⟨2, 1⟩
  | 10 => bf16
  | 11 => f16
  | _ => f32

/-- A pattern of a format all of whose exponents are finite. -/
def finiteDecode (f : FFmt) (n : Nat) : FVal :=
  let s := bit n (f.eb + f.mb)
  let ex := bits n f.mb f.eb
  let fr := bits n 0 f.mb
  if ex = 0 then .fin s fr (f.emin - f.mb) else .fin s (fr + 2 ^ f.mb) ((ex : Int) - f.bias - f.mb)

/-- An integer as a value, scaled by 2^e. -/
def intVal (x : Int) (e : Int) : FVal := .fin (decide (x < 0)) x.natAbs e

/-- An element decoded (R257). -/
def meDecode (c n : Nat) : FVal :=
  match c with
  | 0 => intVal (toSigned 8 n) 0
  | 1 => intVal (toSigned 4 n) 0
  | 9 => intVal (toSigned 8 n) (-6)
  | 13 => intVal (toSigned 32 n) 0
  | 2 => if n % 128 = 127 then .nan false else finiteDecode ⟨4, 3⟩ (n % 256)
  | 4 => if n % 128 = 127 then .nan false else finiteDecode ⟨4, 3⟩ (n % 256)
  | 6 => finiteDecode ⟨3, 2⟩ (n % 64)
  | 7 => finiteDecode ⟨2, 3⟩ (n % 64)
  | 8 => finiteDecode ⟨2, 1⟩ (n % 16)
  | _ => (meLayout c).decode (n % 2 ^ meBits c)

/-! ### Rows (R256) -/

def meElemBytes (c n : Nat) : Nat := ceilDiv (n * meBits c) 8
def meRowBytes (c n : Nat) : Nat := meElemBytes c n + (if meIsMx c then ceilDiv n 32 else 0)
/-- (DEDUCED, log 71.) -/
def meElems (c n : Nat) (bs : List Byte) : List Nat :=
  let v := leNat (bs.take (meElemBytes c n))
  (List.range n).map (fun i => bits v (meBits c * i) (meBits c))
def meScales (c n : Nat) (bs : List Byte) : List Nat :=
  if meIsMx c then ((bs.drop (meElemBytes c n)).take (ceilDiv n 32)).map (·.toNat) else []
def mePack (c : Nat) (es scales : List Nat) : List Byte :=
  let v := es.foldr (fun e a => e % 2 ^ meBits c + 2 ^ meBits c * a) 0
  leBytes (meElemBytes c es.length) v ++ scales.map (BitVec.ofNat 8 ·)

/-! ### Exact sums (R258, R259) -/

/-- A sum of exact values in the making: a multiple m of 2^e, and the special values met. -/
structure ESum where
  m : Int := 0
  e : Int := 0
  nan : Bool := false
  pinf : Bool := false
  ninf : Bool := false
  deriving DecidableEq, Repr

def ESum.addFin (s : ESum) (x : Int) (e : Int) : ESum :=
  if x = 0 then s
  else
    let k := min s.e e
    { s with m := s.m * 2 ^ (s.e - k).toNat + x * 2 ^ (e - k).toNat, e := k }

def ESum.add (s : ESum) (v : FVal) : ESum :=
  match v with
  | .nan _ => { s with nan := true }
  | .inf true => { s with ninf := true }
  | .inf false => { s with pinf := true }
  | .fin sg m e => s.addFin (if sg then -(m : Int) else m) e

/-- The exact product of two values. -/
def exactMul (a b : FVal) : FVal :=
  match a, b with
  | .nan x, _ => .nan x
  | _, .nan x => .nan x
  | .inf s, .inf t => .inf (s != t)
  | .inf s, .fin t m _ => if m = 0 then .nan false else .inf (s != t)
  | .fin s m _, .inf t => if m = 0 then .nan false else .inf (s != t)
  | .fin s m e, .fin t n f => .fin (s != t) (m * n) (e + f)

/-- A value times 2^k. -/
def shiftVal (k : Int) : FVal → FVal
  | .fin s m e => .fin s m (e + k)
  | v => v

/-- Free bits of a NaN result, whose pattern the spec does not say: NaN of a float format. (DESIGN CHOICE, log 72.) -/
def meNan (c : Nat) : Nat :=
  let f := meLayout c
  f.infBits + 1 + Config.nanPayload c % (2 ^ f.mb - 1) + (if Config.nanSign c then f.signBit else 0)

/-- Rounding of an exact sum to FP32, nearest even. -/
def ESum.toF32 (s : ESum) : Nat :=
  if s.nan || (s.pinf && s.ninf) then meNan 12
  else if s.pinf then f32.infBits
  else if s.ninf then f32.infBits + f32.signBit
  else (f32.roundInt 0 false s.m s.e).1

/-- A result with its NaN made the free one. -/
def fixNan (n : Nat) : Nat := if (f32.decode n).isNan then meNan 12 else n

/-- The exact contribution of a pass at one row and column (R259): products decoded, each block of 32 scaled. -/
def dotFloat (a w : Nat) (as ws sa sw : List Nat) : ESum :=
  ((List.range as.length).foldl (fun s k =>
    let x := sa.getD (k / 32) 127
    let y := sw.getD (k / 32) 127
    if x = 255 ∨ y = 255 then { s with nan := true }
    else s.add (shiftVal ((x : Int) + y - 254) (exactMul (meDecode a (as.getD k 0)) (meDecode w (ws.getD k 0))))) {})

/-- The contribution in the integer family (R258). -/
def dotInt (a w : Nat) (as ws : List Nat) : Int :=
  ((as.zip ws).map (fun p => toSigned (meBits a) p.1 * toSigned (meBits w) p.2)).foldl (· + ·) 0

/-- An INT32 accumulator after a contribution, and whether it saturated. -/
def accInt (acc : Nat) (x : Int) : Nat × Bool :=
  let v := toSigned 32 acc + x
  let c := clampInt (-(2 : Int) ^ 31) (2 ^ 31 - 1) v
  (ofSigned 32 c, c != v)

/-- An FP32 accumulator after a contribution. -/
def accFloat (acc : Nat) (s : ESum) : Nat := (s.add (f32.decode acc)).toF32

/-! ### The post unit (R261, R262) -/

/-- A table loaded (R262): its 1,040 bytes. -/
def tabY (t : List Byte) (i : Nat) : Nat := field t (8 + 4 * i) 4

/-- Evaluation of a table (R262). -/
def tableEval (t : List Byte) (a : Nat) : Nat :=
  let e := toSigned 8 (byteAt t 4)
  let y0 := tabY t 0
  let outside (mode y : Nat) := match mode with
    | 1 => a
    | 2 => 0
    | _ => y
  match f32.decode (f32.add 0 (f32.decode a) (f32.decode (field t 0 4)).neg).1 with
  | .nan _ => meNan 12
  | .inf true => outside (byteAt t 5) y0
  | .inf false => outside (byteAt t 6) (tabY t 256)
  | .fin s m x =>
    if s && m ≠ 0 then outside (byteAt t 5) y0
    else
      let k := x - e
      let i := if 0 ≤ k then m * 2 ^ k.toNat else m / 2 ^ (-k).toNat
      if 256 ≤ i then outside (byteAt t 6) (tabY t 256)
      else
        let f : FVal := if 0 ≤ k then .fin false 0 0 else .fin false (m % 2 ^ (-k).toNat) k
        let dy := (f32.add 0 (f32.decode (tabY t (i + 1))) (f32.decode (tabY t i)).neg).1
        fixNan (f32.fma 0 f (f32.decode dy) (f32.decode (tabY t i))).1

/-- max(a, +0) (R261 step 4). -/
def relu (a : Nat) : Nat :=
  match f32.decode a with
  | .nan _ => a
  | .inf s => if s then 0 else a
  | .fin s m _ => if s || m == 0 then 0 else a

/-- What the post unit is set to do (R276): the POST word's fields. -/
structure PostSet where
  act : Nat
  red : Nat
  fin : Nat
  sb : Bool
  rowsub : Bool
  rowmul : Bool
  rsel : Bool
  deriving DecidableEq, Repr

def postSet (w : Nat) : PostSet :=
  { act := bits w 91 2 % 3, red := bits w 94 2, fin := bits w 96 2, sb := bit w 98, rowsub := bit w 99, rowmul := bit w 100, rsel := bit w 101 }

/-- Steps 2 to 5 for one element (R261): scale and bias, and sub and mul, as FP32 patterns. -/
def postElem (p : PostSet) (table : List Byte) (a scale bias sub mul : Nat) : Nat :=
  let a2 := if p.sb then fixNan (f32.fma 0 (f32.decode a) (f32.decode scale) (f32.decode bias)).1 else a
  let a3 := if p.rowsub then fixNan (f32.add 0 (f32.decode a2) (f32.decode sub).neg).1 else a2
  let a4 := match p.act with
    | 1 => relu a3
    | 2 => tableEval table a3
    | _ => a3
  if p.rowmul then fixNan (f32.mul 0 (f32.decode a4) (f32.decode mul)).1 else a4

/-! ### Reductions (R263) -/

/-- The larger of two FP32 patterns; a NaN gives NaN. -/
def maxF32 (a b : Nat) : Nat :=
  if (f32.decode a).isNan || (f32.decode b).isNan then meNan 12
  else
    let key (x : Nat) : Int := if bit x 31 then -((x % 2 ^ 31 : Nat) : Int) else ((x % 2 ^ 31 : Nat) : Int)
    if key a < key b then b else a

/-- The row's elements folded into a reduction: value and count. -/
def reduceRow (red : Nat) (init : Bool) (old : Nat × Nat) (es : List Nat) : Nat × Nat :=
  let c := (if init then 0 else old.2) + es.length
  match red with
  | 0 => old
  | 1 =>
    let l := if init then es else old.1 :: es
    match l with
    | [] => (old.1, c)
    | x :: r => (r.foldl maxF32 x, c)
  | k =>
    let s : ESum := es.foldl (fun s a =>
      let v := f32.decode a
      s.add (if k = 2 then v else exactMul v v)) {}
    ((if init then s else s.add (f32.decode old.1)).toF32, c)

/-- 1 / sqrt(x) for x = p / (q * 2^-k) > 0, rounded to FP32. -/
def invSqrt (p q : Nat) (k : Int) : Nat :=
  -- 1 / sqrt(p * 2^k / q) = sqrt(q / p) * 2^(-k / 2)
  let t0 : Int := 60 - ((bitLen q : Int) - bitLen p)
  let t : Int := if (t0 + k) % 2 = 0 then t0 else t0 + 1
  let num := if 0 ≤ t then q * 2 ^ t.toNat else q
  let den := if 0 ≤ t then p else p * 2 ^ (-t).toNat
  let n := num / den
  let r := isqrt n
  (f32.round 0 false r (-(t + k) / 2) (r * r != n || num % den != 0)).1

/-- The value that a reduction emits (R263): v, 1/v, v/c, 1/sqrt(v/c + EPS). -/
def finValue (fin eps : Nat) (r : Nat × Nat) : Nat :=
  let v := f32.decode r.1
  let c : FVal := .fin false r.2 0
  match fin with
  | 0 => r.1
  | 1 => fixNan (f32.div 0 .one v).1
  | 2 => fixNan (f32.div 0 v c).1
  | _ =>
    match v, f32.decode eps with
    | .nan _, _ => meNan 12
    | _, .nan _ => meNan 12
    | .inf s, .inf t => if s || t then meNan 12 else 0
    | .inf s, .fin _ _ _ => if s then meNan 12 else 0
    | .fin _ m _, .inf t => if t || (r.2 = 0 && m = 0) then meNan 12 else 0
    | .fin s m e, .fin t n f =>
      if r.2 = 0 then (if m = 0 || s then meNan 12 else 0)
      else
        let k := min e f
        let p : Int := (if s then -1 else 1) * ((m * 2 ^ (e - k).toNat : Nat) : Int)
          + (if t then -1 else 1) * ((n * r.2 * 2 ^ (f - k).toNat : Nat) : Int)
        if p < 0 then meNan 12 else if p = 0 then f32.infBits else invSqrt p.toNat r.2 k

/-! ### Requantisation (R264, R265) -/

/-- How a value is rounded: to nearest even, or stochastically with a draw (R265). -/
abbrev Draw := Option Nat

/-- A magnitude m * 2^e cut at 2^q and rounded. -/
def roundMag (r : Draw) (m : Nat) (e q : Int) : Nat :=
  if q ≤ e then m * 2 ^ (e - q).toNat
  else
    let sh := (q - e).toNat
    match r with
    | none => roundDiv m (2 ^ sh)
    | some d => m / 2 ^ sh + (if d < 65536 * (m % 2 ^ sh) / 2 ^ sh then 1 else 0)

/-- A magnitude rounded to the grid of a float layout, as a pattern without sign; beyond the largest exponent it keeps growing. -/
def roundPattern (f : FFmt) (r : Draw) (m : Nat) (e : Int) : Nat :=
  if m = 0 then 0
  else
    let q := max (e + bitLen m - 1 - f.mb) (f.emin - f.mb)
    let n := roundMag r m e q
    if n < 2 ^ f.mb then n
    else if n = 2 ^ (f.mb + 1) then (q + 1 + f.mb + f.bias).toNat * 2 ^ f.mb
    else (q + f.mb + f.bias).toNat * 2 ^ f.mb + (n - 2 ^ f.mb)

/-- The largest finite pattern of an element format that saturates. -/
def meMaxPattern (c : Nat) : Nat :=
  match c with
  | 2 => 0x7E
  | 4 => 0x7E
  | 3 => 0x7B
  | 5 => 0x7B
  | 6 => 0x1F
  | 7 => 0x1F
  | _ => 7

/-- An integer result of w bits, saturated, and whether a limit or a NaN was met. -/
def quantInt (w : Nat) (r : Draw) (v : FVal) : Nat × Bool :=
  match v with
  | .nan _ => (0, true)
  | .inf s => (if s then 2 ^ (w - 1) else 2 ^ (w - 1) - 1, true)
  | .fin s m e =>
    let n : Int := roundMag r m e 0
    let x := if s then -n else n
    let y := clampInt (-((2 ^ (w - 1) : Nat) : Int)) ((2 ^ (w - 1) : Nat) - 1 : Int) x
    (ofSigned w y, y != x)

/-- An element of an output format from an FP32 pattern (R264), for the block exponent k of an MX format; and whether it counts in CNT5. -/
def quantElem (c : Nat) (r : Draw) (k : Int) (a : Nat) : Nat × Bool :=
  let v := shiftVal (-k) (f32.decode a)
  let sgn := bit a 31
  match c with
  | 0 => quantInt 8 r v
  | 1 => quantInt 4 r v
  | 9 => quantInt 8 r (shiftVal 6 v)
  | 12 => (a, false)
  | _ =>
    let f := meLayout c
    let sb := if sgn then f.signBit else 0
    if c = 10 ∨ c = 11 then
      match v with
      | .nan _ => (meNan c, false)
      | .inf _ => (sb + f.infBits, false)
      | .fin _ m e => (sb + min (roundPattern f r m e) f.infBits, false)
    else
      match v with
      | .nan _ => (if c = 2 ∨ c = 4 then 0x7F + sb else if c = 3 ∨ c = 5 then meNan c else 0, false)
      | .inf _ => (sb + (if c = 3 ∨ c = 5 then f.infBits else meMaxPattern c), false)
      | .fin _ m e => (sb + min (roundPattern f r m e) (meMaxPattern c), false)

/-- emax of an MX element format (R264). -/
def meEmax (c : Nat) : Int :=
  match c with
  | 4 => 8
  | 5 => 15
  | 6 => 4
  | 7 => 2
  | 8 => 2
  | _ => 0

/-- Floor of the base-2 logarithm of the largest magnitude of a block; none for a block that is all zero. -/
def blockLog (es : List Nat) : Option Int :=
  es.foldl (fun b a =>
    match f32.decode a with
    | .fin _ m e => if m = 0 then b else
        let t := e + bitLen m - 1
        match b with
        | none => some t
        | some x => some (max x t)
    | _ => b) none

def finite32 (a : Nat) : Bool :=
  match f32.decode a with
  | .fin _ _ _ => true
  | _ => false

/-- A row requantised (R264): its bytes, and how many elements count in CNT5. Draws are given by column. (DEDUCED, log 71.) -/
def quantRow (c : Nat) (draws : List Draw) (es : List Nat) : List Byte × Nat :=
  if meIsMx c then
    let blocks := (chunks 32 (es.length) es)
    let out := (List.range blocks.length).map (fun b =>
      let l := blocks.getD b []
      if l.any (fun a => !finite32 a) then (l.map (fun _ => (0, false)), 0xFF)
      else match blockLog l with
        | none => ((List.range l.length).map (fun i => quantElem c (draws.getD (32 * b + i) none) (-127) (l.getD i 0)), 0)
        | some t =>
          let k := clampInt (-127) 127 (t - meEmax c)
          ((List.range l.length).map (fun i => quantElem c (draws.getD (32 * b + i) none) k (l.getD i 0)), (k + 127).toNat))
    let xs := out.flatMap (·.1)
    (mePack c (xs.map (·.1)) (out.map (·.2)), (xs.filter (·.2)).length)
  else
    let xs := (List.range es.length).map (fun i => quantElem c (draws.getD i none) 0 (es.getD i 0))
    (mePack c (xs.map (·.1)) [], (xs.filter (·.2)).length)

/-! ### Random lanes (R266) -/

/-- One step of a lane. -/
def laneStep (s : Nat) : Nat := if s % 2 = 1 then s / 2 ^^^ 0xB400 else s / 2

/-- The lanes as SEED with a value sets them. -/
def seedLanes (v : Nat) : List Nat :=
  (List.range 128).map (fun l => let x := (v + 0x9E37 * l) % 65536; if x = 0 then 1 else x)

/-- The draws of a row of n elements, and the lanes after it. -/
def drawRow (lanes : List Nat) (n : Nat) : List Draw × List Nat :=
  let next := (List.range 128).map (fun i => let s := lanes.getD i 1; if i < n then laneStep s else s)
  ((List.range n).map (fun i => some (next.getD i 0)), next)

end Sys2Proof.Machine
end

