-- ==== Sys2Proof/Machine/Me.lean ====
section
/-! DEFINITION. Matrix engines (R253-R281): launches, command fetch, the commands of a context, loads, output rows, ends and stops, and
a member's part of a fold run. An engine is numbered as ME0 to ME31; cycles are MX cycles, or in a fold run its fold cycles (R219). -/

namespace Sys2Proof.Machine

def getMe (d : Dev) (m : Nat) : MeSt := mapGet {} m d.me
def updMe (m : Nat) (f : MeSt → MeSt) (d : Dev) : Dev := { d with me := mapUpd {} m f d.me }
def getMeCtx (d : Dev) (m c : Nat) : MeCtx := (getMe d m).ctxs.getD c {}
def updMeCtx (m c : Nat) (f : MeCtx → MeCtx) (d : Dev) : Dev := updMe m (fun e => { e with ctxs := updAt f c e.ctxs }) d
def meCnt (m i n : Nat) (d : Dev) : Dev := addCnt .me m (0x20 + 4 * i) n d
/-- A filterable event of an engine's (R432, R436). -/
def meEv (m e n : Nat) (a : EvAddr) (d : Dev) : Dev := pmuEv (m / 8) e n (byMaster 3 (m % 8)) a d
def meErr (m b : Nat) (d : Dev) : Dev := orR .me m 0xC b d

/-- The engine's cycle: in a fold run the run's start and its fold cycle, so that holds count for nothing (R219). -/
def meNow (d : Dev) (m mx : Nat) : Nat :=
  match (getMe d m).fold with
  | some f => (getFold d (m / 8) f).start + foldCycle d (m / 8) f (mxAt d mx)
  | none => mxAt d mx

/-- The party of the engine's accesses (R29, R223). -/
def meParty (d : Dev) (m mx : Nat) : Party :=
  { req := 133 + m % 8, fold := (getMe d m).fold.map (fun f => (f, foldCycle d (m / 8) f (mxAt d mx))) }

/-! ### Launch blocks (R268, R278) -/

def MeLaunch.dva (l : MeLaunch) : Nat := field l.block 0 8 / 16 * 16
def MeLaunch.count (l : MeLaunch) : Nat := min (field l.block 8 4) 16777216
def MeLaunch.ctx (l : MeLaunch) : Nat := min (byteAt l.block 0xC) 1
def MeLaunch.setup (l : MeLaunch) : Nat := field l.block 0x10 4
def MeLaunch.status (l : MeLaunch) : Nat := field l.block 0x14 4

/-- Bases outside a fold: the start values (R269). -/
def MeLaunch.starts (l : MeLaunch) : List Nat := (List.range 4).map (fun j => bits (field (tableEntry (l.block.drop 0x20) 16 j) 0 4) 0 23)

/-- Base entries for unit u of a fold run (R268, R270). -/
def MeLaunch.bases (l : MeLaunch) (u : Nat) : List Nat :=
  (List.range 4).map (fun j =>
    let e := tableEntry (l.block.drop 0x20) 16 j
    let v : Int := (bits (field e 0 4) 0 23 : Nat) + (u : Int) * toSigned 32 (field e 4 4)
    let w : Int := (bits (field e 8 4) 0 23 : Nat)
    let n := field e 0xC 4
    ofSigned 23 (if n = 0 then v else w + (v - w) % (n : Int)))

/-- Commands of a run: a fold member's at most 256 (R274). -/
def MeRun.count (r : MeRun) : Nat := if r.fold.isSome then min r.launch.count 256 else r.launch.count
def MeRun.setupCount (r : MeRun) : Nat := min r.launch.setup r.count

/-- The index that the run may not reach now: in a fold the setup's end, then in a unit the template's. -/
def MeRun.limit (r : MeRun) : Nat :=
  if r.fold.isNone then r.count else if !r.setup then r.setupCount else if r.inUnit then r.count else 0

def satTo24 (n : Nat) : Nat := min n 0xFFFFFF

/-- The status word (R278). -/
def meStatusWord (code : Nat) (r : MeRun) : Nat := code + 2 ^ 16 * satTo24 r.completed + 2 ^ 40 * satTo24 r.skipped

def putMeStatus (m mx code : Nat) (r : MeRun) (d : Dev) : Dev :=
  guardDev (bit r.launch.status 31)
    (spadWriteWord (meParty d m mx) (m / 8) (bits r.launch.status 0 23) (meStatusWord code r)) d

/-- The void reason of a launch's end code (R279, R280). -/
def meVoidReason : Nat → Option Nat
  | 2 => some 3
  | 3 => some 2
  | 4 => some 3
  | _ => none

/-- A launch's starter signalled with the end code (R278). -/
def meSignal (m : Nat) (l : MeLaunch) (code : Nat) (d : Dev) : Dev :=
  match l.starter with
  | .drover i tag _ => report { inst := i, tag := tag, code := code, void := meVoidReason code, remote := i.q != m / 8 } d
  | .write => post { q := m / 8, src := 128 + m % 8, dl := l.dl,
                     ev := { typedEvent d (m / 8) 1 (bits l.status 0 23) with dl32 := l.dl % 2 ^ 32, flags := errorFlag code } } d
  | .none => d

/-- A launch that never began ends with a code. -/
def dropLaunch (m mx : Nat) (l : MeLaunch) (code : Nat) (d : Dev) : Dev :=
  meSignal m l code (putMeStatus m mx code { no := 0, launch := l } d)

/-! ### Starts (R269) -/

/-- The engine takes starts (R281, R203). -/
def meTakes (d : Dev) (m : Nat) : Bool := getF d .me m 0 0 1 == 1 && (getSpd d (m / 8)).initDone

/-- The lowest free entry of a context's launch queue. -/
def freeLaunch (d : Dev) (m c : Nat) : Option Nat := (List.range 16).find? (fun i => (mapGet none i (getMeCtx d m c).queue).isNone)

/-- The context that a start's block names. -/
def startCtx (d : Dev) (m : Nat) (s : StartMsg) : Nat := min (byteAt (spadPeek d (m / 8) (8 * s.desc) 128) 0xC) 1

/-- A start accepted: its block is copied into the context's queue; an uncorrectable block ends it with code 2. -/
def acceptLaunch (m slot mx : Nat) (s : StartMsg) (d : Dev) : Dev :=
  let r := spadRead (meParty d m mx) (m / 8) (8 * s.desc) 128 d
  let l : MeLaunch := { addr := s.desc, block := r.1, dl := s.dl, starter := s.starter }
  if r.2.1 then dropLaunch m mx l 2 (meErr m 1 r.2.2)
  else idleExit (updMeCtx m l.ctx (fun x => { x with queue := mapSet none slot (some l) x.queue }) r.2.2)

/-- ME_LAUNCH_START (R269): the start that has waited longest of those whose context has a free queue entry is accepted, or else the next that
arrives is accepted or waits. -/
def meLaunchStart (m mx : Nat) (d : Dev) : Dev :=
  let unit := 64 * (m / 8) + m % 8
  let free (s : StartMsg) : Option Nat := if meTakes d m then freeLaunch d m (startCtx d m s) else none
  let arrive (d : Dev) : Dev :=
    match takeFirst (fun s : StartMsg => s.unit == unit && startReady d s) d.fab.starts with
    | none => d
    | some (s, rest) =>
      let d1 := { d with fab := { d.fab with starts := rest } }
      match free s with
      | some i => acceptLaunch m i mx s d1
      | none => meCnt m 7 1 (updMe m (fun e => { e with waiting := e.waiting ++ [s] }) d1)
  match takeFirst (fun s => (free s).isSome) (getMe d m).waiting with
  | none => arrive d
  | some (s, r) => acceptLaunch m ((free s).getD 0) mx s (updMe m (fun e => { e with waiting := r }) d)

/-! ### Command fetch (R244, R274, R280) -/

/-- Commands fetched ahead at most. -/
def meAhead : Nat := 256

/-- The run of a context that issues: a fold's part where there is one, else the launch, which pauses while the engine is in a fold. -/
def meActive (d : Dev) (m c : Nat) : Option MeRun :=
  let x := getMeCtx d m c
  match x.frun with
  | some r => some r
  | none => if (getMe d m).fold.isSome then none else x.run

def updRun (m c : Nat) (inFold : Bool) (f : MeRun → MeRun) (d : Dev) : Dev :=
  updMeCtx m c (fun x => if inFold then { x with frun := x.frun.map f } else { x with run := x.run.map f }) d

/-- The next line of commands asked for, when there is room for all of it. -/
def meFetch (m c vx : Nat) (d : Dev) : Dev :=
  match meActive d m c with
  | none => d
  | some r =>
    let n := r.cmds.length
    let dva := r.launch.dva + 16 * n
    let len := min (64 - dva % 64) (16 * (r.count - n))
    if r.fetching || r.stop.isSome || r.ended || r.count ≤ n || meAhead < n - r.index + len / 16 then d
    else
      let who : MemWho := .meFetch m c r.no
      let f : ReqFor := { q := m / 8, by_ := byMaster 3 (m % 8), dva := dva }
      let w : Walk := { cache := 32 + m, dva := dva, use := 0, dl := r.launch.dl, who := who, source := 64 + m % 8, len := len, due := 0, for_ := f }
      let t := translate (m / 8) w vx d
      match t.1 with
      | .pa a => updRun m c r.fold.isSome (fun r => { r with fetching := true }) (dramQueue { dl := r.launch.dl, pa := a, len := len, who := who, for_ := f } t.2)
      | .wait =>
        let walking := (walksOf t.2 (m / 8)).any (fun w => w.who == who)
        updRun m c r.fold.isSome (fun r => { r with fetching := walking }) t.2
      | .fault k => updRun m c r.fold.isSome (fun r => { r with fetching := true })
          (returnMem { who := who, fault := some (k, dva), due := vxAt d vx } t.2)

/-! ### A fold's part (R216, R217, R274) -/

/-- The code that a fold start signals to its starter, with the word written at its status address (R226). -/
def foldStatus (q : Nat) (s : FoldStartRec) (code conflicts holds : Nat) (d : Dev) : Dev :=
  let a := field s.desc 8 4
  guardDev (bit a 31) (fun d => spadWriteWord { req := 151 } q (bits a 0 23)
    (code + 2 ^ 16 * satTo 16 conflicts + 2 ^ 32 * satTo 32 holds) d) d

def foldSignal (q f : Nat) (s : FoldStartRec) (code holds : Nat) (void : Option Nat) (d : Dev) : Dev :=
  match s.starter with
  | .drover i tag _ => report { inst := i, tag := tag, code := code, hold := holds, void := void, remote := i.q != q } d
  | .write => post { q := q, src := 148 + f, dl := s.dl,
                     ev := { typedEvent d q 1 (bits (field s.desc 8 4) 0 23) with dl32 := s.dl % 2 ^ 32, flags := errorFlag code } } d
  | .none => d

/-- A start that never ran ends with a code. -/
def dropFoldStart (q f : Nat) (s : FoldStartRec) (code : Nat) (void : Option Nat) (d : Dev) : Dev :=
  foldSignal q f s code 0 void (foldStatus q s code 0 0 d)

/-- The part of a fold's matrix engines in the start that runs next is dropped. -/
def clearParts (q f : Nat) (d : Dev) : Dev :=
  (List.range 8).foldl (fun d k =>
    updMe (8 * q + k) (fun e => { e with ctxs := e.ctxs.map (fun x =>
      match x.frun with
      | some r => if r.fold == some f then { x with frun := none } else x
      | none => x) }) d) d

/-- The start that a fold was to run next is dropped with a code (R279, R280). -/
def dropFoldNext (q f code : Nat) (d : Dev) : Dev :=
  match (getFold d q f).next with
  | some s => dropFoldStart q f s code (meVoidReason code) (clearParts q f (updFold q f (fun y => { y with next := none }) d))
  | none => d

/-- The random lanes set anew (R266): rows that enter from now on draw from the new states, those that entered before from the old ones. -/
def newLanes (m now seed : Nat) (d : Dev) : Dev :=
  updMe m (fun e =>
    let old := if e.ctxs.all (fun x => x.outs.isEmpty) then [] else e.lanes
    { e with lanes := old ++ [(now, seedLanes seed)] }) d

/-- RESEED of a launch that has commands (R269). -/
def reseed (m now : Nat) (l : MeLaunch) (d : Dev) : Dev :=
  guardDev (bit (byteAt l.block 0xD) 0 && l.count != 0) (newLanes m now (field l.block 0xE 2)) d

/-- A member's descriptor taken up (R274): a part for each context, and its fetch begins. -/
def meFoldLoad (m f : Nat) (desc : List Byte) (dl vx : Nat) (d : Dev) : Dev :=
  (List.range 2).foldl (fun d c =>
    let l : MeLaunch := { addr := 0, block := (desc.drop (128 * c)).take 128, dl := dl, starter := .none }
    let r : MeRun := { no := d.serial, launch := l, fold := some f, bases := l.bases 0, setup := min l.setup (min l.count 256) == 0 }
    let d1 := guardDev (256 < l.count) (meErr m 2) { d with serial := d.serial + 1 }
    meFetch m c vx (reseed m (meNow d m (2 * vx)) l (updMeCtx m c (fun x => { x with frun := some r }) d1))) d

/-- Rows have entered that issued, so the engine is between commands. -/
def meSettled (d : Dev) (m mx : Nat) : Bool := (getMe d m).ctxs.all (fun x => x.issueAt ≤ mxAt d mx)

/-- The member is between units of work (R217, R274): its commands are fetched and its setup has issued. -/
def meFoldReady (d : Dev) (m mx : Nat) : Bool :=
  meSettled d m mx && (getMe d m).ctxs.all (fun x => match x.frun with
    | some r => r.count ≤ r.cmds.length && r.setup && r.stop.isNone
    | none => false)

/-- A unit is in progress in some context. -/
def meFoldBusy (d : Dev) (m : Nat) : Bool := (getMe d m).ctxs.any (fun x => match x.frun with
  | some r => r.inUnit
  | none => false)

/-- The next unit begins in both contexts (R270, R274). -/
def meFoldUnit (m : Nat) (d : Dev) : Dev :=
  (List.range 2).foldl (fun d c =>
    updRun m c true (fun r => { r with index := r.setupCount, bases := r.launch.bases r.unit, unit := r.unit + 1,
                                       inUnit := r.setupCount < r.count && r.stop.isNone }) d) d

/-- Cycles of the engine moved on by n. -/
def shiftCycles (n : Nat) (e : MeSt) : MeSt :=
  let ld : MeLoad → MeLoad := fun l => match l with
    | .tile b t u => .tile b t (u + n)
    | .table s t u => .table s t (u + n)
  { e with portUntil := e.portUntil + n, inputUntil := e.inputUntil.map (· + n)
           lanes := e.lanes.map (fun p => (p.1 + n, p.2))
           ctxs := e.ctxs.map (fun x => { x with
             issueAt := x.issueAt + n, loads := x.loads.map ld, entering := x.entering.map (fun e => { e with at_ := e.at_ + n })
             bufs := x.bufs.map (fun b => { b with usable := b.usable + n, free := b.free + n })
             luts := x.luts.map (fun b => { b with usable := b.usable + n })
             outs := x.outs.map (fun o => { o with entered := o.entered + n, due := o.due + n }) }) }

/-- MACs performed, counted in units of 16,384 (R436). (DEDUCED, log 110.) -/
def countMacs (m n : Nat) (d : Dev) : Dev :=
  let k := (getMe d m).macs + n
  meEv m 42 (k / 16384) .none (updMe m (fun e => { e with macs := k % 16384 }) d)

/-- Rows of a kind enter, or are passed over (R258, R271, R278, R281): counts, and their runs' skipped rows. -/
def enterRows (m : Nat) (is : MeEnter → Bool) (d : Dev) : Dev :=
  (List.range 2).foldl (fun d c =>
    let l := (getMeCtx d m c).entering.filter is
    let k := (l.filter (fun e => !e.skipped)).length
    let sat := (l.map (·.sat)).foldl (· + ·) 0
    let skips (r : MeRun) : MeRun := { r with skipped := r.skipped + (l.filter (fun e => e.skipped && e.key / 2 ^ 40 == r.no)).length }
    guardDev (!l.isEmpty) (fun d =>
      countMacs m ((l.map (·.macs)).foldl (· + ·) 0) <| guardDev (sat != 0) (fun d => meErr m 4 (meEv m 45 sat .none (meCnt m 5 sat d))) <|
      meEv m 41 (l.length - k) .none <| meEv m 40 k .none <| meCnt m 3 (l.length - k) <| meCnt m c k <|
      updMe m (fun e => { e with busy := e.busy + k }) <|
      updMeCtx m c (fun x => { x with entering := x.entering.filter (fun e => !is e), run := x.run.map skips, frun := x.frun.map skips }) d) d) d

/-- The end of the run for a member (R225, R274): status words, and its time is the wheel's again. -/
def meFoldEnd (m mx code : Nat) (d0 : Dev) : Dev :=
  let d := enterRows m (fun e => e.at_ ≤ meNow d0 m mx) d0
  let d1 := (List.range 2).foldl (fun d c =>
    match (getMeCtx d m c).frun with
    | some r => updMeCtx m c (fun x => { x with frun := none }) (putMeStatus m mx code r d)
    | none => d) d
  let late := mxAt d1 mx - meNow d1 m mx
  updMe m (fun e => { shiftCycles late e with fold := none }) d1

/-! ### Launches begin (R269) -/

/-- ME_LAUNCH_BEGIN (R269): an idle context takes the queued launch that R27 chooses, and RESEED applies. -/
def meLaunchBegin (m c mx : Nat) (d : Dev) : Dev :=
  let x := getMeCtx d m c
  if x.run.isSome || x.frun.isSome || (getMe d m).fold.isSome || decide (d.dt < d.wakeAt) || !(getSpd d (m / 8)).initDone then d
  else
    let reqs := (List.range 16).filterMap (fun i => (mapGet none i x.queue).map (fun l => (⟨i, l.dl, 0⟩ : ArbReq)))
    let w := arbitrate arbMe (2 * m + c) 16 reqs d
    match w.1 with
    | none => w.2
    | some i =>
      match mapGet none i x.queue with
      | none => w.2
      | some l =>
        let r : MeRun := { no := w.2.serial, launch := l, bases := l.starts }
        let d1 := updMeCtx m c (fun x => { x with queue := mapSet none i none x.queue, run := some r, issueAt := max x.issueAt (mxAt d mx) })
          { w.2 with serial := w.2.serial + 1 }
        meFetch m c (mx / 2) (reseed m (mxAt d mx) l d1)

/-- The stop of a run's issue in a context (R279): its rows that have not entered do not, and leave the accumulators as they were; the
command whose rows they are is not completed. -/
def cutRows (m c no now : Nat) (d0 : Dev) : Dev :=
  let mine (key : Nat) : Bool := key / 2 ^ 40 == no
  let d := enterRows m (fun e => mine e.key && e.at_ ≤ now) d0
  let late := (getMeCtx d m c).entering.filter (fun e => mine e.key)
  let less (r : MeRun) : MeRun := if r.no = no then { r with completed := r.completed - 1 } else r
  let undo (x : MeCtx) : MeCtx :=
    let acc := x.was.getD x.acc
    { x with outs := x.outs.filter (fun o => !mine o.key || o.entered ≤ now), issueAt := min x.issueAt (now + 1), was := none
             entering := x.entering.filter (fun e => !mine e.key), run := x.run.map less, frun := x.frun.map less
             acc := (late.filter (fun e => !e.skipped)).foldl (fun y e =>
               mapSet (List.replicate 128 0) e.row (mapGet (List.replicate 128 0) e.row acc) y) x.acc }
  let d1 := guardDev (!late.isEmpty) (fun d =>
    updMe m (fun e => { e with inputUntil := updAt (fun u => min u (now + 1)) c e.inputUntil }) (updMeCtx m c undo d)) d
  match (getPmu d (m / 8)).track.getD 1 none with
  | some t => guardDev (mine t.key && (getMeCtx d1 m c).outs.all (fun o => o.key != t.key)) (sampleEnd (m / 8) 1 t.key 0 true) d1
  | none => d1

/-- A context's run stopped with a code; in a fold the whole run stops, or the start is dropped before it (R225, R279). -/
def meSetStop (m c code : Nat) (d : Dev) : Dev :=
  match meActive d m c with
  | none => d
  | some r =>
    if r.stop.isSome then d
    else
      let d1 := updRun m c r.fold.isSome (fun r => { r with stop := some code, inUnit := false }) d
      match r.fold with
      | some f =>
        if (getMe d m).fold.isSome then updFold (m / 8) f (fun s => { s with stop := some (s.stop.getD code), waiting := [] }) d1
        else dropFoldNext (m / 8) f code d1
      | none => d1

/-- A context's run stopped with a code, and what of it has not entered the array (R279). -/
def meStopRun (m c mx code : Nat) (d : Dev) : Dev :=
  match meActive d m c with
  | none => d
  | some r => cutRows m c r.no (meNow d m mx) (meSetStop m c code d)

/-- ME_COMMAND_FETCH_RETURN (R280): the line asked for arrives, or a fault or error ends the launch; in a fold it drops the start. (DEDUCED, log 73.) -/
def meFetchReturn (m c mx : Nat) (d : Dev) : Dev :=
  let vx := mx / 2
  match meActive d m c with
  | none => d
  | some r =>
    let mine (x : MemReturn) : Bool := x.who == .meFetch m c r.no && decide (x.due ≤ vxAt d vx)
    match takeFirst mine d.memsys.returns with
    | none => meFetch m c vx d
    | some (x, rest) =>
      let d1 := { d with memsys := { d.memsys with returns := rest } }
      let code := match x.fault with
        | some (0, _) => 4
        | some _ => 3
        | none => if x.bad then 4 else 0
      if code ≠ 0 then
        let d2 := meErr m 8 d1
        match r.fold with
        | none => meStopRun m c mx code d2
        | some f => dropFoldNext (m / 8) f code d2
      else
        let ws := (chunks 16 4 x.bytes).map leNat
        meFetch m c vx (updRun m c r.fold.isSome (fun r =>
          { r with cmds := r.cmds ++ ws, fetchedAt := r.fetchedAt ++ ws.map (fun _ => d.dt), fetching := false })
          (meEv m 46 x.bytes.length (.dva (r.launch.dva + 16 * r.cmds.length)) d1))

/-! ### Issue (R271-R273) -/

def opOf (cmd : Nat) : Nat := bits cmd 0 8

/-- What a command needs to issue, and what issuing it does: none where it waits. -/
abbrev MeAct := MeRun → Nat → Nat → Dev → Option Dev

/-- No output of the context is on its way, and no load (R272, R273). -/
def meQuiet (x : MeCtx) : Bool := x.outs.isEmpty && x.loads.isEmpty

/-- The sampler's key of a command, and its record (R438, R439). -/
def meKey (r : MeRun) : Nat := r.no * 2 ^ 40 + r.index
def meSample (m c cmd : Nat) (r : MeRun) (d : Dev) : Dev :=
  sampleStage (m / 8) 1 (meKey r) 1 (sampleItem (m / 8) 1 (meKey r) (sampleInst d r.launch.starter.inst
    { source := 1, flags := if r.fold.isSome then 8 else 0, unit := m % 8 * 2 + c, ident := r.index % 2 ^ 24 + 2 ^ 32 * (r.launch.addr % 2 ^ 23)
      detail := cmd % 2 ^ 64, dl := r.launch.dl, start := r.fetchedAt.getD r.index d.dt, cls := 0 }) d)

/-- A tracked command with no output row on its way has reached its last stage. -/
def meSampleOver (m c key vx : Nat) (d : Dev) : Dev :=
  guardDev ((getMeCtx d m c).outs.all (fun o => o.key != key)) (sampleEnd (m / 8) 1 key vx false) d

/-- A run may issue its next command in this cycle, as far as order, fetch, the context and FENCE go (R271, R273, R280). -/
def meReady (d : Dev) (m c now : Nat) (r : MeRun) : Bool :=
  let x := getMeCtx d m c
  r.stop.isNone && !r.ended && decide (r.index < r.limit) && decide (r.index < r.cmds.length) && decide (x.issueAt ≤ now)
    && (!bit (r.cmds.getD r.index 0) 8 || meQuiet x) && decide (d.wakeAt ≤ d.dt)

/-- A context issues its next command when that is an operation of the kind, in order, one in a cycle (R271); FENCE waits (R273). (DEDUCED, log 70.) -/
def meIssue (m c mx : Nat) (is : Nat → Bool) (act : MeAct) (d : Dev) : Dev :=
  match meActive d m c with
  | none => d
  | some r =>
    let now := meNow d m mx
    let cmd := r.cmds.getD r.index 0
    if !meReady d m c now r || !is (opOf cmd) then d
    else
      match act r cmd now (meSample m c cmd r d) with
      | none => d
      | some d1 =>
        let step (y : MeRun) : MeRun :=
          let i := y.index + 1
          { y with index := i, completed := y.completed + b2n y.stop.isNone, setup := y.setup || (y.fold.isSome && i == y.setupCount)
                   inUnit := y.inUnit && i < y.count }
        meFetch m c (mx / 2) (updMeCtx m c (fun x => { x with issueAt := max x.issueAt (now + 1) }) (updRun m c r.fold.isSome step
          (meSampleOver m c (meKey r) (mx / 2) d1)))

/-- The word address of a 25-bit address field (R270). (DEDUCED, log 70.) -/
def meAddr (r : MeRun) (v : Nat) : Nat := (r.bases.getD (v % 4) 0 + v / 4) % 2 ^ 23

/-- Scratchpad ranges read, by byte address and length: whether one is uncorrectable, and the counts. -/
def meTouch (m mx : Nat) (rs : List (Nat × Nat)) (d : Dev) : Bool × Dev :=
  rs.foldl (fun a r =>
    let t := spadRead (meParty a.2 m mx) (m / 8) r.1 r.2 a.2
    (a.1 || t.2.1, t.2.2)) (false, d)

/-- Rows of a command read one after another, each with its ranges: the first that is uncorrectable, which is not read past, or else how
many rows there are (R279). (DEDUCED, log 73.) -/
def meRowsRead (m mx n : Nat) (ranges : Nat → List (Nat × Nat)) (left : List Nat) (d : Dev) : Nat × Dev :=
  left.foldl (fun a i =>
    if a.1 ≤ i then a
    else
      let t := meTouch m mx (ranges i) a.2
      (if t.1 then i else a.1, t.2)) (n, d)

/-- The command's reads made; an uncorrectable one stops the context (R279). -/
def meReading (m c mx : Nat) (rs : List (Nat × Nat)) (f : Dev → Dev) (d : Dev) : Dev :=
  let t := meTouch m mx rs d
  if t.1 then meStopRun m c mx 2 (meErr m 1 t.2) else f t.2

/-! ### Formats in force (R276, R277) -/

/-- The activation and weight formats of a pass or load, and whether ERR.CMD is set. -/
def meFormats (x : MeCtx) : Nat × Nat × Bool :=
  let a := if 12 ≤ x.afmt then 0 else x.afmt
  let w := if 12 ≤ x.wfmt then 0 else x.wfmt
  (a, w, 12 ≤ x.afmt || 12 ≤ x.wfmt)

/-- The weight format of a pass of an activation format (R277): another family's is taken as INT8, E4M3 or BF16. -/
def meWeightFmt (a w : Nat) : Nat := if meFamily a = meFamily w then w else [0, 2, 10].getD (meFamily a) 0

def meOutFmt (x : MeCtx) : Nat := if 14 ≤ x.ofmt then 0 else x.ofmt

/-! ### Loads (R255, R256, R262, R272) -/

/-- A row's bytes as the load port counts them. -/
def portBytes (n : Nat) : Nat := ceilDiv n 64 * 64

/-- The buffer of an LDW can be loaded (R272, R273). -/
def bufClear (x : MeCtx) (cmd now : Nat) : Bool :=
  decide ((x.bufs.getD (bits cmd 10 1) {}).free ≤ now) && !x.loads.any (fun l => match l with
    | .tile k _ _ => k == bits cmd 10 1
    | .table _ _ _ => false)

/-- A context has a load that could take the port in this cycle (R271). -/
def wantsPort (d : Dev) (m c now : Nat) : Bool :=
  match meActive d m c with
  | none => false
  | some r =>
    let cmd := r.cmds.getD r.index 0
    meReady d m c now r && (opOf cmd == 6 || (opOf cmd == 2 && bufClear (getMeCtx d m c) cmd now))

/-- The load port is won (R271): it is idle, and context 1 leaves it to context 0. -/
def portFree (d : Dev) (m c now : Nat) : Bool :=
  decide ((getMe d m).portUntil ≤ now) && (c == 0 || !wantsPort d m 0 now)

/-- LDW (R272, R276). (DEDUCED, log 71.) -/
def meLdw (m c mx : Nat) : MeAct := fun r cmd now d =>
  let x := getMeCtx d m c
  let (a, w, err) := meFormats x
  let buf := bits cmd 10 1
  if !portFree d m c now || !bufClear x cmd now then none
  else
    let src := meAddr r (bits cmd 16 25)
    let stride := max 1 (bits cmd 41 16)
    let kr := min (bits cmd 57 8 + 1) (meMaxKr a w)
    let nc := min (bits cmd 65 7 + 1) (meMaxNc w)
    let mxFmt := meIsMx w
    let nb := meElemBytes w nc
    let sr := if mxFmt then ceilDiv kr 32 else 0
    let at_ (i : Nat) := 8 * ((src + i * stride) % 2 ^ 23)
    let ranges := (List.range kr).map (fun i => (at_ i, nb)) ++ (List.range sr).map (fun i => (at_ (kr + i), nc))
    let total := kr * portBytes nb + sr * portBytes nc
    let until_ := now + ceilDiv total 256
    some (meReading m c mx ranges (fun d =>
      let rows := (List.range kr).map (fun i => meElems w nc (spadPeek d (m / 8) (at_ i) nb))
      let pad := if mxFmt then 32 * sr - kr else 0
      let t : MeTile := { fmt := w, elems := rows ++ List.replicate pad (List.replicate nc 0)
                          scales := (List.range sr).map (fun i => (spadPeek d (m / 8) (at_ (kr + i)) nc).map (·.toNat)) }
      meEv m 43 total (.word src) (meCnt m 4 (until_ - now) (updMe m (fun e => { e with portUntil := until_ })
        (updMeCtx m c (fun x => { x with loads := x.loads ++ [.tile buf t until_] }) d)))) (guardDev err (meErr m 2) d))

/-- LDLUT (R262, R272). -/
def meLdlut (m c mx : Nat) : MeAct := fun r cmd now d =>
  if !portFree d m c now then none
  else
    let a := 8 * meAddr r (bits cmd 17 25)
    let until_ := now + ceilDiv (portBytes 1040) 256
    some (meReading m c mx [(a, 1040)] (fun d =>
      meEv m 43 (portBytes 1040) (.word (a / 8)) (meCnt m 4 (until_ - now) (updMe m (fun e => { e with portUntil := until_ })
        (updMeCtx m c (fun x => { x with loads := x.loads ++ [.table (bits cmd 16 1) { bytes := spadPeek d (m / 8) a 1040 } until_] }) d)))) d)

/-- A row that reaches the post unit, 8 cycles before it is visible, before a table slot is loaded anew keeps the table it had (R272). -/
def keepTable (slot usable : Nat) (old : List Byte) (o : MeOut) : MeOut :=
  { o with post := o.post.map (fun p =>
      if bits p.set 93 1 = slot ∧ o.due < usable + 8 then { p with table := some (p.table.getD old) } else p) }

/-- ME_LOAD_COMPLETE (R272): the oldest load whose cycle has come. -/
def meLoadComplete (m c mx : Nat) (d : Dev) : Dev :=
  let now := meNow d m mx
  match (getMeCtx d m c).loads with
  | .tile b t u :: r => guardDev (u ≤ now) (updMeCtx m c (fun x =>
      { x with loads := r, bufs := updAt (fun y => { y with tile := t, usable := u }) b x.bufs })) d
  | .table s t u :: r => guardDev (u ≤ now) (updMeCtx m c (fun x =>
      { x with loads := r, luts := setAt s { t with usable := u } x.luts, outs := x.outs.map (keepTable s u (x.luts.getD s {}).bytes) })) d
  | [] => d

/-! ### Rows (R253, R258-R263, R271, R272, R276) -/

/-- Rows of a command that its mask leaves, and the bitmap words read (R276). -/
def maskWords (x : MeCtx) (cmd n : Nat) : List (Nat × Nat) :=
  if bit cmd 13 then
    let g := bits x.mask 41 9 + 1
    (List.range ((n - 1) / g / 64 + 1)).map (fun k => (8 * ((x.maskAt + k) % 2 ^ 23), 8))
  else []
def maskRows (d : Dev) (m : Nat) (x : MeCtx) (cmd n : Nat) : List Nat :=
  if bit cmd 13 then
    let g := bits x.mask 41 9 + 1
    (List.range n).filter (fun i => (spadWord d (m / 8) (x.maskAt + i / g / 64)).getLsbD (i / g % 64))
  else List.range n

def accRow (x : MeCtx) (r : Nat) : List Nat := mapGet (List.replicate 128 0) r x.acc

/-- What a command's row brings to the post unit: its place among the rows, its accumulator row, the entry r of the row-operand vector, its
entry cycle, and its elements as FP32, or raw for OFMT 13. -/
structure MeRow where
  i : Nat
  row : Nat
  r : Nat
  entered : Nat
  vals : List Nat

/-- A word of the vectors that POST names (R261): entry i of the scale-and-bias vector (k = 0) or of the row-operand vector (k = 1). -/
def postWord (x : MeCtx) (k i : Nat) : Nat := (x.postAt.getD k 0 + i) % 2 ^ 23

/-- What the post unit reads for n columns, and for entry r of the row-operand vector (R261). -/
def sbRanges (x : MeCtx) (n : Nat) : List (Nat × Nat) :=
  if meOutFmt x != 13 && (postSet x.post).sb then (List.range n).map (fun i => (8 * postWord x 0 i, 8)) else []
def roRanges (x : MeCtx) (r : Nat) : List (Nat × Nat) :=
  if meOutFmt x != 13 && ((postSet x.post).rowsub || (postSet x.post).rowmul) then [(8 * postWord x 1 r, 8)] else []

/-- Steps 2 to 6 of a row (R261): its elements after step 5, and the reductions. -/
def postRow (x : MeCtx) (p : MePost) (vals : List Nat) : List Nat × SMap (Nat × Nat) :=
  let s := postSet p.set
  let table := p.table.getD (x.luts.getD (bits p.set 93 1) {}).bytes
  let es := (List.range vals.length).map (fun n =>
    let sb := p.sb.getD n 0
    postElem s table (vals.getD n 0) (sb % 2 ^ 32) (sb / 2 ^ 32) (p.ro % 2 ^ 32) (p.ro / 2 ^ 32))
  (es, if s.red = 0 then x.red else mapSet (0, 0) p.row (reduceRow s.red p.rinit (mapGet (0, 0) p.row x.red) es) x.red)

/-- Rows sent to the post unit: output rows at an address and stride, visible a while after they enter. -/
def postRows (d : Dev) (m : Nat) (x : MeCtx) (cmd key out stride delay : Nat) (rows : List MeRow) : MeCtx :=
  let p := postSet x.post
  let word (k i : Nat) := (spadWord d (m / 8) (postWord x k i)).toNat
  let sb (r : MeRow) := if p.sb then (List.range r.vals.length).map (word 0) else []
  let post (r : MeRow) : Option MePost :=
    if meOutFmt x = 13 then none
    else some { set := x.post, sb := sb r, ro := if p.rowsub || p.rowmul then word 1 r.r else 0, row := r.row, rinit := bit cmd 14 }
  { x with outs := x.outs ++ rows.map (fun r =>
      { entered := r.entered, due := r.entered + delay, word := (out + r.i * stride) % 2 ^ 23, vals := r.vals, ofmt := meOutFmt x, sr := x.sr
        post := post r, key := key }) }

/-- The reductions that REMIT writes (R263), by word and half, carried by the command's last row. -/
def emitRows (x : MeCtx) (cmd key row0 last delay : Nat) (rows : List MeRow) : MeCtx :=
  let p := postSet x.post
  if bit cmd 15 && !rows.isEmpty then
    { x with outs := x.outs ++ [{ entered := last, due := last + delay, key := key, fins := (p.fin, x.eps), emits := rows.map (fun r =>
        ((x.postAt.getD 2 0 + row0 + r.i) % 2 ^ 23, p.rsel, r.row)) }] }
  else x

/-- Rows of context 1 that have not entered make way for n rows of context 0 (R271). -/
def giveWay (now n : Nat) (e : MeSt) : MeSt :=
  let late := e.inputUntil.getD 1 0 > now
  if !late then e
  else
    { e with inputUntil := setAt 1 (e.inputUntil.getD 1 0 + n) e.inputUntil
             ctxs := updAt (fun x => { x with
               issueAt := x.issueAt + n
               outs := x.outs.map (fun o => if now ≤ o.entered then { o with entered := o.entered + n, due := o.due + n } else o)
               entering := x.entering.map (fun r => if now ≤ r.at_ then { r with at_ := r.at_ + n } else r)
               bufs := x.bufs.map (fun b => if now + 134 ≤ b.free then { b with free := b.free + n } else b) }) 1 e.ctxs }

/-- The array input is won (R271): context 1 only while context 0 does not use it. -/
def inputFree (e : MeSt) (c now : Nat) : Bool :=
  e.inputUntil.getD 0 0 ≤ now && (c == 0 || e.inputUntil.getD 1 0 ≤ now)

/-- The input taken for t cycles by a command of a context. -/
def takeInput (m c now t : Nat) (d : Dev) : Dev :=
  updMe m (fun e =>
    let e1 := { e with inputUntil := setAt c (now + t) e.inputUntil }
    if c = 0 then giveWay now t e1 else e1)
    (updMeCtx m c (fun x => { x with issueAt := now + max 1 t }) d)

/-- Rows of a command by place, with entry cycles: a masked row costs no cycle outside a fold, and its own in one (R272). -/
def rowPlaces (inFold : Bool) (now : Nat) (left : List Nat) : List (Nat × Nat) :=
  (List.range left.length).map (fun k => (left.getD k 0, now + (if inFold then left.getD k 0 else k)))

/-- Rows of a command with their cycles (R271, R276): those that enter, and those that a mask skips, which outside a fold are passed over
with the row before them. Saturations of each row are given, and its MACs. -/
def enterList (inFold : Bool) (now n key row0 macs : Nat) (left : List Nat) (sat : Nat → Nat) : List MeEnter :=
  (List.range n).map (fun i =>
    let before := (left.filter (fun k => k < i)).length
    let row := (row0 + i) % 512
    if left.contains i then { at_ := now + (if inFold then i else before), key := key, row := row, sat := sat i, macs := macs }
    else { at_ := now + (if inFold then i else before - 1), key := key, row := row, skipped := true })

/-- A command's rows are on their way: the input is taken for t cycles, and the sampler's stages of the first and last row (R438). An
uncorrectable row among those that it was to read stops the context once they have entered. -/
def rowsGo (m c mx now t : Nat) (r : MeRun) (bad : Bool) (d : Dev) : Dev :=
  let d1 := takeInput m c now t d
  let d2 := guardDev (decide (0 < t)) (fun d => sampleStageAt (m / 8) 1 (meKey r) 3 (d.dt + (mx + t - 1) / 10) (sampleStage (m / 8) 1 (meKey r) 2 d)) d1
  guardDev bad (fun d => meSetStop m c 2 (meErr m 1 d)) d2

/-- MM (R253, R258-R261, R276). -/
def meMm (m c mx : Nat) : MeAct := fun r cmd now d =>
  let x := getMeCtx d m c
  let (a, w0, err0) := meFormats x
  let w := meWeightFmt a w0
  let doPost := bit cmd 12
  let err := err0 || w != w0 || (doPost && 14 ≤ x.ofmt)
  let buf := bits cmd 10 1
  let b := x.bufs.getD buf {}
  let scales := if meIsMx w then b.tile.scales else []
  let loading := x.loads.any (fun l => match l with
    | .tile k _ _ => k == buf
    | .table _ _ _ => false)
  if decide (now < b.usable) || loading || !inputFree (getMe d m) c now then none
  else
    let n := bits cmd 57 9 + 1
    let row0 := bits cmd 66 9
    let src := meAddr r (bits cmd 16 25)
    let stride := bits cmd 41 16
    let kr := min b.tile.elems.length (meMaxKr a w)
    let nc := min (b.tile.elems.getD 0 []).length (meMaxNc w)
    let inFold := r.fold.isSome
    let nb := meRowBytes a kr
    let at_ (i : Nat) := 8 * ((src + i * stride) % 2 ^ 23)
    let acr (i : Nat) := (row0 + i) % 512
    let all := maskRows d m x cmd n
    some (meReading m c mx (maskWords x cmd n ++ (if doPost then sbRanges x nc else [])) (fun d =>
      let x := getMeCtx d m c
      let rd := meRowsRead m mx n (fun i => (at_ i, nb) :: (if doPost then roRanges x (acr i) else [])) all d
      let left := all.filter (fun i => i < rd.1)
      let places := rowPlaces inFold now left
      let t := if inFold then rd.1 else left.length
      let cols := (List.range nc).map (fun j => ((b.tile.elems.take kr).map (fun l => l.getD j 0), scales.map (fun l => l.getD j 127)))
      let rows := places.map (fun p =>
        let bs := spadPeek d (m / 8) (at_ p.1) nb
        let as := meElems a kr bs
        let sa := meScales a kr bs
        let old := accRow x (acr p.1)
        let res := (List.range nc).map (fun j =>
          let col := cols.getD j ([], [])
          let o := if bit cmd 11 then 0 else old.getD j 0
          if meFamily a = 0 then accInt o (dotInt a w as col.1) else (accFloat o (dotFloat a w as col.1 sa col.2), false))
        (p, res))
      let sat (i : Nat) := ((rows.find? (fun q => q.1.1 == i)).map (fun q => (q.2.filter (·.2)).length)).getD 0
      let x1 := rows.foldl (fun (y : MeCtx) q =>
        let old := accRow y (acr q.1.1)
        { y with acc := mapSet (List.replicate 128 0) (acr q.1.1) (q.2.map (·.1) ++ old.drop nc) y.acc })
        { x with was := some x.acc, entering := x.entering ++ enterList inFold now rd.1 (meKey r) row0 (kr * nc) left sat }
      let ps : List MeRow := rows.map (fun q =>
        { i := q.1.1, row := acr q.1.1, r := acr q.1.1, entered := q.1.2
          vals := q.2.map (fun v => if meOutFmt x = 13 ∨ meFamily a ≠ 0 then v.1 else (f32.roundInt 0 false (toSigned 32 v.1) 0).1) })
      let x2 := if doPost then postRows d m x1 cmd (meKey r) (meAddr r (bits cmd 75 25)) (bits cmd 100 16) 142 ps else x1
      let x3 := if rd.1 = n then emitRows x2 cmd (meKey r) row0 (now + t - 1) 142 ps else x2
      let x4 := if t = 0 then x3 else { x3 with bufs := updAt (fun y => { y with free := max y.free (now + t - 1 + 134) }) buf x3.bufs }
      rowsGo m c mx now t r (rd.1 != n) (updMeCtx m c (fun _ => x4) rd.2)) (guardDev err (meErr m 2) d))

/-- An input element of ELTW in FP32 (R261 step 1). -/
def eltwVal (a scale n : Nat) : Nat :=
  if scale = 255 then meNan 12
  else if a = 12 then n
  else
    match shiftVal ((scale : Int) - 127) (meDecode a n) with
    | .nan _ => meNan 12
    | .inf s => f32.infBits + (if s then f32.signBit else 0)
    | .fin s m e => (f32.round 0 s m e false).1

/-- ELTW (R261, R276). -/
def meEltw (m c mx : Nat) : MeAct := fun r cmd now d =>
  let x := getMeCtx d m c
  if !inputFree (getMe d m) c now then none
  else
    let a := if 13 ≤ x.afmt then 12 else x.afmt
    let err := 13 ≤ x.afmt || 14 ≤ x.ofmt
    let n := bits cmd 57 9 + 1
    let row0 := bits cmd 66 9
    let src := meAddr r (bits cmd 16 25)
    let stride := bits cmd 41 16
    let len := bits cmd 116 7 + 1
    let inFold := r.fold.isSome
    let nb := meRowBytes a len
    let at_ (i : Nat) := 8 * ((src + i * stride) % 2 ^ 23)
    let acr (i : Nat) := (row0 + i) % 512
    let all := maskRows d m x cmd n
    some (meReading m c mx (maskWords x cmd n ++ sbRanges x len) (fun d =>
      let x := getMeCtx d m c
      let rd := meRowsRead m mx n (fun i => (at_ i, nb) :: roRanges x (row0 + i)) all d
      let left := all.filter (fun i => i < rd.1)
      let places := rowPlaces inFold now left
      let t := if inFold then rd.1 else left.length
      let ps : List MeRow := places.map (fun p =>
        let bs := spadPeek d (m / 8) (at_ p.1) nb
        let es := meElems a len bs
        let sc := meScales a len bs
        { i := p.1, row := acr p.1, r := row0 + p.1, entered := p.2
          vals := if meOutFmt x = 13 then (accRow x (acr p.1)).take len
                  else (List.range len).map (fun k => eltwVal a (if meIsMx a then sc.getD (k / 32) 127 else 127) (es.getD k 0)) })
      let x1 := { x with was := none, entering := x.entering ++ enterList inFold now rd.1 (meKey r) row0 0 left (fun _ => 0) }
      let x2 := postRows d m x1 cmd (meKey r) (meAddr r (bits cmd 75 25)) (bits cmd 100 16) 14 ps
      let x3 := if rd.1 = n then emitRows x2 cmd (meKey r) row0 (now + t - 1) 14 ps else x2
      rowsGo m c mx now t r (rd.1 != n) (updMeCtx m c (fun _ => x3) rd.2)) (guardDev err (meErr m 2) d))

/-! ### Output rows (R264, R266, R272) -/

/-- The output that is due first in a context. -/
def firstOut (x : MeCtx) : Option MeOut := x.outs.find? (fun o => x.outs.all (fun p => o.due ≤ p.due))

/-- An output as the post unit leaves it before step 7 (R261, R263): its elements after step 5 and the values that REMIT writes, with the
reductions then. -/
def postOut (x : MeCtx) (o : MeOut) : MeOut × SMap (Nat × Nat) :=
  let t := match o.post with
    | some p => postRow x p o.vals
    | none => (o.vals, x.red)
  ({ o with vals := t.1, emits := o.emits.map (fun w => (w.1, w.2.1, finValue o.fins.1 o.fins.2 (mapGet (0, 0) w.2.2 t.2))) }, t.2)

/-- Draws that an output's requantisation makes (R266). -/
def MeOut.draws (o : MeOut) : Nat := if o.sr && o.ofmt != 13 then o.vals.length else 0

/-- An output requantised with the random lanes that were in force when its row entered (R264-R266): its bytes, its saturations, and the
lanes after it. -/
def quantOut (lanes : List (Nat × List Nat)) (o : MeOut) : List Byte × Nat × List (Nat × List Nat) :=
  let k := ((List.range lanes.length).filter (fun i => (lanes.getD i (0, [])).1 ≤ o.entered)).getLastD 0
  let dr := drawRow (lanes.getD k (0, [])).2 o.draws
  let qz := if o.ofmt = 13 then (mePack 13 o.vals [], 0) else quantRow o.ofmt dr.1 o.vals
  (qz.1, qz.2, updAt (fun p => (p.1, dr.2)) k lanes)

/-- ME_OUTPUT_ROW_VISIBLE (R272): the engine's earliest output, when it is due: sent through the post unit, requantised and written, with its
reductions. -/
def meRowVisible (m c mx : Nat) (d : Dev) : Dev :=
  let now := meNow d m mx
  match firstOut (getMeCtx d m c) with
  | none => d
  | some o0 =>
    let p := postOut (getMeCtx d m c) o0
    let o := p.1
    let other := firstOut (getMeCtx d m (1 - c))
    let first := match other with
      | some p => if c = 0 then decide (o.due ≤ p.due) else decide (o.due < p.due)
      | none => true
    if now < o.due || !first then d
    else
      let d1 := updMeCtx m c (fun x => { x with outs := x.outs.erase o0, red := p.2 }) d
      let qz := quantOut (getMe d1 m).lanes o
      let n := o.draws
      let d2 := updMe m (fun e => { e with lanes := qz.2.2 }) d1
      let d3 := meEv m 44 n .none (meEv m 45 qz.2.1 .none (meCnt m 6 n (meCnt m 5 qz.2.1 d2)))
      let d4 := guardDev (!o.vals.isEmpty) (spadWrite (meParty d m mx) (m / 8) (8 * o.word) qz.1) d3
      let d5 := o.emits.foldl (fun d w => spadWrite (meParty d m mx) (m / 8) (8 * w.1 + (if w.2.1 then 4 else 0)) (leBytes 4 w.2.2) d) d4
      guardDev ((getMeCtx d5 m c).outs.all (fun x => x.key != o.key))
        (fun d => sampleEnd (m / 8) 1 o.key (mx / 2) false (sampleStage (m / 8) 1 o.key 4 d)) d5

/-! ### Other commands (R276) -/

def meNop (m : Nat) : MeAct := fun _ cmd _ d => some (guardDev (opOf cmd != 0) (meErr m 2) d)

def meCfg (m c : Nat) : MeAct := fun _ cmd _ d =>
  some (updMeCtx m c (fun x => { x with afmt := bits cmd 16 4, wfmt := bits cmd 20 4, ofmt := bits cmd 24 4, sr := bit cmd 28, eps := bits cmd 32 32 }) d)

/-- (DEDUCED, log 70.) -/
def mePost (m c : Nat) : MeAct := fun r cmd _ d =>
  some (updMeCtx m c (fun x => { x with post := cmd, postAt := [16, 41, 66].map (fun o => meAddr r (bits cmd o 25)) }) d)

/-- SEED (R266). -/
def meSeed (m : Nat) : MeAct := fun _ cmd now d => some (newLanes m now (bits cmd 16 16) d)

def meMask (m c : Nat) : MeAct := fun r cmd _ d =>
  some (updMeCtx m c (fun x => { x with mask := cmd, maskAt := meAddr r (bits cmd 16 25) }) d)

def meSetbase (m c : Nat) : MeAct := fun r cmd _ d =>
  some (updRun m c r.fold.isSome (fun r => { r with bases := setAt (bits cmd 16 2) (bits cmd 18 23) r.bases }) d)

/-- The engine's receiver word on a flock ring (R338). -/
def meRecv (m : Nat) : Nat := 2 * 2 ^ 14 + m % 8

/-- Slots of a region that wait for a receiver, as a cycle began (R211); of a flock's receiver, by its own tail (R338). -/
def meLag (d : Dev) (q r word t : Nat) : Nat :=
  let g := getRegion d q r
  let o := g.asOf t
  match ringFlock d q r with
  | none => lagOf o o.t
  | some _ => min (lagOf o (tailFor d q r word)) (lagOf g (tailFor d q r word))

/-- RWAIT, RSPACE, RREL and RCOMMIT (R276); in a fold they act on no region (R274). -/
def meRwait (m mx : Nat) : MeAct := fun r cmd _ d =>
  if r.fold.isSome || ((getRegion d (m / 8) (bits cmd 16 8)).n != 0
      && bits cmd 24 16 < meLag d (m / 8) (bits cmd 16 8) (meRecv m) (mxAt d mx)) then some d else none

def meRspace (m mx : Nat) : MeAct := fun r cmd _ d =>
  let g := (getRegion d (m / 8) (bits cmd 16 8)).asOf (mxAt d mx)
  if r.fold.isSome || (g.n != 0 && g.fill + bits cmd 24 16 < g.n) then some d else none

def meRrel (m mx : Nat) : MeAct := fun r cmd _ d =>
  some (if r.fold.isSome then d
    else ringRelease (m / 8) (bits cmd 16 8) (bits cmd 24 16) (some (meRecv m)) (noteMove (m / 8) (bits cmd 16 8) (mxAt d mx) d))

def meRcommit (m c mx : Nat) : MeAct := fun r cmd _ d =>
  if r.fold.isSome then some d
  else if !meQuiet (getMeCtx d m c) then none
  else some (ringCommit (m / 8) (bits cmd 16 8) (133 + m % 8) r.launch.starter.inst (noteMove (m / 8) (bits cmd 16 8) (mxAt d mx) d))

/-- END (R272): it ends the launch; in a fold the unit's template, or the setup. (DEDUCED, log 73.) -/
def meEnd (m c : Nat) : MeAct := fun r _ _ d =>
  if !meQuiet (getMeCtx d m c) then none
  else if r.fold.isNone then some (updRun m c false (fun r => { r with ended := true }) d)
  else if r.setup then some (updRun m c true (fun r => { r with inUnit := false }) d)
  else some (updRun m c true (fun r => { r with setup := true, index := r.setupCount - 1 }) d)

/-! ### Ends and stops (R278, R279) -/

/-- A context's launch has ended or been stopped, and nothing of it is under way (R278). -/
def meOver (d : Dev) (m c mx : Nat) (r : MeRun) : Bool :=
  let x := getMeCtx d m c
  (r.ended || r.stop.isSome || decide (r.count ≤ r.index)) && meQuiet x && decide (x.issueAt ≤ mxAt d mx) && (getMe d m).fold.isNone

/-- ME_LAUNCH_END (R278). (DEDUCED, log 73.) -/
def meLaunchEnd (m c mx : Nat) (d0 : Dev) : Dev :=
  let d := guardDev (getMe d0 m).fold.isNone (enterRows m (fun e => e.at_ ≤ mxAt d0 mx)) d0
  match (getMeCtx d m c).run with
  | none => d0
  | some r =>
    if !meOver d m c mx r then d0
    else
      let code := r.stop.getD 0
      meSignal m r.launch code (updMeCtx m c (fun x => { x with run := none, was := none }) (putMeStatus m mx code r d))

/-- A context's launch stopped by a void or STOP (R279), unless it has been stopped or ends in this cycle. -/
def meHalt (m c mx : Nat) (r : MeRun) (d : Dev) : Dev :=
  guardDev (r.stop.isNone && !r.ended && !meOver d m c mx r)
    (fun d => cutRows m c r.no (mxAt d mx) (updRun m c false (fun r => { r with stop := some 1 }) d)) d

/-- The launches of a voided instance stop: running, queued, waiting, and on their way. -/
def meVoidStop (m mx : Nat) (msg : StopMsg) (rest : List StopMsg) (d : Dev) : Dev :=
  let unit := 64 * (m / 8) + m % 8
  let mine (s : StartMsg) : Bool := s.unit == unit && s.starter.inst == some msg.inst
  let gone := (getMe d m).waiting.filter mine ++ d.fab.starts.filter mine
  let d1 := { d with fab := { d.fab with stops := rest, starts := d.fab.starts.filter (fun s => !mine s) } }
  let d2 := updMe m (fun e => { e with waiting := e.waiting.filter (fun s => !mine s) }) d1
  let d3 := gone.foldl (fun d s => meSignal m { addr := s.desc, block := [], dl := s.dl, starter := s.starter } 1 d) d2
  (List.range 2).foldl (fun d c =>
    let x := getMeCtx d m c
    let ql := (List.range 16).filter (fun i => match mapGet none i x.queue with
      | some l => l.starter.inst == some msg.inst
      | none => false)
    let d4 := ql.foldl (fun d i =>
      match mapGet none i (getMeCtx d m c).queue with
      | some l => dropLaunch m mx l 1 (updMeCtx m c (fun x => { x with queue := mapSet none i none x.queue }) d)
      | none => d) d
    match x.run with
    | some r => guardDev (r.launch.starter.inst == some msg.inst) (meHalt m c mx r) d4
    | none => d4) d3

def meStopAddr (m : Nat) : Nat := addrOf .me m 0x18

/-- A write of STOP (R281): it stops a launch that a write started. -/
def meStopEffect (m mx : Nat) (v : W32) (d : Dev) : Dev :=
  let c := fld v 0 1
  match (getMeCtx d m c).run with
  | some r => guardDev (fld v 31 1 == 1 && r.launch.starter == .write) (meHalt m c mx r) d
  | none => d

/-- ME_STOP (R279): a write of STOP, or else the oldest void stop on its way to the engine. -/
def meStop (m mx : Nat) (write : Option (WriteBy × W32)) (d : Dev) : Dev :=
  match write with
  | some (b, v) => guardDev (fld v 31 1 == 1) (fun d => committedWrite (originOf d b) (meStopAddr m) v (meStopEffect m mx v) d) d
  | none =>
    match takeFirst (fun s : StopMsg => s.kind == .me && s.unit == 64 * (m / 8) + m % 8 && stopReady d s) d.fab.stops with
    | some (s, rest) => meVoidStop m mx s rest d
    | none => d

/-! ### The commands -/

/-- ME_LAUNCH_START (R269). -/
def execMeLaunchStart (me : Fin 32) (mx : Fin 10) (s : State) : Out State := onDev (meLaunchStart me.val mx.val) s

/-- ME_LAUNCH_BEGIN (R269). -/
def execMeLaunchBegin (me : Fin 32) (ctx : Fin 2) (mx : Fin 10) (s : State) : Out State := onDev (meLaunchBegin me.val ctx.val mx.val) s

/-- ME_COMMAND_FETCH_RETURN (R280). -/
def execMeCommandFetchReturn (me : Fin 32) (ctx : Fin 2) (mx : Fin 10) (s : State) : Out State := onDev (meFetchReturn me.val ctx.val mx.val) s

/-- ME_NOP (R276, R277): opcode 0, and the opcodes from 0x0F that act as NOP. -/
def execMeNop (me : Fin 32) (ctx : Fin 2) (mx : Fin 10) (s : State) : Out State :=
  onDev (meIssue me.val ctx.val mx.val (fun o => o == 0 || 0xF ≤ o) (meNop me.val)) s

/-- ME_CFG (R276). -/
def execMeCfg (me : Fin 32) (ctx : Fin 2) (mx : Fin 10) (s : State) : Out State :=
  onDev (meIssue me.val ctx.val mx.val (· == 1) (meCfg me.val ctx.val)) s

/-- ME_LDW (R272). -/
def execMeLdw (me : Fin 32) (ctx : Fin 2) (mx : Fin 10) (s : State) : Out State :=
  onDev (meIssue me.val ctx.val mx.val (· == 2) (meLdw me.val ctx.val mx.val)) s

/-- ME_MM (R260). -/
def execMeMm (me : Fin 32) (ctx : Fin 2) (mx : Fin 10) (s : State) : Out State :=
  onDev (meIssue me.val ctx.val mx.val (· == 3) (meMm me.val ctx.val mx.val)) s

/-- ME_POST (R261). -/
def execMePost (me : Fin 32) (ctx : Fin 2) (mx : Fin 10) (s : State) : Out State :=
  onDev (meIssue me.val ctx.val mx.val (· == 4) (mePost me.val ctx.val)) s

/-- ME_ELTW (R261). -/
def execMeEltw (me : Fin 32) (ctx : Fin 2) (mx : Fin 10) (s : State) : Out State :=
  onDev (meIssue me.val ctx.val mx.val (· == 5) (meEltw me.val ctx.val mx.val)) s

/-- ME_LDLUT (R262). -/
def execMeLdlut (me : Fin 32) (ctx : Fin 2) (mx : Fin 10) (s : State) : Out State :=
  onDev (meIssue me.val ctx.val mx.val (· == 6) (meLdlut me.val ctx.val mx.val)) s

/-- ME_SEED (R266). -/
def execMeSeed (me : Fin 32) (ctx : Fin 2) (mx : Fin 10) (s : State) : Out State :=
  onDev (meIssue me.val ctx.val mx.val (· == 7) (meSeed me.val)) s

/-- ME_MASK (R276). -/
def execMeMask (me : Fin 32) (ctx : Fin 2) (mx : Fin 10) (s : State) : Out State :=
  onDev (meIssue me.val ctx.val mx.val (· == 8) (meMask me.val ctx.val)) s

/-- ME_SETBASE (R270). -/
def execMeSetbase (me : Fin 32) (ctx : Fin 2) (mx : Fin 10) (s : State) : Out State :=
  onDev (meIssue me.val ctx.val mx.val (· == 9) (meSetbase me.val ctx.val)) s

/-- ME_RWAIT (R276). -/
def execMeRwait (me : Fin 32) (ctx : Fin 2) (mx : Fin 10) (s : State) : Out State :=
  onDev (meIssue me.val ctx.val mx.val (· == 0xA) (meRwait me.val mx.val)) s

/-- ME_RSPACE (R276). -/
def execMeRspace (me : Fin 32) (ctx : Fin 2) (mx : Fin 10) (s : State) : Out State :=
  onDev (meIssue me.val ctx.val mx.val (· == 0xB) (meRspace me.val mx.val)) s

/-- ME_RREL (R276). -/
def execMeRrel (me : Fin 32) (ctx : Fin 2) (mx : Fin 10) (s : State) : Out State :=
  onDev (meIssue me.val ctx.val mx.val (· == 0xC) (meRrel me.val mx.val)) s

/-- ME_RCOMMIT (R276). -/
def execMeRcommit (me : Fin 32) (ctx : Fin 2) (mx : Fin 10) (s : State) : Out State :=
  onDev (meIssue me.val ctx.val mx.val (· == 0xD) (meRcommit me.val ctx.val mx.val)) s

/-- ME_END (R272, R276). -/
def execMeEnd (me : Fin 32) (ctx : Fin 2) (mx : Fin 10) (s : State) : Out State :=
  onDev (meIssue me.val ctx.val mx.val (· == 0xE) (meEnd me.val ctx.val)) s

/-- ME_LOAD_COMPLETE (R272). -/
def execMeLoadComplete (me : Fin 32) (ctx : Fin 2) (mx : Fin 10) (s : State) : Out State := onDev (meLoadComplete me.val ctx.val mx.val) s

/-- ME_OUTPUT_ROW_VISIBLE (R272). -/
def execMeOutputRowVisible (me : Fin 32) (ctx : Fin 2) (mx : Fin 10) (s : State) : Out State := onDev (meRowVisible me.val ctx.val mx.val) s

/-- ME_LAUNCH_END (R278). -/
def execMeLaunchEnd (me : Fin 32) (ctx : Fin 2) (mx : Fin 10) (s : State) : Out State := onDev (meLaunchEnd me.val ctx.val mx.val) s

/-- ME_STOP (R279). -/
def execMeStop (me : Fin 32) (write : Option (WriteBy × W32)) (mx : Fin 10) (s : State) : Out State := onDev (meStop me.val mx.val write) s

end Sys2Proof.Machine
end

