-- ==== Sys2Proof/Machine/Fold.lean ====
section
/-! DEFINITION. Folds (R205, R211-R227): starts, the run's steps in fold-relative time, checks and gates, conflicts, stops and ends. -/

namespace Sys2Proof.Machine

/-! ### The record of a run (R205, R213, R219) -/

/-- The period of a phase mask (R205). -/
def maskPeriod (mask : Nat) : Nat :=
  ([1, 2, 4, 8].find? (fun p => (List.range 16).all (fun i => bit mask i == bit mask ((i + p) % 16)))).getD 16

/-- The hold step of a fold (R219). -/
def holdStep (r : FoldRec) : Nat := if maskPeriod r.phases = 1 ∧ 256 ≤ r.members then 2 else maskPeriod r.phases

/-- The record of the run in progress. -/
def runRec (d : Dev) (q f : Nat) : Option FoldRec :=
  match (getFold d q f).run with
  | some s => foldRec d s.plane q f
  | none => none

/-- Body iterations of a run descriptor, its gate, and its length in fold cycles (R213, R216). -/
def runN (s : FoldStartRec) : Nat := max 1 (field s.desc 0 4)
def runGated (s : FoldStartRec) : Bool := bit (byteAt s.desc 4) 0
def runTotal (r : FoldRec) (s : FoldStartRec) : Nat := r.proLen + runN s * r.bodyLen + r.epiLen

/-- A step's fields (R214). -/
structure FoldStep where
  cycle : Nat
  member : Nat
  action : Nat
  region : Nat
  k : Nat
  deriving DecidableEq, Repr

/-- (DEDUCED, log 58.) -/
def foldStep (e : List Byte) : FoldStep :=
  { cycle := field e 0 4, member := byteAt e 4, action := byteAt e 5, region := field e 6 2, k := field e 8 4 }

/-- The start of the fold's current group or iteration, as a fold cycle. -/
def groupStart (r : FoldRec) (n : Nat) (s : FoldSt) : Nat :=
  match s.phase with
  | 0 => 0
  | 1 => r.proLen + s.iter * r.bodyLen
  | _ => r.proLen + n * r.bodyLen

/-- The next step of the run with its fold cycle, where the fold is at one. -/
def nextStep (r : FoldRec) (n : Nat) (s : FoldSt) : Option (Nat × FoldStep) :=
  let l := match s.phase with
    | 0 => r.pro
    | 1 => if s.entered then r.body else []
    | 2 => r.epi
    | _ => []
  (l[s.step]?).map (fun e => let x := foldStep e; (groupStart r n s + x.cycle, x))

/-- The place of the run moved past ended groups: into the body, to the next iteration, into the epilogue, to the end. An iteration of
a gated run begins at its gate (R218). -/
def normPlace (r : FoldRec) (n : Nat) (gated : Bool) (s : FoldSt) : FoldSt :=
  let toEpi (s : FoldSt) : FoldSt := if r.epi.isEmpty then { s with phase := 3, step := 0 } else { s with phase := 2, step := 0 }
  let toBody (i : Nat) (s : FoldSt) : FoldSt := { s with phase := 1, iter := i, step := 0, entered := !gated }
  match s.phase with
  | 0 =>
    if s.step < r.pro.length then s
    else if r.body.isEmpty && !gated then toEpi s else toBody 0 s
  | 1 =>
    if !s.entered || s.step < r.body.length then s
    else if s.iter + 1 < n then toBody (s.iter + 1) s else toEpi s
  | 2 => if s.step < r.epi.length then s else { s with phase := 3, step := 0 }
  | _ => s

/-- The fold cycle that the fold does not pass as it stands. -/
def placeCap (r : FoldRec) (st : FoldStartRec) (s : FoldSt) : Option Nat :=
  if s.stop.isSome && s.hold == .none then none
  else if s.hold != .none then s.cap
  else if s.phase = 1 ∧ !s.entered then some (groupStart r (runN st) s - 1)
  else match nextStep r (runN st) s with
    | some (c, _) => some c
    | none => some (runTotal r st)

/-- The place normalised and the cap set anew, after a change of the fold. -/
def settleFold (q f : Nat) (d : Dev) : Dev :=
  match (getFold d q f).run, runRec d q f with
  | some st, some r =>
    updFold q f (fun s =>
      let s1 := normPlace r (runN st) (runGated st) s
      { s1 with cap := placeCap r st s1 }) d
  | _, _ => d

/-! ### Members (R212, R217) -/

def memberBits (r : FoldRec) : List Nat := (List.range 16).filter (fun i => bit r.members i)
/-- The vision engine of a member bit. -/
def memberEng (q bitNo : Nat) : Nat := 8 * q + (bitNo - 8)

/-- Bytes of a member's descriptor. -/
def memberDescLen (bitNo : Nat) : Nat := if bitNo < 8 then 256 else if bitNo < 10 then 64 else 128

/-- A member is between units of work and in no other fold (R217). -/
def memberReady (d : Dev) (q mx bitNo : Nat) : Bool :=
  if bitNo < 8 then (getMe d (8 * q + bitNo)).fold.isNone && meFoldReady d (8 * q + bitNo) mx
  else
    let e := memberEng q bitNo
    !visInFold d e && (getEng d e).work.all (·.isNone)

/-- A member's unit is in progress. -/
def memberBusy (d : Dev) (q bitNo : Nat) : Bool :=
  if bitNo < 8 then meFoldBusy d (8 * q + bitNo)
  else (getEng d (memberEng q bitNo)).work.any (fun w => match w with
    | some w => w.ctx == foldCtx
    | none => false)

/-- A vision member's next unit (R102, R142, R167): in each idle datapath the unit that the context would start there. -/
def visFoldUnit (e vx : Nat) (d : Dev) : Dev :=
  [0, 1, 2].foldl (fun d dp =>
    if (visWork d e dp).isSome then d
    else match visNext d e dp (getVis d e foldCtx) with
      | some (u, cost) => beginUnit e dp foldCtx u cost vx d
      | none => d) d

/-- The member starts its next unit of work (R214). -/
def memberUnit (q bitNo mx : Nat) (d : Dev) : Dev :=
  if bitNo < 8 then meFoldUnit (8 * q + bitNo) d else visFoldUnit (memberEng q bitNo) (mx / 2) d

/-- A vision member can take a unit: one of its datapaths is idle and has one to do, or none has. -/
def memberTakes (d : Dev) (q bitNo : Nat) : Bool :=
  if bitNo < 8 then !memberBusy d q bitNo
  else
    let e := memberEng q bitNo
    [0, 1, 2].any (fun dp => (visWork d e dp).isNone && (visNext d e dp (getVis d e foldCtx)).isSome) || !memberBusy d q bitNo

/-- A member's part of the run begins at fold cycle 0. (DEDUCED, log 60.) -/
def memberBegin (q f mx : Nat) (s : FoldStartRec) (d : Dev) (bitNo : Nat) : Dev :=
  if bitNo < 8 then updMe (8 * q + bitNo) (fun e => { e with fold := some f }) d
  else
    let desc := ((s.members.find? (fun m => m.1 == bitNo)).map (·.2)).getD []
    fillVis (memberEng q bitNo) foldCtx 0 s.dl .none (some f) desc false (mx / 2) d

/-- A member's part ends with a status word (R225): a vision member's units are abandoned, where they have not ended. -/
def memberEnd (q mx code : Nat) (d : Dev) (bitNo : Nat) : Dev :=
  if bitNo < 8 then meFoldEnd (8 * q + bitNo) mx code d
  else
    let e := memberEng q bitNo
    let x := getVis d e foldCtx
    let vx := mx / 2
    let d := guardDev (x.live && code != 0) (visCnt e 4 1) (countBusyOf e foldCtx vx d)
    if !x.live then d
    else if pastFirst e x then
      visFree e foldCtx (putStatus e x vx (statusAddr e x) 1 (refineWord e x (if code = 0 then 5 else code)) d)
    else visFree e foldCtx (putStatus e x vx (statusAddr e x) 0 (firstWord e x code) d)

/-! ### Starts (R217) -/

/-- The plane on which a start would run now: a Drover start's own; a write start's the fold's (R47, R217). -/
def startPlane (q f : Nat) (s : FoldStartRec) (d : Dev) : Nat := if s.starter == .write then foldPlane d q f d.dt else s.plane

/-- The start that runs next, on its plane: the matrix engines of its record take up their parts. -/
def takeNext (q f mx : Nat) (s0 : FoldStartRec) (d : Dev) : Dev :=
  let s := { s0 with plane := startPlane q f s0 d }
  let mask := match foldRec d s.plane q f with
    | some r => r.members
    | none => 0
  s.members.foldl (fun d m => guardDev (m.1 < 8 && bit mask m.1) (meFoldLoad (8 * q + m.1) f m.2 s.dl (mx / 2)) d)
    (updFold q f (fun x => { x with next := some s }) d)

/-- The lowest free pending slot (R29). -/
def freePending (s : FoldSt) : Option Nat := (List.range 16).find? (fun i => (mapGet none i s.pending).isNone)

/-- A start's descriptors copied (R217): the run descriptor, and the members' of the fold's record on its plane; of a write start, which may
come to run on the other plane (R47), also those of its record there. -/
def copyStart (q f : Nat) (m : StartMsg) (d : Dev) : Option FoldStartRec × Dev :=
  let p := m.plane.getD (foldPlane d q f d.dt)
  match foldRec d p q f with
  | none => (none, d)
  | some r =>
    let t := spadRead { req := 151 } q (8 * m.desc) 128 d
    let other := if m.starter == .write then ((foldRec d (1 - p) q f).map memberBits).getD [] else []
    let u := ((memberBits r) ++ other.filter (fun b => !bit r.members b)).foldl (fun (a : List (Nat × List Byte) × Bool × Dev) b =>
      let x := spadRead { req := 151 } q (8 * bits (field t.1 (0x10 + 4 * b) 4) 0 23) (memberDescLen b) a.2.2
      (a.1 ++ [(b, x.1)], a.2.1 || x.2.1, x.2.2)) ([], t.2.1, t.2.2)
    (some { desc := t.1, members := u.1, dl := m.dl, starter := m.starter, plane := p, bad := u.2.1 }, u.2.2)

/-- A start accepted: it runs next, or takes a pending slot; an uncorrectable descriptor ends it with code 2 (R225). -/
def acceptFold (q f mx : Nat) (m : StartMsg) (d : Dev) : Dev :=
  let t := copyStart q f m (idleExit d)
  match t.1 with
  | none => t.2
  | some s =>
    if s.bad then dropFoldStart q f s 2 (some 3) t.2
    else
      let x := getFold t.2 q f
      if x.run.isNone && x.next.isNone then takeNext q f mx s t.2
      else match freePending x with
        | some i => updFold q f (fun x => { x with pending := mapSet none i (some s) x.pending }) t.2
        | none => t.2

/-- A start can be accepted: the fold has nothing to run, or a pending slot is free. -/
def foldTakes (d : Dev) (q f : Nat) : Bool :=
  let x := getFold d q f
  (getSpd d q).initDone && ((x.run.isNone && x.next.isNone) || (freePending x).isSome)

def foldUnitNo (q f : Nat) : Nat := 64 * q + 16 + f

/-- FOLD_START (R217): the start that has waited longest beyond the slots, or else the next that arrives. -/
def foldStart (q f mx : Nat) (d : Dev) : Dev :=
  let x := getFold d q f
  match x.overflow, foldTakes d q f with
  | m :: r, true => acceptFold q f mx m (updFold q f (fun x => { x with overflow := r }) d)
  | _, ok =>
    match takeFirst (fun m : StartMsg => m.unit == foldUnitNo q f && startReady d m) d.fab.starts with
    | none => d
    | some (m, rest) =>
      let d1 := { d with fab := { d.fab with starts := rest } }
      if ok then acceptFold q f mx m d1 else updFold q f (fun x => { x with overflow := x.overflow ++ [m] }) d1

/-- The next run chosen among the pending starts under R27. -/
def foldChoose (q f mx : Nat) (d : Dev) : Dev :=
  let x := getFold d q f
  if x.run.isSome || x.next.isSome then d
  else
    let reqs := (List.range 16).filterMap (fun i => (mapGet none i x.pending).map (fun s => (⟨i, s.dl, 0⟩ : ArbReq)))
    let w := arbitrate arbFold (16 * q + f) 16 reqs d
    match w.1 with
    | none => w.2
    | some i =>
      match mapGet none i x.pending with
      | none => w.2
      | some s => takeNext q f mx s (updFold q f (fun x => { x with pending := mapSet none i none x.pending }) w.2)

/-- Regions that a run may touch, for its counts (R214): those in use in the quadrant. -/
def foldRegions (d : Dev) (q : Nat) : List Nat := (d.regions.filter (fun e => e.1 / 256 == q && e.2.n != 0)).map (·.1 % 256)

/-- FOLD_RUN_BEGIN (R217): fold cycle 0, at a wheel count that is a multiple of 16 at which every member is between units. (DEDUCED, log 60.) -/
def foldRunBegin (q f mx : Nat) (d0 : Dev) : Dev :=
  let d := foldChoose q f mx d0
  let x := getFold d q f
  match x.run, x.next with
  | none, some s =>
    if startPlane q f s d ≠ s.plane then takeNext q f mx s (clearParts q f d)
    else match foldRec d s.plane q f with
    | none => d
    | some r =>
      let w := mxAt d mx
      if w % 16 != 0 || !(memberBits r).all (memberReady d q mx) || decide (d.dt < d.wakeAt) then d
      else
        let heads := (foldRegions d q).foldl (fun m i => mapSet 0 i (getRegion d q i).h m) []
        let tails := (foldRegions d q).foldl (fun m i => mapSet 0 i (tailFor d q i (2 * 2 ^ 14 + 16 + f)) m) []
        let d1 := (memberBits r).foldl (memberBegin q f mx s) (updFold q f (fun x => { x with
          run := some s, next := none, phase := 0, iter := 0, step := 0, entered := false, start := w, frozen := 0, holds := 0
          conflicts := 0, hold := .none, checks := [], conflictEnd := 0, prod := heads, cons := tails, prod0 := heads, cons0 := tails
          waiting := [], stop := none }) d)
        settleFold q f d1
  | _, _ => d

/-! ### Steps (R214, R220) -/

/-- The step that the fold is at, when its cycle has come and the fold has not been stopped. -/
def dueStep (d : Dev) (q f mx : Nat) : Option FoldStep :=
  let s := getFold d q f
  match s.run, runRec d q f with
  | some st, some r =>
    match nextStep r (runN st) s with
    | some (c, x) =>
      let reached := decide (c ≤ foldCycle d q f (mxAt d mx)) && decide (s.start + s.frozen ≤ mxAt d mx) && (s.hold != .gate)
      let inHeld := match s.cap with
        | some k => decide (c ≤ k)
        | none => true
      if s.stop.isNone && reached && inHeld then some x else none
    | none => none
  | _, _ => none

/-- The step passed. -/
def passStep (q f : Nat) (d : Dev) : Dev := settleFold q f (updFold q f (fun s => { s with step := s.step + 1 }) d)

/-- The ring test of a CHECK step (R214), by the pointers as the cycle found them (R211). -/
def checkReady (d : Dev) (q f mx : Nat) (out : Bool) (region k : Nat) : Bool :=
  let g := (getRegion d q region).asOf (mxAt d mx)
  let s := getFold d q f
  let n2 := 2 * g.n
  if g.n = 0 then false
  else if out then (mapGet 0 region s.prod + k + n2 - g.t) % n2 < g.n
  else k < (g.h + n2 - mapGet 0 region s.cons % n2) % n2

/-- Counts of a fold, kept in the quadrant's SPD block (R227). -/
def foldCnt (q f off n : Nat) (d : Dev) : Dev := addCnt .spd q (0x400 + 0x40 * f + off) n d

/-- Conflicts of a fold (R214, R221), counted as its own and as events of no address that the model knows (R436). (DEDUCED, log 59.) -/
def foldHit (q f n : Nat) (d : Dev) : Dev := pmuEv q 19 n (byMaster 0 0) .none (foldCnt q f 0x1C n d)

/-- FOLD_UNIT (R214): a UNIT step that waited is taken once its member is free, or the step at hand starts the member's next unit; on a
busy member it waits and is counted in CONFLICTS. -/
def foldUnit (q f mx : Nat) (d : Dev) : Dev :=
  let s := getFold d q f
  match (if s.stop.isNone then s.waiting.find? (memberTakes d q) else none) with
  | some b => memberUnit q b mx (updFold q f (fun s => { s with waiting := s.waiting.erase b }) d)
  | none =>
    match dueStep d q f mx with
    | some x =>
      if x.action ≠ 0 then d
      else
        let d1 := passStep q f d
        if memberTakes d q x.member && !s.waiting.contains x.member then memberUnit q x.member mx d1
        else foldHit q f 1 (updFold q f (fun s => { s with waiting := s.waiting ++ [x.member] }) d1)
    | none => d

/-- A CHECK step (R220): ready, or it holds the fold in its cycle. (DEDUCED, log 58.) -/
def foldCheck (q f mx : Nat) (out : Bool) (d : Dev) : Dev :=
  match dueStep d q f mx with
  | some x =>
    if x.action ≠ (if out then 2 else 1) then d
    else if checkReady d q f mx out x.region x.k then passStep q f d
    else
      passStep q f (updFold q f (fun s => { s with hold := .check, checks := s.checks ++ [(out, x.region, x.k)] }) d)
  | none => d

/-- The hold steps that a freeze lasts (R220): from the first frozen cycle, the first multiple of g after t. -/
def frozenFor (g first t : Nat) : Nat := if t < first then 0 else ((t - first) / g + 1) * g

/-- FOLD_HOLD_RESUME (R220): every CHECK step that holds the fold is true in this MX cycle. -/
def foldHoldResume (q f mx : Nat) (d : Dev) : Dev :=
  let s := getFold d q f
  match s.hold, s.cap, runRec d q f with
  | .check, some c, some r =>
    let first := s.start + s.frozen + c + 1
    let t := mxAt d mx
    if t < first || s.stop.isSome || !s.checks.all (fun k => checkReady d q f mx k.1 k.2.1 k.2.2) then d
    else
      let n := frozenFor (holdStep r) first t
      settleFold q f (foldCnt q f 0x18 n
        (updFold q f (fun s => { s with hold := .none, checks := [], frozen := s.frozen + n, holds := s.holds + n }) d))
  | _, _, _ => d

/-- FOLD_GATE_OPEN (R218): at the start of an iteration of a gated run the gate lets it begin, or freezes the fold. (DEDUCED, log 58.) -/
def foldGateOpen (q f mx : Nat) (d : Dev) : Dev :=
  let s := getFold d q f
  match s.run, runRec d q f with
  | some st, some r =>
    let first := s.start + s.frozen + groupStart r (runN st) s
    let t := mxAt d mx
    if s.phase != 1 || s.entered || s.stop.isSome || s.hold == .check || decide (t < first) then d
    else if checkReady d q f mx false (byteAt st.desc 5) (field st.desc 6 2) then
      let n := if t = first then 0 else frozenFor (holdStep r) first t
      settleFold q f (foldCnt q f 0x20 n (updFold q f (fun s => { s with hold := .none, entered := true, frozen := s.frozen + n }) d))
    else updFold q f (fun s => { s with hold := .gate }) d
  | _, _ => d

/-- FOLD_COMMIT (R214): p_r advances, and H follows 6 MX cycles later (R211). -/
def foldCommit (q f mx : Nat) (d : Dev) : Dev :=
  match dueStep d q f mx with
  | some x =>
    if x.action ≠ 3 then d
    else
      let g := getRegion d q x.region
      passStep q f (updFold q f (fun s => { s with
        prod := mapSet 0 x.region (addMod g (mapGet 0 x.region s.prod) 1) s.prod
        commits := s.commits ++ [{ region := x.region, due := mxAt d mx + 6, inst := s.run.bind (fun r => r.starter.inst) }] }) d)
  | none => d

/-- FOLD_COMMIT_VISIBLE (R211): the oldest commit whose cycle has come; tests of this cycle see it. -/
def foldCommitVisible (q f mx : Nat) (d : Dev) : Dev :=
  match (getFold d q f).commits with
  | c :: r => guardDev (c.due ≤ mxAt d mx)
      (fun d => ringCommit q c.region (200 + f) c.inst (updRegion q c.region (fun g => { g with h0 := addMod g g.h0 1 })
        (updFold q f (fun s => { s with commits := r }) d))) d
  | [] => d

/-- FOLD_RELEASE (R214): c_r advances by k, and T follows at once. -/
def foldRelease (q f mx : Nat) (d : Dev) : Dev :=
  match dueStep d q f mx with
  | some x =>
    if x.action ≠ 4 then d
    else
      let g := getRegion d q x.region
      ringRelease q x.region x.k (some (2 * 2 ^ 14 + 16 + f)) (noteMove q x.region (mxAt d mx)
        (passStep q f (updFold q f (fun s => { s with cons := mapSet 0 x.region (addMod g (mapGet 0 x.region s.cons) x.k) s.cons }) d)))
  | none => d

/-- FOLD_CONFLICT (R221): an access of the run, whose members have units in progress, cannot be served in its cycle, which costs one hold
step. (DEDUCED, log 59.) -/
def foldConflict (q f mx : Nat) (d : Dev) : Dev :=
  let s := getFold d q f
  match s.run, runRec d q f with
  | some _, some r =>
    let t := mxAt d mx
    let g := holdStep r
    if s.hold != .none || decide (t < s.conflictEnd) || decide (t < s.start + s.frozen) || !(memberBits r).any (memberBusy d q) then d
    else foldCnt q f 0x18 g (foldHit q f 1 (updFold q f (fun s => { s with
      frozen := s.frozen + g, holds := s.holds + g, conflicts := s.conflicts + 1, conflictEnd := t + g }) d))
  | _, _ => d

/-! ### Stops and ends (R225, R226) -/

/-- The run has executed its last fold cycle by this one. -/
def runOver (d : Dev) (q f mx : Nat) : Bool :=
  let s := getFold d q f
  match s.run, runRec d q f with
  | some st, some r => s.phase == 3 && s.stop.isNone && decide (s.start + s.frozen + runTotal r st ≤ mxAt d mx + 1)
  | _, _ => false

/-- The cycles for which a stopped fold held or was gated, counted (R218, R220). (DEDUCED, log 60.) -/
def closeHold (q f mx : Nat) (d : Dev) : Dev :=
  let s := getFold d q f
  let n := frozenSince s (mxAt d mx)
  match s.hold with
  | .none => d
  | .check => foldCnt q f 0x18 n (updFold q f (fun s => { s with holds := s.holds + n }) d)
  | .gate => foldCnt q f 0x20 n d

/-- The run in progress stopped with a code, unless it ends in this cycle. -/
def stopFold (q f mx code : Nat) (d : Dev) : Dev :=
  let s := getFold d q f
  if s.run.isNone || s.stop.isSome || runOver d q f mx then d
  else settleFold q f (updFold q f (fun s => { s with stop := some code, waiting := [] }) (closeHold q f mx d))

def foldCtlAddr (q f : Nat) : Nat := addrOf .spd q (0x400 + 0x40 * f)

/-- A write of FOLDf.CTL (R225): STOP of a run that a write started. -/
def foldCtlEffect (q f mx : Nat) (v : W32) (d : Dev) : Dev :=
  match (getFold d q f).run with
  | some s => guardDev (fld v 0 1 == 1 && s.starter == .write) (stopFold q f mx 3) d
  | none => d

/-- FOLD_VOID_STOP (R225): the oldest void stop on its way to the fold stops the instance's run and drops its starts. -/
def foldVoidStop (q f mx : Nat) (d : Dev) : Dev :=
  match takeFirst (fun m : StopMsg => m.kind == .fold && m.unit == foldUnitNo q f && stopReady d m) d.fab.stops with
  | none => settleFold q f d
  | some (m, rest) =>
    let mine (s : FoldStartRec) : Bool := s.starter.inst == some m.inst
    let mineMsg (s : StartMsg) : Bool := s.unit == foldUnitNo q f && s.starter.inst == some m.inst
    let d1 := { d with fab := { d.fab with stops := rest } }
    let x := getFold d1 q f
    let d2 := match x.next with
      | some s => if mine s then dropFoldStart q f s 1 none (clearParts q f (updFold q f (fun x => { x with next := none }) d1)) else d1
      | none => d1
    let d3 := (List.range 16).foldl (fun d i =>
      match mapGet none i (getFold d q f).pending with
      | some s => if mine s then dropFoldStart q f s 1 none (updFold q f (fun x => { x with pending := mapSet none i none x.pending }) d) else d
      | none => d) d2
    let gone := (getFold d3 q f).overflow.filter mineMsg
    let d4 := updFold q f (fun x => { x with overflow := x.overflow.filter (fun s => !mineMsg s) }) d3
    let d5 := gone.foldl (fun d m => match copyStart q f m d with
      | (some s, d) => dropFoldStart q f s 1 none d
      | (none, d) => d) d4
    match (getFold d5 q f).run with
    | some s => guardDev (mine s) (stopFold q f mx 1) d5
    | none => d5

/-- A unit of a vision member needs a slot that is not filled (R225). -/
def memberLacks (d : Dev) (q bitNo : Nat) : Bool :=
  let e := memberEng q bitNo
  let x := getVis d e foldCtx
  decide (8 ≤ bitNo) && (visHeld d e x).any (fun p =>
    let g := getRegion d q p.1
    let ahead := (g.h + 2 * g.n - inCount d e x p.1 (p.2 - 1) % (2 * g.n)) % (2 * g.n)
    g.n != 0 && p.2 != 0 && !(decide (1 ≤ ahead) && decide (ahead ≤ g.n)))

/-- The units in progress have ended, or are abandoned because they need a slot that is not filled, or the fold holds or waits at its gate
(R225). -/
def membersDone (d : Dev) (q f : Nat) (r : FoldRec) : Bool :=
  (getFold d q f).hold != .none || (memberBits r).all (fun b => !memberBusy d q b || memberLacks d q b)

/-- FOLD_RUN_END (R226): status words, the signal, and the next run chosen. (DEDUCED, log 60.) -/
def foldRunEnd (q f mx : Nat) (d : Dev) : Dev :=
  let s := getFold d q f
  match s.run, runRec d q f with
  | some st, some r =>
    let past := runOver d q f mx && s.waiting.isEmpty && (memberBits r).all (fun b => !memberBusy d q b)
    let stopped := s.stop.isSome && membersDone d q f r
    if !past && !stopped then d
    else
      let code := s.stop.getD 0
      let d1 := (memberBits r).foldl (memberEnd q mx (if code = 3 then 1 else code)) d
      let d2 := foldStatus q st code s.conflicts s.holds d1
      let d3 := foldCnt q f 0x24 1 (pmuUc q (576 + 2 * f + 1) (mxAt d mx + 1 - s.start - s.frozen) <| updFold q f (fun x => { x with run := none, hold := .none, checks := [], cap := none, stop := none, waiting := [] }) d2)
      foldChoose q f mx (foldSignal q f st code s.holds (if code = 2 then some 3 else none) d3)
  | _, _ => d

/-! ### The commands -/

/-- FOLD_START (R217). -/
def execFoldStart (q : Fin 4) (f : Fin 16) (mx : Fin 10) (s : State) : Out State := onDev (foldStart q.val f.val mx.val) s

/-- FOLD_RUN_BEGIN (R217). -/
def execFoldRunBegin (q : Fin 4) (f : Fin 16) (mx : Fin 10) (s : State) : Out State := onDev (foldRunBegin q.val f.val mx.val) s

/-- FOLD_UNIT (R214). -/
def execFoldUnit (q : Fin 4) (f : Fin 16) (mx : Fin 10) (s : State) : Out State := onDev (foldUnit q.val f.val mx.val) s

/-- FOLD_CHECK_IN (R220). -/
def execFoldCheckIn (q : Fin 4) (f : Fin 16) (mx : Fin 10) (s : State) : Out State := onDev (foldCheck q.val f.val mx.val false) s

/-- FOLD_CHECK_OUT (R220). -/
def execFoldCheckOut (q : Fin 4) (f : Fin 16) (mx : Fin 10) (s : State) : Out State := onDev (foldCheck q.val f.val mx.val true) s

/-- FOLD_COMMIT (R214). -/
def execFoldCommit (q : Fin 4) (f : Fin 16) (mx : Fin 10) (s : State) : Out State := onDev (foldCommit q.val f.val mx.val) s

/-- FOLD_COMMIT_VISIBLE (R211). -/
def execFoldCommitVisible (q : Fin 4) (f : Fin 16) (mx : Fin 10) (s : State) : Out State := onDev (foldCommitVisible q.val f.val mx.val) s

/-- FOLD_RELEASE (R214). -/
def execFoldRelease (q : Fin 4) (f : Fin 16) (mx : Fin 10) (s : State) : Out State := onDev (foldRelease q.val f.val mx.val) s

/-- FOLD_HOLD_RESUME (R220). -/
def execFoldHoldResume (q : Fin 4) (f : Fin 16) (mx : Fin 10) (s : State) : Out State := onDev (foldHoldResume q.val f.val mx.val) s

/-- FOLD_CONFLICT (R221). -/
def execFoldConflict (q : Fin 4) (f : Fin 16) (mx : Fin 10) (s : State) : Out State := onDev (foldConflict q.val f.val mx.val) s

/-- FOLD_GATE_OPEN (R218). -/
def execFoldGateOpen (q : Fin 4) (f : Fin 16) (mx : Fin 10) (s : State) : Out State := onDev (foldGateOpen q.val f.val mx.val) s

/-- FOLD_STOP (R225). -/
def execFoldStop (by_ : WriteBy) (q : Fin 4) (f : Fin 16) (mx : Fin 10) (v : W32) (s : State) : Out State :=
  onDev (guardDev (fld v 0 1 == 1) (fun d => committedWrite (originOf d by_) (foldCtlAddr q.val f.val) v (foldCtlEffect q.val f.val mx.val v) d)) s

/-- FOLD_VOID_STOP (R225). -/
def execFoldVoidStop (q : Fin 4) (f : Fin 16) (mx : Fin 10) (s : State) : Out State := onDev (foldVoidStop q.val f.val mx.val) s

/-- FOLD_RUN_END (R226). -/
def execFoldRunEnd (q : Fin 4) (f : Fin 16) (mx : Fin 10) (s : State) : Out State := onDev (foldRunEnd q.val f.val mx.val) s

end Sys2Proof.Machine
end

