-- ==== Sys2Proof/Machine/GcIsa.lean ====
section
/-! DEFINITION. The general cores' base instruction set (R298): RV64IMAFC with Zba, Zbb, Zicsr and Zifencei as ratified by RISC-V
International (PRESUMED from that standard): fields, expansion of compressed instructions, integer and single-precision results. -/

namespace Sys2Proof.Machine

/-! ### Fields and encodings -/

def rvOp (w : Nat) : Nat := bits w 0 7
def rvRd (w : Nat) : Nat := bits w 7 5
def rvF3 (w : Nat) : Nat := bits w 12 3
def rvRs1 (w : Nat) : Nat := bits w 15 5
def rvRs2 (w : Nat) : Nat := bits w 20 5
def rvF7 (w : Nat) : Nat := bits w 25 7
def rvImm12 (w : Nat) : Nat := bits w 20 12

/-- Signed immediates of the I, S, B, U and J layouts. -/
def immI (w : Nat) : Int := toSigned 12 (bits w 20 12)
def immS (w : Nat) : Int := toSigned 12 (32 * bits w 25 7 + bits w 7 5)
def immB (w : Nat) : Int := toSigned 13 (4096 * bits w 31 1 + 2048 * bits w 7 1 + 32 * bits w 25 6 + 2 * bits w 8 4)
def immU (w : Nat) : Int := toSigned 32 (4096 * bits w 12 20)
def immJ (w : Nat) : Int := toSigned 21 (2 ^ 20 * bits w 31 1 + 4096 * bits w 12 8 + 2048 * bits w 20 1 + 2 * bits w 21 10)

/-- A number as a 64-bit word, signed. -/
def w64 (x : Int) : W64 := BitVec.ofInt 64 x
/-- The low 32 bits sign-extended. -/
def sext32 (x : W64) : W64 := w64 (toSigned 32 x.toNat)

/-- Words of the R, I, S, B and J layouts. -/
def encR (op f3 f7 rd rs1 rs2 : Nat) : Nat := op + 2 ^ 7 * rd + 2 ^ 12 * f3 + 2 ^ 15 * rs1 + 2 ^ 20 * rs2 + 2 ^ 25 * f7
def encI (op f3 rd rs1 : Nat) (imm : Int) : Nat := op + 2 ^ 7 * rd + 2 ^ 12 * f3 + 2 ^ 15 * rs1 + 2 ^ 20 * ofSigned 12 imm
def encS (op f3 rs1 rs2 imm : Nat) : Nat :=
  op + 2 ^ 7 * bits imm 0 5 + 2 ^ 12 * f3 + 2 ^ 15 * rs1 + 2 ^ 20 * rs2 + 2 ^ 25 * bits imm 5 7
def encB (f3 rs1 : Nat) (imm : Int) : Nat :=
  let i := ofSigned 13 imm
  0x63 + 2 ^ 7 * bits i 11 1 + 2 ^ 8 * bits i 1 4 + 2 ^ 12 * f3 + 2 ^ 15 * rs1 + 2 ^ 25 * bits i 5 6 + 2 ^ 31 * bits i 12 1
def encJ (rd : Nat) (imm : Int) : Nat :=
  let i := ofSigned 21 imm
  0x6F + 2 ^ 7 * rd + 2 ^ 12 * bits i 12 8 + 2 ^ 20 * bits i 11 1 + 2 ^ 21 * bits i 1 10 + 2 ^ 31 * bits i 20 1

/-! ### Compressed instructions -/

/-- The 6-bit immediate of CI forms. -/
def cImm6 (h : Nat) : Nat := 32 * bits h 12 1 + bits h 2 5

/-- Quadrant 0. -/
def expandC0 (h : Nat) : Option Nat :=
  let rd := 8 + bits h 2 3
  let rs := 8 + bits h 7 3
  let uw := 8 * bits h 10 3 + 4 * bits h 6 1 + 64 * bits h 5 1
  let ud := 8 * bits h 10 3 + 64 * bits h 5 2
  match bits h 13 3 with
  | 0 =>
    let imm := 16 * bits h 11 2 + 64 * bits h 7 4 + 4 * bits h 6 1 + 8 * bits h 5 1
    if imm = 0 then none else some (encI 0x13 0 rd 2 imm)
  | 2 => some (encI 0x03 2 rd rs uw)
  | 3 => some (encI 0x03 3 rd rs ud)
  | 6 => some (encS 0x23 2 rs rd uw)
  | 7 => some (encS 0x23 3 rs rd ud)
  | _ => none

/-- Quadrant 1. -/
def expandC1 (h : Nat) : Option Nat :=
  let rd := bits h 7 5
  let rs := 8 + bits h 7 3
  let r2 := 8 + bits h 2 3
  let imm := toSigned 6 (cImm6 h)
  let off := toSigned 9 (256 * bits h 12 1 + 8 * bits h 10 2 + 64 * bits h 5 2 + 2 * bits h 3 2 + 32 * bits h 2 1)
  match bits h 13 3 with
  | 0 => some (encI 0x13 0 rd rd imm)
  | 1 => if rd = 0 then none else some (encI 0x1B 0 rd rd imm)
  | 2 => some (encI 0x13 0 rd 0 imm)
  | 3 =>
    if rd = 2 then
      let i := toSigned 10 (512 * bits h 12 1 + 16 * bits h 6 1 + 64 * bits h 5 1 + 128 * bits h 3 2 + 32 * bits h 2 1)
      if i = 0 then none else some (encI 0x13 0 2 2 i)
    else if imm = 0 then none
    else some (0x37 + 2 ^ 7 * rd + 2 ^ 12 * ofSigned 20 imm)
  | 4 =>
    match bits h 10 2 with
    | 0 => some (encI 0x13 5 rs rs (cImm6 h))
    | 1 => some (encI 0x13 5 rs rs (1024 + cImm6 h))
    | 2 => some (encI 0x13 7 rs rs imm)
    | _ =>
      match bits h 12 1, bits h 5 2 with
      | 0, 0 => some (encR 0x33 0 0x20 rs rs r2)
      | 0, 1 => some (encR 0x33 4 0 rs rs r2)
      | 0, 2 => some (encR 0x33 6 0 rs rs r2)
      | 0, 3 => some (encR 0x33 7 0 rs rs r2)
      | 1, 0 => some (encR 0x3B 0 0x20 rs rs r2)
      | 1, 1 => some (encR 0x3B 0 0 rs rs r2)
      | _, _ => none
  | 5 =>
    let j := toSigned 12 (2048 * bits h 12 1 + 16 * bits h 11 1 + 256 * bits h 9 2 + 1024 * bits h 8 1 + 64 * bits h 7 1
      + 128 * bits h 6 1 + 2 * bits h 3 3 + 32 * bits h 2 1)
    some (encJ 0 j)
  | 6 => some (encB 0 rs off)
  | _ => some (encB 1 rs off)

/-- Quadrant 2. -/
def expandC2 (h : Nat) : Option Nat :=
  let rd := bits h 7 5
  let r2 := bits h 2 5
  match bits h 13 3 with
  | 0 => some (encI 0x13 1 rd rd (cImm6 h))
  | 2 => if rd = 0 then none else some (encI 0x03 2 rd 2 (32 * bits h 12 1 + 4 * bits h 4 3 + 64 * bits h 2 2 : Nat))
  | 3 => if rd = 0 then none else some (encI 0x03 3 rd 2 (32 * bits h 12 1 + 8 * bits h 5 2 + 64 * bits h 2 3 : Nat))
  | 4 =>
    match bits h 12 1 with
    | 0 => if r2 = 0 then (if rd = 0 then none else some (encI 0x67 0 0 rd 0)) else some (encR 0x33 0 0 rd 0 r2)
    | _ => if r2 = 0 then (if rd = 0 then some 0x00100073 else some (encI 0x67 0 1 rd 0)) else some (encR 0x33 0 0 rd rd r2)
  | 6 => some (encS 0x23 2 2 r2 (4 * bits h 9 4 + 64 * bits h 7 2))
  | 7 => some (encS 0x23 3 2 r2 (8 * bits h 10 3 + 64 * bits h 7 3))
  | _ => none

/-- The 32-bit instruction that a compressed one stands for; none where it is reserved or needs the D extension. (PRESUMED, log 74.) -/
def expandC (h : Nat) : Option Nat :=
  if h = 0 then none
  else match h % 4 with
    | 0 => expandC0 h
    | 1 => expandC1 h
    | _ => expandC2 h

/-! ### Integer results -/

/-- Zeros above the highest one, and below the lowest one, of a w-bit number. -/
def clzOf (w n : Nat) : Nat := w - bitLen (n % 2 ^ w)
def ctzOf (w n : Nat) : Nat := (lowestBit (n % 2 ^ w) 0 w).getD w

/-- Rotation left of a w-bit number. -/
def rolOf (w n k : Nat) : Nat :=
  let m := n % 2 ^ w
  let s := k % w
  (m * 2 ^ s % 2 ^ w) ||| (m / 2 ^ (w - s))

/-- ORC.B and REV8. -/
def orcB (n : Nat) : Nat := ((List.range 8).map (fun i => if bits n (8 * i) 8 = 0 then 0 else 255 * 2 ^ (8 * i))).foldl (· + ·) 0
def rev8 (n : Nat) : Nat := leNat (leBytes 8 n).reverse

/-- A truth value as a word. -/
def bw (b : Bool) : W64 := if b then 1 else 0

/-- Signed quotient and remainder of w-bit numbers, toward zero, by zero and at the overflow as M says. -/
def divS (w : Nat) (a b : Int) : Int := if b = 0 then -1 else if a = -(2 ^ (w - 1) : Int) ∧ b = -1 then a else a.tdiv b
def remS (w : Nat) (a b : Int) : Int := if b = 0 then a else if a = -(2 ^ (w - 1) : Int) ∧ b = -1 then 0 else a.tmod b
def divU (w a b : Nat) : Nat := if b = 0 then 2 ^ w - 1 else a / b
def remU (a b : Nat) : Nat := if b = 0 then a else a % b

/-- OP-IMM. -/
def opImm (w : Nat) (a : W64) : Option W64 :=
  let imm := w64 (immI w)
  let sh := bits w 20 6
  match rvF3 w with
  | 0 => some (a + imm)
  | 2 => some (bw (a.slt imm))
  | 3 => some (bw (a.ult imm))
  | 4 => some (a ^^^ imm)
  | 6 => some (a ||| imm)
  | 7 => some (a &&& imm)
  | 1 =>
    if bits w 26 6 = 0 then some (a <<< sh)
    else match rvImm12 w with
      | 0x600 => some (BitVec.ofNat 64 (clzOf 64 a.toNat))
      | 0x601 => some (BitVec.ofNat 64 (ctzOf 64 a.toNat))
      | 0x602 => some (BitVec.ofNat 64 (popCount 64 a.toNat))
      | 0x604 => some (w64 (toSigned 8 a.toNat))
      | 0x605 => some (w64 (toSigned 16 a.toNat))
      | _ => none
  | _ =>
    match bits w 26 6 with
    | 0x00 => some (a >>> sh)
    | 0x10 => some (a.sshiftRight sh)
    | 0x18 => some (BitVec.ofNat 64 (rolOf 64 a.toNat (64 - sh)))
    | _ =>
      match rvImm12 w with
      | 0x287 => some (BitVec.ofNat 64 (orcB a.toNat))
      | 0x6B8 => some (BitVec.ofNat 64 (rev8 a.toNat))
      | _ => none

/-- OP-IMM-32. -/
def opImm32 (w : Nat) (a : W64) : Option W64 :=
  let sh := bits w 20 5
  let lo := a.toNat % 2 ^ 32
  match rvF3 w with
  | 0 => some (sext32 (a + w64 (immI w)))
  | 1 =>
    if rvF7 w = 0 then some (sext32 (a <<< sh))
    else if bits w 26 6 = 2 then some (BitVec.ofNat 64 lo <<< bits w 20 6)
    else match rvImm12 w with
      | 0x600 => some (BitVec.ofNat 64 (clzOf 32 lo))
      | 0x601 => some (BitVec.ofNat 64 (ctzOf 32 lo))
      | 0x602 => some (BitVec.ofNat 64 (popCount 32 lo))
      | _ => none
  | 5 =>
    match rvF7 w with
    | 0x00 => some (sext32 (BitVec.ofNat 64 (lo / 2 ^ sh)))
    | 0x20 => some (w64 (toSigned 32 lo / (2 ^ sh : Nat)))
    | 0x30 => some (sext32 (BitVec.ofNat 64 (rolOf 32 lo (32 - sh))))
    | _ => none
  | _ => none

/-- OP. -/
def opReg (w : Nat) (a b : W64) : Option W64 :=
  let sh := b.toNat % 64
  let sa := a.toInt
  let sb := b.toInt
  match rvF7 w, rvF3 w with
  | 0x00, 0 => some (a + b)
  | 0x00, 1 => some (a <<< sh)
  | 0x00, 2 => some (bw (a.slt b))
  | 0x00, 3 => some (bw (a.ult b))
  | 0x00, 4 => some (a ^^^ b)
  | 0x00, 5 => some (a >>> sh)
  | 0x00, 6 => some (a ||| b)
  | 0x00, 7 => some (a &&& b)
  | 0x20, 0 => some (a - b)
  | 0x20, 4 => some (a ^^^ ~~~b)
  | 0x20, 5 => some (a.sshiftRight sh)
  | 0x20, 6 => some (a ||| ~~~b)
  | 0x20, 7 => some (a &&& ~~~b)
  | 0x01, 0 => some (a * b)
  | 0x01, 1 => some (w64 (sa * sb / (2 ^ 64 : Nat)))
  | 0x01, 2 => some (w64 (sa * (b.toNat : Int) / (2 ^ 64 : Nat)))
  | 0x01, 3 => some (BitVec.ofNat 64 (a.toNat * b.toNat / 2 ^ 64))
  | 0x01, 4 => some (w64 (divS 64 sa sb))
  | 0x01, 5 => some (BitVec.ofNat 64 (divU 64 a.toNat b.toNat))
  | 0x01, 6 => some (w64 (remS 64 sa sb))
  | 0x01, 7 => some (BitVec.ofNat 64 (remU a.toNat b.toNat))
  | 0x10, 2 => some (b + (a <<< 1))
  | 0x10, 4 => some (b + (a <<< 2))
  | 0x10, 6 => some (b + (a <<< 3))
  | 0x05, 4 => some (if a.slt b then a else b)
  | 0x05, 5 => some (if a.ult b then a else b)
  | 0x05, 6 => some (if a.slt b then b else a)
  | 0x05, 7 => some (if a.ult b then b else a)
  | 0x30, 1 => some (BitVec.ofNat 64 (rolOf 64 a.toNat sh))
  | 0x30, 5 => some (BitVec.ofNat 64 (rolOf 64 a.toNat (64 - sh)))
  | _, _ => none

/-- OP-32. -/
def opReg32 (w : Nat) (a b : W64) : Option W64 :=
  let x := a.toNat % 2 ^ 32
  let y := b.toNat % 2 ^ 32
  let sh := y % 32
  let sx := toSigned 32 x
  let sy := toSigned 32 y
  let z := BitVec.ofNat 64 x
  match rvF7 w, rvF3 w with
  | 0x00, 0 => some (sext32 (a + b))
  | 0x00, 1 => some (sext32 (a <<< sh))
  | 0x00, 5 => some (sext32 (BitVec.ofNat 64 (x / 2 ^ sh)))
  | 0x20, 0 => some (sext32 (a - b))
  | 0x20, 5 => some (w64 (sx / (2 ^ sh : Nat)))
  | 0x01, 0 => some (sext32 (a * b))
  | 0x01, 4 => some (sext32 (w64 (divS 32 sx sy)))
  | 0x01, 5 => some (sext32 (BitVec.ofNat 64 (divU 32 x y)))
  | 0x01, 6 => some (sext32 (w64 (remS 32 sx sy)))
  | 0x01, 7 => some (sext32 (BitVec.ofNat 64 (remU x y)))
  | 0x04, 0 => some (b + z)
  | 0x04, 4 => if rvRs2 w = 0 then some (BitVec.ofNat 64 (x % 2 ^ 16)) else none
  | 0x10, 2 => some (b + (z <<< 1))
  | 0x10, 4 => some (b + (z <<< 2))
  | 0x10, 6 => some (b + (z <<< 3))
  | 0x30, 1 => some (sext32 (BitVec.ofNat 64 (rolOf 32 x sh)))
  | 0x30, 5 => some (sext32 (BitVec.ofNat 64 (rolOf 32 x (32 - sh))))
  | _, _ => none

/-- The result of an integer instruction that reads registers and the PC alone; none for any other word. (PRESUMED, log 74.) -/
def aluResult (w pc : Nat) (a b : W64) : Option W64 :=
  match rvOp w with
  | 0x37 => some (w64 (immU w))
  | 0x17 => some (w64 ((pc : Int) + immU w))
  | 0x13 => opImm w a
  | 0x1B => opImm32 w a
  | 0x33 => opReg w a b
  | 0x3B => opReg32 w a b
  | _ => none

/-- MX cycles until a result is usable (R304): M multiplications 3, divisions 34, others 1. (DEDUCED, log 78.) -/
def aluCost (w : Nat) : Nat :=
  if (rvOp w = 0x33 ∨ rvOp w = 0x3B) ∧ rvF7 w = 1 then (if rvF3 w < 4 then 3 else 34) else 1

/-- Whether a branch is taken; none where funct3 is reserved. -/
def brTaken (w : Nat) (a b : W64) : Option Bool :=
  match rvF3 w with
  | 0 => some (a == b)
  | 1 => some (a != b)
  | 4 => some (a.slt b)
  | 5 => some (!a.slt b)
  | 6 => some (a.ult b)
  | 7 => some (!a.ult b)
  | _ => none

/-- What an AMO stores: its code as GcAcc numbers it, its size in bytes, the old value and the operand. -/
def amoResult (op size old val : Nat) : Nat :=
  let w := 8 * size
  let a := old % 2 ^ w
  let b := val % 2 ^ w
  let lt := toSigned w a < toSigned w b
  match op with
  | 6 => b
  | 7 => (a + b) % 2 ^ w
  | 8 => a ^^^ b
  | 9 => a &&& b
  | 10 => a ||| b
  | 11 => if lt then a else b
  | 12 => if lt then b else a
  | 13 => if a < b then a else b
  | _ => if a < b then b else a

/-- The code of an AMO by its funct5, as GcAcc numbers it. -/
def amoCode (f5 : Nat) : Option Nat :=
  match f5 with
  | 0x02 => some 4
  | 0x03 => some 5
  | 0x01 => some 6
  | 0x00 => some 7
  | 0x04 => some 8
  | 0x0C => some 9
  | 0x08 => some 10
  | 0x10 => some 11
  | 0x14 => some 12
  | 0x18 => some 13
  | 0x1C => some 14
  | _ => none

/-! ### Single-precision results -/

/-- A value converted to an integer of w bits, with flags: out of range or NaN gives the nearest bound and NV. -/
def toInt (rm w : Nat) (signed : Bool) (v : FVal) : Int × Nat :=
  let hi : Int := if signed then 2 ^ (w - 1) - 1 else 2 ^ w - 1
  let lo : Int := if signed then -(2 ^ (w - 1) : Int) else 0
  match v with
  | .nan _ => (hi, 16)
  | .inf s => (if s then lo else hi, 16)
  | .fin s m e =>
    let r := roundAt rm s m e 0 false
    let x : Int := if s then -(r.1 : Int) else r.1
    if x < lo then (lo, 16) else if hi < x then (hi, 16) else (x, b2n r.2)

/-- Comparison of two values that are no NaN: less, equal. -/
def fLess : FVal → FVal → Bool
  | .inf s, .inf t => s && !t
  | .inf s, .fin _ _ _ => s
  | .fin _ _ _, .inf t => !t
  | .fin s m e, .fin t n g =>
    let k := min e g
    let a : Int := (if s then -1 else 1) * ((m * 2 ^ (e - k).toNat : Nat) : Int)
    let b : Int := (if t then -1 else 1) * ((n * 2 ^ (g - k).toNat : Nat) : Int)
    a < b
  | _, _ => false
def fSame (a b : FVal) : Bool := !a.isNan && !b.isNan && !fLess a b && !fLess b a

/-- FMIN and FMAX on patterns: -0 lies below +0. -/
def fMinMax (max : Bool) (x y : Nat) : Nat × Nat :=
  let a := f32.decode x
  let b := f32.decode y
  let fl := nvOf [a, b]
  let less := fLess a b || (fSame a b && bit x 31 && !bit y 31)
  if a.isNan && b.isNan then (f32.nanBits, fl)
  else if a.isNan then (y, fl)
  else if b.isNan then (x, fl)
  else (if less != max then x else y, fl)

/-- FCLASS. -/
def fClass (x : Nat) : Nat :=
  let s := bit x 31
  match f32.decode x with
  | .nan sig => if sig then 2 ^ 8 else 2 ^ 9
  | .inf _ => if s then 1 else 2 ^ 7
  | .fin _ m _ =>
    if m = 0 then (if s then 2 ^ 3 else 2 ^ 4)
    else if bits x 23 8 = 0 then (if s then 2 ^ 2 else 2 ^ 5)
    else if s then 2 else 2 ^ 6

/-- A result of a float instruction: to a float or an integer register, with flags. -/
inductive FpOut where
  | f (v flags : Nat)
  | x (v : W64) (flags : Nat)
  deriving DecidableEq, Repr

/-- The rounding mode of a word under frm; none where it is reserved. -/
def rvRm (w frm : Nat) : Option Nat :=
  let rm := if rvF3 w = 7 then frm else rvF3 w
  if rm < 5 then some rm else none

def fOut (r : FRes) : FpOut := .f r.1 r.2

/-- OP-FP and the fused multiply-adds: patterns of the float operands, the integer operand. (PRESUMED, log 74.) -/
def fpResult (w frm fa fb fc : Nat) (a : W64) : Option FpOut :=
  let va := f32.decode fa
  let vb := f32.decode fb
  let vc := f32.decode fc
  let rs2 := rvRs2 w
  if rvOp w ≠ 0x53 then
    if bits w 25 2 ≠ 0 then none
    else (rvRm w frm).bind (fun rm =>
      match rvOp w with
      | 0x43 => some (fOut (f32.fma rm va vb vc))
      | 0x47 => some (fOut (f32.fma rm va vb vc.neg))
      | 0x4B => some (fOut (f32.fma rm va.neg vb vc))
      | 0x4F => some (fOut (f32.fma rm va.neg vb vc.neg))
      | _ => none)
  else
    match rvF7 w with
    | 0x00 => (rvRm w frm).map (fun rm => fOut (f32.add rm va vb))
    | 0x04 => (rvRm w frm).map (fun rm => fOut (f32.add rm va vb.neg))
    | 0x08 => (rvRm w frm).map (fun rm => fOut (f32.mul rm va vb))
    | 0x0C => (rvRm w frm).map (fun rm => fOut (f32.div rm va vb))
    | 0x2C => if rs2 = 0 then (rvRm w frm).map (fun rm => fOut (f32.sqrt rm va)) else none
    | 0x10 =>
      let s (b : Bool) : FpOut := .f (fa % 2 ^ 31 + (if b then 2 ^ 31 else 0)) 0
      match rvF3 w with
      | 0 => some (s (bit fb 31))
      | 1 => some (s (!bit fb 31))
      | 2 => some (s (bit fa 31 != bit fb 31))
      | _ => none
    | 0x14 =>
      match rvF3 w with
      | 0 => some (fOut (fMinMax false fa fb))
      | 1 => some (fOut (fMinMax true fa fb))
      | _ => none
    | 0x50 =>
      let any := va.isNan || vb.isNan
      match rvF3 w with
      | 2 => some (.x (bw (fSame va vb)) (nvOf [va, vb]))
      | 1 => some (.x (bw (!any && fLess va vb)) (if any then 16 else 0))
      | 0 => some (.x (bw (!any && (fLess va vb || fSame va vb))) (if any then 16 else 0))
      | _ => none
    | 0x60 =>
      (rvRm w frm).bind (fun rm =>
        match rs2 with
        | 0 => some (.x (w64 (toInt rm 32 true va).1) (toInt rm 32 true va).2)
        | 1 => some (.x (sext32 (w64 (toInt rm 32 false va).1)) (toInt rm 32 false va).2)
        | 2 => some (.x (w64 (toInt rm 64 true va).1) (toInt rm 64 true va).2)
        | 3 => some (.x (w64 (toInt rm 64 false va).1) (toInt rm 64 false va).2)
        | _ => none)
    | 0x68 =>
      (rvRm w frm).bind (fun rm =>
        match rs2 with
        | 0 => some (fOut (f32.roundInt rm false (toSigned 32 a.toNat) 0))
        | 1 => some (fOut (f32.roundInt rm false (a.toNat % 2 ^ 32 : Nat) 0))
        | 2 => some (fOut (f32.roundInt rm false a.toInt 0))
        | 3 => some (fOut (f32.roundInt rm false (a.toNat : Int) 0))
        | _ => none)
    | 0x70 =>
      if rs2 ≠ 0 then none
      else match rvF3 w with
        | 0 => some (.x (w64 (toSigned 32 fa)) 0)
        | 1 => some (.x (BitVec.ofNat 64 (fClass fa)) 0)
        | _ => none
    | 0x78 => if rs2 = 0 ∧ rvF3 w = 0 then some (.f (a.toNat % 2 ^ 32) 0) else none
    | _ => none

/-- MX cycles until a float result is usable (R304). (DEDUCED, log 78.) -/
def fpCost (w : Nat) : Nat := if rvOp w = 0x53 ∧ (rvF7 w = 0x0C ∨ rvF7 w = 0x2C) then 16 else 4

end Sys2Proof.Machine
end

