-- ==== Sys2Proof/Machine/GcBase.lean ====
section
/-! DEFINITION. General cores, shared part (R298-R302, R311, R312, R322): a thread's registers, traps, the start of an event on a
thread, mailboxes, the save area, and the trace of R329. A thread's number is 16 * general core + thread. -/

namespace Sys2Proof.Machine

def getThread (d : Dev) (t : Nat) : GcThread := mapGet {} t d.threads
def updThread (t : Nat) (f : GcThread → GcThread) (d : Dev) : Dev := { d with threads := mapUpd {} t f d.threads }
def getCore (d : Dev) (g : Nat) : GcCore := mapGet {} g d.cores
def updCore (g : Nat) (f : GcCore → GcCore) (d : Dev) : Dev := { d with cores := mapUpd {} g f d.cores }

/-- General core and quadrant of a thread, and its number among the 1,024 threads of its quadrant. -/
def gcOf (t : Nat) : Nat := t / 16
def gcQuad (t : Nat) : Nat := t / 1024
def localThread (t : Nat) : Nat := t % 1024

/-- An integer register; x0 reads as 0 and takes no value. -/
def GcThread.reg (th : GcThread) (n : Nat) : W64 := if n = 0 then 0 else mapGet 0#64 n th.x
def GcThread.setReg (n : Nat) (v : W64) (th : GcThread) : GcThread := if n = 0 then th else { th with x := mapSet 0#64 n v th.x }
/-- A float register, and a write of one, which makes FS dirty. -/
def GcThread.freg (th : GcThread) (n : Nat) : Nat := (mapGet 0#32 n th.f).toNat
def GcThread.setFreg (n v : Nat) (th : GcThread) : GcThread :=
  { th with f := mapSet 0#32 n (BitVec.ofNat 32 v) th.f, mstatus := putBits th.mstatus 13 2 3 }

/-- A counter of the quadrant's GCX block (R312). -/
def gcCnt (t i n : Nat) (d : Dev) : Dev := addCnt .gcx (gcQuad t) (0x20 + 4 * i) n d

/-- A thread enters M mode (R299): cause, value and the PC of the instruction. -/
def GcThread.enter (cause tval pc : Nat) (th : GcThread) : GcThread :=
  let ms := putBits (putBits (putBits th.mstatus 7 1 (bits th.mstatus 3 1)) 3 1 0) 11 2 th.mode
  { th with mepc := pc, mcause := cause, mtval := tval, mstatus := ms, mode := 3, pc := th.mtvec, park := .none }

/-- A trap taken by a thread, ready for its next instruction from an MX cycle on; the sampler's track of the instruction ends (R438). -/
def gcTrap (t cause tval pc now : Nat) (d : Dev) : Dev :=
  pmuEv (gcQuad t) 10 1 (byThread d t) .none
    (gcCnt t 5 1 (updThread t (fun th => { th.enter cause tval pc with readyAt := now }) (sampleEnd (gcQuad t) 0 t (now / 2) true d)))

/-- A thread's instruction retires (R299, R436, R438). -/
def gcRetire (t vx : Nat) (d : Dev) : Dev :=
  sampleEnd (gcQuad t) 0 t vx false (sampleStage (gcQuad t) 0 t 3
    (pmuEv (gcQuad t) 0 1 (byThread d t) .none (updThread t (fun th => { th with instret := th.instret + 1 }) d)))

/-- A fault noted in GCX.ERR and GCX.FAULT (R307, R312): bit 0 poison, bit 1 access. -/
def gcNote (t bitNo : Nat) (d : Dev) : Dev :=
  setR .gcx (gcQuad t) 0x10 (gcOf t % 64 + 256 * (t % 16)) (orR .gcx (gcQuad t) 0xC (2 ^ bitNo) d)

/-- The Shepherd may dispatch to a core (R312). -/
def coreEn (d : Dev) (g : Nat) : Bool := getF d .gcCore g 0 0 1 == 1

/-- A thread that serves nothing and is not being restored (R301, R311). -/
def GcThread.idle (th : GcThread) : Bool := !th.busy && th.save.isNone && th.restore.isNone

/-! ### Mailboxes (R322) -/

/-- Scratchpad word of a thread's mailbox, and whether it holds an event. -/
def mailWord (d : Dev) (t : Nat) : Nat := (shpCfg d (gcQuad t) 4 4 % 2 ^ 23 + 2 * localThread t) % 2 ^ 23
def mailFull (d : Dev) (t : Nat) : Bool := spadByte d (gcQuad t) (8 * mailWord d t) != 0#8

/-! ### Agreement keys (R316) -/

/-- The number under which a key's holder is known while its event waits in a save slot. -/
def slotHolder (slot : Nat) : Nat := 4096 + slot

/-- The keys of a holder pass to another: a preempted event keeps its key (R316). -/
def keyMove (q from_ to_ : Nat) (d : Dev) : Dev :=
  updShp q (fun s => { s with keys := s.keys.map (fun k => if k.thread = from_ ∧ !k.mailbox then { k with thread := to_ } else k) }) d

/-- A key held through a thread, or its mailbox, released in a VX cycle. (DEDUCED, log 83.) -/
def keyFree (t : Nat) (mailbox : Bool) (vx : Nat) (d : Dev) : Dev :=
  updShp (gcQuad t) (fun s =>
    let gone := s.keys.filter (fun k => k.thread == t && k.mailbox == mailbox)
    { s with keys := s.keys.filter (fun k => !(k.thread == t && k.mailbox == mailbox))
             freed := (s.freed.filter (fun e => vx ≤ e.2)) ++ gone.map (fun k => (k.key, vx)) }) d

/-- The tag of a Drover POST reports (R323). -/
def tagDone (tag : Option (InstRef × Nat)) (code q : Nat) (d : Dev) : Dev :=
  match tag with
  | some (i, n) => report { inst := i, tag := n, code := code, remote := i.q != q } d
  | none => d

/-- A mailbox is emptied by its thread: MEIP clears, the key of an ATOMIC delivery is released, its tag reports (R322, R323). -/
def mailEmptied (t vx : Nat) (d : Dev) : Dev :=
  let th := getThread d t
  match th.mail with
  | none => d
  | some (_, tag) =>
    tagDone tag 0 (gcQuad t) (keyFree t true vx (updThread t (fun th => { th with mail := none, meip := false }) d))

/-! ### Start of an event, save and restore (R301, R311, R320) -/

/-- Entry point and mode of an event (R320). -/
def entryOf (d : Dev) (q : Nat) (ev : Event) : Nat × Nat :=
  let te := shpCfg d q (0x100 + 16 * ev.typ) 8
  if ev.typ < 0x40 ∧ te ≠ 0 then (te, shpCfg d q (0x108 + 16 * ev.typ) 1)
  else (shpCfg d q (0x60 + 16 * ev.cls) 8, shpCfg d q (0x68 + 16 * ev.cls) 1)

/-- The thread begins an event at its entry point (R301); every other register stays. -/
def startThread (t : Nat) (e : ReadyEnt) (at_ : Nat) (d : Dev) : Dev :=
  let en := entryOf d (gcQuad t) e.ev
  updThread t (fun th =>
    let th1 := (th.setReg 10 (BitVec.ofNat 64 e.ev.payload)).setReg 11 (BitVec.ofNat 64 (leNat ((eventBytes e.ev).take 8)))
    { th1 with pc := en.1, mode := if en.2 = 3 then 3 else 0, busy := true, attach := e.attach, ev := e.ev, dl := e.dl, tag := e.tag
               park := .none, readyAt := at_, resv := none }) d

/-- Slots of the save pool (R311): how many there are, those in use, the lowest free one, and a slot's word address. -/
def saveSlots (d : Dev) (q : Nat) : Nat := min 1024 (getF d .gcx q 4 0 11)
def slotsInUse (d : Dev) (q : Nat) : List Nat :=
  (getShp d q).resume.map (·.slot)
    ++ (d.threads.filter (fun e => e.1 / 1024 == q)).flatMap (fun e =>
      (match e.2.save with
       | some (_, some s, s') => [s, s']
       | some (_, none, s') => [s']
       | none => []) ++ (match e.2.restore with
       | some (_, s, _) => [s]
       | none => []))
def freeSlot (d : Dev) (q : Nat) : Option Nat := (List.range (saveSlots d q)).find? (fun s => !(slotsInUse d q).contains s)
def saveWord (d : Dev) (q s : Nat) : Nat := getF d .gcx q 0 0 23 + 80 * s

/-- The 640 bytes of a saved thread (R311). (DEDUCED, log 82.) -/
def saveBytes (d : Dev) (th : GcThread) : List Byte :=
  ((List.range 32).flatMap (fun i => leBytes 8 (th.reg i).toNat))
    ++ ((List.range 32).flatMap (fun i => leBytes 4 (th.freg i) ++ leBytes 4 0xFFFFFFFF))
    ++ leBytes 8 th.pc
    ++ leBytes 8 (th.mode + 4 * (th.fcsr % 256) + 2 ^ 10 * bits th.mstatus 3 1 + 2 ^ 11 * bits th.mstatus 7 1 + 2 ^ 12 * bits th.mstatus 11 2)
    ++ leBytes 8 th.mepc ++ leBytes 8 th.mcause ++ leBytes 8 th.mtval ++ leBytes 8 th.mscratch
    ++ eventBytes th.ev ++ leBytes 8 d.dt ++ List.replicate 56 0#8

/-- A thread's state read back (R311); CSRs that the area does not hold stay the new thread's. (DEDUCED, log 82.) -/
def restoreFrom (bs : List Byte) (e : ReadyEnt) (th : GcThread) : GcThread :=
  let st := field bs 0x208 8
  let ms := putBits (putBits (putBits th.mstatus 3 1 (bits st 10 1)) 7 1 (bits st 11 1)) 11 2 (bits st 12 2)
  let th1 := (List.range 32).foldl (fun th i => th.setReg i (BitVec.ofNat 64 (field bs (8 * i) 8))) th
  let th2 := (List.range 32).foldl (fun (th : GcThread) i =>
    { th with f := mapSet 0#32 i (BitVec.ofNat 32 (field bs (0x100 + 8 * i) 4)) th.f }) th1
  { th2 with pc := field bs 0x200 8, mode := bits st 0 2, fcsr := bits st 2 8, mstatus := ms, mepc := field bs 0x210 8
             mcause := field bs 0x218 8, mtval := field bs 0x220 8, mscratch := field bs 0x228 8
             busy := true, restore := none, attach := e.attach, ev := e.ev, dl := e.dl, tag := e.tag, park := .none, resv := none }

/-! ### Trace (R329) -/

/-- The wait of R328 in VX cycles. -/
def waitOf (e : ReadyEnt) (vx : Nat) : Nat := vx - e.vx

/-- A core is traced. -/
def coreTraced (d : Dev) (q c : Nat) : Bool :=
  (List.range 8).any (fun n =>
    let r := 0x58 + 4 * (n / 4)
    getF d .shp q r (8 * (n % 4) + 6) 1 == 1 && getF d .shp q r (8 * (n % 4)) 6 == c)

/-- A trace entry for a thread, made in an MX cycle: kind, the event and its wait; it waits for the open pool. -/
def trace (t kind wait : Nat) (ev : Event) (now : Nat) (d : Dev) : Dev :=
  let q := gcQuad t
  let c := gcOf t % 64
  let head := (getR d .shp q 0x60).toNat + (getShp d q).traces.length
  if getF d .shp q 0x50 0 1 = 0 ∨ !coreTraced d q c ∨ (getF d .shp q 0x50 1 1 = 0 ∧ 65536 ≤ head) then d
  else
    let bs := leBytes 4 d.dt ++ leBytes 1 kind ++ leBytes 1 c ++ leBytes 1 (t % 16) ++ leBytes 1 ev.typ
      ++ leBytes 4 (ev.key % 2 ^ 24 + 2 ^ 24 * (ev.cls % 8) + 2 ^ 27 * (ev.order % 4)) ++ leBytes 4 (satTo 32 wait)
    updShp q (fun s => { s with traces := s.traces ++ [(now, ev.cls, bs)] }) d

/-- The oldest trace entry that waits, as an access of the open pool (R28, R29, R329). -/
def traceReq (d : Dev) (q : Nat) : List PoolReq :=
  match (getShp d q).traces with
  | [] => []
  | (at_, cls, bs) :: _ =>
    [{ gc := 64 * q, thread := 16, dl := noDeadline, at_ := at_, unit := some (149, cls)
       acc := { rd := 0, addr := 8 * (getF d .shp q 0x54 0 23 + 2 * ((getR d .shp q 0x60).toNat % 65536)), size := 16, op := 3, val := leNat bs } }]

/-- Its grant: the entry is written, and counted in TRACE_HEAD. -/
def traceWrite (q : Nat) (r : PoolReq) (d : Dev) : Dev :=
  setR .shp q 0x60 ((getR d .shp q 0x60).toNat + 1)
    (spadWrite { req := 149, idx := (r.unit.getD (149, 0)).2 } q (r.acc.addr % 2 ^ 26) (leBytes 16 r.acc.val)
      (updShp q (fun s => { s with traces := s.traces.drop 1 }) d))

/-- Trace entries that have waited for 64 VX cycles are discarded (R329). -/
def traceExpire (q w : Nat) (d : Dev) : Dev :=
  let late (e : Nat × Nat × List Byte) : Bool := decide (e.1 + 128 ≤ w)
  guardDev ((getShp d q).traces.any late)
    (fun d => orR .shp q 0xC 8 (updShp q (fun s => { s with traces := s.traces.filter (fun e => !late e) }) d)) d

/-! ### Core registers (R312) -/

/-- A core's instruction cache is invalidated (R305, R312). -/
def icacheClear (g : Nat) (d : Dev) : Dev := updCore g (fun c => { c with icache := [] }) d

/-- A write of a core's CTL (R312): EN is stored, IINV invalidates. -/
def coreCtlAddr (g : Nat) : Nat := addrOf .gcCore g 0
def coreCtlEffect (g : Nat) (v : W32) (d : Dev) : Dev :=
  guardDev (fld v 1 1 == 1) (icacheClear g) (storeFields (coreCtlAddr g) v d)

end Sys2Proof.Machine
end

