-- ==== Sys2Proof/Machine/Shepherd.lean ====
section
/-! DEFINITION. The Shepherds (R313-R329): acceptance of posts, spill rings and refill, the choice and dispatch of events, mailboxes,
preemption, paddocks, and the notice of a void, with their commands. -/

namespace Sys2Proof.Machine

/-! ### Arrival (R313-R315, R318, R319) -/

/-- A counter of a Shepherd (R327), and a bit of its ERR. -/
def shpCnt (q i n : Nat) (d : Dev) : Dev := addCnt .shp q (0x80 + 4 * i) n d
def shpErr (q m : Nat) (d : Dev) : Dev := orR .shp q 0xC m d

def getSpill (d : Dev) (q r : Nat) : SpillSt := (getShp d q).spills.getD r {}
def updSpill (q r : Nat) (f : SpillSt → SpillSt) (d : Dev) : Dev := updShp q (fun s => { s with spills := updAt f r s.spills }) d

/-- Capacity in events and DVA of a spill ring: 0 that of the ready list, 1 to 4 those of the paddocks (R326). -/
def spillCap (d : Dev) (q r : Nat) : Nat := shpCfg d q (0x18 + 16 * r) 4
def spillDva (d : Dev) (q r : Nat) : Nat := shpCfg d q (0x10 + 16 * r) 8

/-- Events that a spill ring holds, its write buffer included. -/
def spillDepth (s : SpillSt) : Nat := s.ring.length + s.wbuf.length

/-- A register bit or result for the poster of an event (R310): rd of an SPOST. (DESIGN CHOICE, log 81.) -/
def answerPost (ret : Option (Nat × Nat × Nat)) (v : W64) (vx : Nat) (d : Dev) : Dev :=
  match ret with
  | none => d
  | some (g, th, rd) =>
    let t := 16 * g + th
    match (getThread d t).park with
    | .post _ => gcRetire t vx (updThread t (fun x => { (x.setReg rd v) with park := .none, readyAt := max x.readyAt (2 * vx + 1) }) d)
    | _ => d

/-- An event dropped (R319): counted, its Drover tag told. -/
def dropEvent (q : Nat) (e : ReadyEnt) (d : Dev) : Dev := tagDone e.tag 1 q (shpCnt q 6 1 d)

/-- The lowest free entry of the on-chip list, which an arriving event takes. (DESIGN CHOICE, log 119.) -/
def freeIdx (s : ShpSt) : Nat := ((List.range 4096).find? (fun i => s.ready.all (fun e => e.idx != i))).getD 4096

/-- An event put on chip, to be dispatched from the next VX cycle on. -/
def putOnChip (q vx : Nat) (e : ReadyEnt) (d : Dev) : Dev :=
  updShp q (fun s => { s with ready := s.ready ++ [{ e with idx := freeIdx s, avail := vx + 1 }] }) d

/-- An event arrives (R315, R318): on chip, in the spill ring, or dropped; and whether it was accepted. -/
def arrive (q vx : Nat) (e0 : ReadyEnt) (d : Dev) : Bool × Dev :=
  let s := getShp d q
  let e := { e0 with arr := s.nextArr, vx := vx }
  let by_ := byShepherd e.ev.cls
  let d1 := pmuEv q 52 1 by_ .none (shpCnt q 0 1 (updShp q (fun s => { s with nextArr := s.nextArr + 1 }) d))
  let occ := s.ready.length
  let urgent := e.ev.order == 0 && decide (shpCfg d q 1 1 ≤ e.ev.cls)
  let empty := spillDepth (getSpill d q 0) == 0
  if (urgent && decide (occ < 4096)) || (empty && decide (occ < 3840)) then (true, putOnChip q vx e d1)
  else if spillDepth (getSpill d q 0) < spillCap d q 0 then
    (true, pmuEv q 55 1 by_ .none (shpCnt q 4 1 (updSpill q 0 (fun x => { x with wbuf := x.wbuf ++ [e], last := vx }) d1)))
  else (false, dropEvent q e (shpErr q 2 d1))

/-- Insertion by due time, after those posted before (R325). -/
def insertDue (e : ReadyEnt) : List ReadyEnt → List ReadyEnt
  | [] => [e]
  | x :: r => if e.due < x.due then e :: x :: r else x :: insertDue e r

/-- Tick of a paddock (R326). -/
def padTick (d : Dev) (q p : Nat) : Nat :=
  let t := shpCfg d q (0x2C + 16 * p) 4
  if t = 0 then 125 else t

def padOf (d : Dev) (q p : Nat) : List ReadyEnt := (getShp d q).pads.getD p []
def updPad (q p : Nat) (f : List ReadyEnt → List ReadyEnt) (d : Dev) : Dev := updShp q (fun s => { s with pads := updAt f p s.pads }) d

/-- A post to a paddock (R325): sorted in, or to the paddock's spill ring, or dropped; and whether it was accepted. -/
def padPost (q p due vx : Nat) (e0 : ReadyEnt) (d : Dev) : Bool × Dev :=
  let tau := padTick d q p
  let s := getShp d q
  let e := { e0 with arr := s.nextArr, vx := vx, due := due, rel := ceilDiv due tau * tau }
  let d1 := updShp q (fun s => { s with nextArr := s.nextArr + 1 }) d
  let pad := padOf d q p
  let room := decide (spillDepth (getSpill d q (1 + p)) < spillCap d q (1 + p))
  let spill (x : ReadyEnt) (d : Dev) : Dev := updSpill q (1 + p) (fun y => { y with wbuf := y.wbuf ++ [x], last := vx }) d
  if pad.length < 16384 then (true, updPad q p (insertDue e) d1)
  else if !room then (false, dropEvent q e (shpErr q 2 d1))
  else
    match pad.getLast? with
    | some l => if e.due < l.due then (true, spill l (updPad q p (fun y => insertDue e y.dropLast) d1)) else (true, spill e d1)
    | none => (true, spill e d1)

/-- One post accepted, or dropped as of type 0 (R314). -/
def acceptPost (q vx : Nat) (p : Post) (d : Dev) : Dev :=
  let e : ReadyEnt :=
    { ev := { p.ev with flags := b2n p.attach.isSome + bits p.ev.flags 4 1 * 16 }, dl := p.dl, attach := p.attach, tag := p.tag }
  if p.ev.typ = 0 then answerPost p.ret Config.badPost vx (dropEvent q e (shpErr q 1 d))
  else
    let r := match p.pad with
      | some (k, due) => padPost q k due vx e d
      | none => arrive q vx e d
    answerPost p.ret (if r.1 then 0 else 1) vx r.2

/-- Entries released from a paddock arrive in the ready list with PADDOCK set (R325). -/
def padArrive (q p vx : Nat) (es : List ReadyEnt) (d : Dev) : Dev :=
  es.foldl (fun d e => (arrive q vx { e with ev := { e.ev with flags := e.ev.flags ||| 8 } } d).2)
    (pmuUc q (572 + p) es.length d)

/-- What reaches a Shepherd in a VX cycle: a post, or an entry that one of its paddocks releases. -/
inductive Incoming where
  | post (p : Post)
  | release (p : Nat) (e : ReadyEnt)
  deriving DecidableEq, Repr

/-- Its request for acceptance (R29). -/
def Incoming.arb : Incoming → ArbReq
  | .post p => ⟨p.src, p.dl, p.ev.cls⟩
  | .release _ e => ⟨171, e.dl, e.ev.cls⟩

def acceptIncoming (q vx : Nat) (i : Incoming) (d : Dev) : Dev :=
  match i with
  | .post p => acceptPost q vx p d
  | .release p e => padArrive q p vx [e] d

/-- What comes in one VX cycle is accepted in the order of R27, with the class as rank; fuel bounds its number. -/
def acceptPosts (q vx : Nat) : Nat → List Incoming → Dev → Dev
  | 0, _, d => d
  | fuel + 1, l, d =>
    match arbitrate arbAccept q 172 (l.map Incoming.arb) d with
    | (none, d1) => d1
    | (some w, d1) =>
      match takeFirst (fun p : Incoming => p.arb.id == w) l with
      | none => d1
      | some (p, r) => acceptPosts q vx fuel r (acceptIncoming q vx p d1)

/-- Entries of a paddock whose release time has come, and whose post lies in an earlier VX cycle (R325). -/
def padDue (d : Dev) (q p now : Nat) : List ReadyEnt := (padOf d q p).filter (fun e => decide (e.rel ≤ d.dt) && decide (e.vx < now))
/-- They leave the paddock. -/
def padTake (q p now : Nat) (d : Dev) : Dev := updPad q p (fun l => l.filter (fun e => !(decide (e.rel ≤ d.dt) && decide (e.vx < now)))) d

/-- SHP_POST_ACCEPT (R315): the oldest posts on their way to a Shepherd reach it in one VX cycle, with what its paddocks release in that
cycle. (DESIGN CHOICE, log 5.) -/
def shpPostAccept (q count vx : Nat) (d : Dev) : Dev :=
  let now := vxAt d vx
  let mine := ((d.fab.posts.zipIdx).filter (fun e => e.1.q == q)).take count
  let keep := ((d.fab.posts.zipIdx).filter (fun e => !mine.any (fun m => m.2 == e.2))).map (·.1)
  let all := mine.map (fun e => Incoming.post e.1) ++ [0, 1, 2, 3].flatMap (fun p => (padDue d q p now).map (Incoming.release p))
  acceptPosts q now all.length all ([0, 1, 2, 3].foldl (fun d p => padTake q p now d) { d with fab := { d.fab with posts := keep } })

/-- The quadrant's DMA issuer is free in a VX cycle for a burst of the Shepherd, and is used by it (R240, R318). -/
def issuerFree (d : Dev) (q now : Nat) : Bool := decide (mapGet 0 q d.memsys.issueAt ≤ now)
def issuerTake (q now : Nat) (d : Dev) : Dev := { d with memsys := { d.memsys with issueAt := mapSet 0 q (now + 1) d.memsys.issueAt } }

/-! ### Spill bursts (R318, R319) -/

/-- The 32 bytes of a spill ring entry (R319). -/
def spillBytes (e : ReadyEnt) : List Byte :=
  eventBytes e.ev ++ leBytes 4 (e.dl / 2 ^ 32)
    ++ (match e.attach with
      | some i => leBytes 1 (128 + 32 * i.q) ++ leBytes 1 i.ctx
      | none => leBytes 1 0 ++ leBytes 1 0)
    ++ List.replicate 10 0#8

/-- The DVA of an entry of a spill ring by its count. -/
def spillAddr (d : Dev) (q r n : Nat) : Nat := spillDva d q r + 32 * (n % max 1 (spillCap d q r))

/-- Entries at consecutive counts written, each to its place. -/
def writeEntries (q r n : Nat) (dl : Nat) (es : List ReadyEnt) (d : Dev) : Dev :=
  (es.zipIdx).foldl (fun d x => dramAccept dl (dvaPa d (spillAddr d q r (n + x.2))) (spillBytes x.1)
    { q := q, by_ := byShepherd x.1.ev.cls, dva := spillAddr d q r (n + x.2) } d) d

/-- The earliest deadline of a group. -/
def groupDl (es : List ReadyEnt) : Nat := es.foldl (fun m e => min m e.dl) noDeadline

/-- SHP_SPILL_WRITE (R318): the oldest 8 entries of a write buffer, or fewer 64 VX cycles after the last arrival; a fault drops
them. -/
def spillWrite (q r vx : Nat) (d : Dev) : Dev :=
  let s := getSpill d q r
  let now := vxAt d vx
  if s.wbuf.isEmpty || (decide (s.wbuf.length < 8) && decide (now < s.last + 64)) || !issuerFree d q now then d
  else
    let g := s.wbuf.take 8
    let bad := (g.zipIdx).any (fun e => (dvaFault d (spillAddr d q r (s.tail + e.2)) 32 .write).isSome)
    let d1 := updSpill q r (fun x => { x with wbuf := x.wbuf.drop 8 }) d
    if bad then g.foldl (fun d e => dropEvent q e d) (shpErr q 4 d1)
    else
      updSpill q r (fun x => { x with ring := x.ring ++ g, tail := x.tail + g.length })
        (writeEntries q r s.tail (groupDl g) g (issuerTake q now d1))

/-- An entry as its bytes in DRAM give it, with SPILLED set: flags stay as the Shepherd knows them (R313, R324). -/
def readEntry (d : Dev) (q r n : Nat) (e : ReadyEnt) : ReadyEnt :=
  let bs := dvaPeek d (spillAddr d q r n) 32
  { e with ev := { eventOf bs with flags := e.ev.flags ||| 4 }, dl := field bs 8 4 + 2 ^ 32 * field bs 16 4 }

/-- The oldest 8 entries taken back from a spill ring, from DRAM or straight from the write buffer; a fault or poisoned data in the
burst drops what it held (R318, R319). (DEDUCED, log 83.) -/
def takeBack (q r now : Nat) (d0 : Dev) : List ReadyEnt × Dev :=
  let s := getSpill d0 q r
  let d := guardDev (!s.ring.isEmpty) (issuerTake q now) d0
  let g := s.ring.take 8
  let direct := (s.wbuf.take (8 - g.length)).map (fun e => { e with ev := { e.ev with flags := e.ev.flags ||| 4 } })
  let places := (List.range g.length).map (fun i => spillAddr d q r (s.head + i))
  let bad := places.any (fun a => (dvaFault d a 32 .read).isSome || dvaBad d a 32)
  let d1 := updSpill q r (fun x =>
    { x with ring := x.ring.drop 8, wbuf := x.wbuf.drop (8 - g.length), head := x.head + g.length }) d
  if bad then (direct, g.foldl (fun d e => dropEvent q e d) (shpErr q 4 d1))
  else ((g.zipIdx).map (fun e => readEntry d q r (s.head + e.2) e.1) ++ direct, d1)

/-- SHP_REFILL (R318): with at most 3,832 entries on chip, the oldest 8 spilled entries come back. -/
def shpRefill (q vx : Nat) (d : Dev) : Dev :=
  let s := getSpill d q 0
  if spillDepth s = 0 ∨ 3832 < (getShp d q).ready.length ∨ (!s.ring.isEmpty ∧ !issuerFree d q (vxAt d vx)) then d
  else
    let r := takeBack q 0 (vxAt d vx) d
    shpCnt q 5 r.1.length (r.1.foldl (fun d e => putOnChip q (vxAt d vx) e d) r.2)

/-! ### Paddocks (R325) -/

/-- PADDOCK_RELEASE (R325): every entry that a paddock releases, in a VX cycle in which no post comes. -/
def padRelease (q p vx : Nat) (d : Dev) : Dev := padArrive q p (vxAt d vx) (padDue d q p (vxAt d vx)) (padTake q p (vxAt d vx) d)

/-- PADDOCK_REFILL (R325): with fewer than 8,192 entries on chip, 8 spilled ones are sorted in; one whose release time has passed is
released at once. -/
def padRefill (q p vx : Nat) (d : Dev) : Dev :=
  let s := getSpill d q (1 + p)
  if spillDepth s = 0 ∨ 8192 ≤ (padOf d q p).length ∨ (!s.ring.isEmpty ∧ !issuerFree d q (vxAt d vx)) then d
  else
    let r := takeBack q (1 + p) (vxAt d vx) d
    let late (e : ReadyEnt) : Bool := e.rel < d.dt
    let ls := r.1.filter late
    let d1 := (r.1.filter (fun e => !late e)).foldl (fun d e => updPad q p (insertDue e) d) r.2
    shpCnt q 7 ls.length (padArrive q p (vxAt d vx) ls d1)

/-! ### Eligibility and choice (R316, R317) -/

/-- An earlier event of the key has not been dispatched. -/
def earlierOf (s : ShpSt) (e : ReadyEnt) : Bool :=
  let earlier (x : ReadyEnt) : Bool := x.ev.key == e.ev.key && decide (x.arr < e.arr)
  s.ready.any earlier || (s.spills.getD 0 {}).ring.any earlier || (s.spills.getD 0 {}).wbuf.any earlier

/-- An event on chip is eligible in a VX cycle (R316). -/
def eligible (s : ShpSt) (vx : Nat) (e : ReadyEnt) : Bool :=
  decide (e.avail ≤ vx)
    && (e.ev.order == 0 || (!earlierOf s e && !s.keys.any (fun k => k.key == e.ev.key)
      && !s.freed.any (fun k => k.1 == e.ev.key && decide (vx ≤ k.2))))

/-- A candidate of a decision: a list entry, or a resume entry with its slot. -/
structure Cand where
  ent : ReadyEnt
  slot : Option Nat
  deriving DecidableEq, Repr

/-- Candidates in the order of R27: step 3 puts resume entries first, in order of slot, then list entries from the pointer on. -/
def shpBefore (p : Nat) (a b : Cand) : Bool :=
  if a.ent.dl ≠ b.ent.dl then decide (a.ent.dl < b.ent.dl)
  else if a.ent.ev.cls ≠ b.ent.ev.cls then decide (b.ent.ev.cls < a.ent.ev.cls)
  else match a.slot, b.slot with
    | some x, some y => decide (x < y)
    | some _, none => true
    | none, some _ => false
    | none, none => decide (rrDist 4096 p a.ent.idx < rrDist 4096 p b.ent.idx)

def insertCand (p : Nat) (c : Cand) : List Cand → List Cand
  | [] => [c]
  | x :: r => if shpBefore p c x then c :: x :: r else x :: insertCand p c r

/-- (DEDUCED, log 83.) -/
def candidatesAt (d : Dev) (q vx : Nat) : List Cand :=
  let s := getShp d q
  let p := mapGet 0 (arbNo arbDispatch q) d.rr
  (s.resume.map (fun r => (⟨r.ent, some r.slot⟩ : Cand)) ++ (s.ready.filter (eligible s vx)).map (fun e => (⟨e, none⟩ : Cand))).foldl
    (fun l c => insertCand p c l) []

/-! ### Where a winner goes (R317, R321, R322) -/

/-- Threads of a core that are not idle. -/
def busyOn (d : Dev) (g : Nat) : Nat := ((List.range 16).filter (fun k => !(getThread d (16 * g + k)).idle)).length

/-- The idle thread that takes an event (R317): on the enabled core with the fewest busy threads, the lowest such, and its lowest. -/
def idleThread (d : Dev) (q : Nat) : Option Nat :=
  let cs := (List.range 64).filter (fun c => coreEn d (64 * q + c) && decide (busyOn d (64 * q + c) < 16))
  match cs.find? (fun c => cs.all (fun o => decide (busyOn d (64 * q + c) ≤ busyOn d (64 * q + o)))) with
  | some c => ((List.range 16).map (fun k => 16 * (64 * q + c) + k)).find? (fun t => (getThread d t).idle)
  | none => none

/-- The mailbox thread of a class (R322, R326). -/
def mailThread (d : Dev) (q cls : Nat) : Nat := 1024 * q + shpCfg d q (0x6A + 16 * cls) 2 % 1024

/-- The bin of a wait (R328). -/
def histBin (w : Nat) : Nat := if w < 16 then 0 else if w < 2 ^ 18 then Nat.log2 w - 3 else 15

/-- A dispatch or delivery counted in its class's histogram (R328). -/
def histCount (q vx : Nat) (e : ReadyEnt) (d : Dev) : Dev :=
  pmuEv q 56 (waitOf e vx) (byShepherd e.ev.cls) .none
    (addCnt .shp q (0x400 + 0x40 * e.ev.cls + 4 * histBin (waitOf e vx)) 1 d)

/-- The entry leaves the list; an ATOMIC one holds its key from now on (R316). -/
def leaveList (q t : Nat) (mailbox : Bool) (e : ReadyEnt) (d : Dev) : Dev :=
  updShp q (fun s =>
    { s with ready := s.ready.filter (fun x => x.arr != e.arr)
             keys := if 2 ≤ e.ev.order then s.keys ++ [{ key := e.ev.key, thread := t, mailbox := mailbox }] else s.keys }) d

/-- A resume entry leaves. -/
def leaveResume (q slot : Nat) (d : Dev) : Dev := updShp q (fun s => { s with resume := s.resume.filter (fun r => r.slot != slot) }) d

/-- Delivery to a mailbox (R322): the event is written, MEIP is set, and a thread that waits in WAITEV returns. -/
def deliver (q t vx : Nat) (e : ReadyEnt) (d : Dev) : Dev :=
  let w := mailWord d t
  let d1 := spadWrite { req := 149, idx := e.ev.cls } q (8 * w) (eventBytes e.ev) (mailEmptied t vx (leaveList q t true e d))
  let d2 := updThread t (fun th =>
    let th1 := { th with mail := some (e.ev, e.tag), meip := true }
    match th.park with
    | .event _ rd =>
      { (th1.setReg rd (BitVec.ofNat 64 (2 ^ 63 + w))) with park := .none, pc := th.pc + 4, readyAt := 2 * vx + 1 }
    | _ => th1) d1
  let waits := match (getThread d1 t).park with
    | .event _ _ => true
    | _ => false
  trace t 3 (waitOf e vx) e.ev (2 * vx) (histCount q vx e (pmuEv q 54 1 (byShepherd e.ev.cls) .none (shpCnt q 3 1 (guardDev waits (gcRetire t vx) d2))))

/-- Dispatch of a list entry to a thread that is or becomes idle in a VX cycle (R301, R317). -/
def dispatchTo (q t vx : Nat) (e : ReadyEnt) (d : Dev) : Dev :=
  let d1 := idleExit (startThread t e (2 * vx + 10) d)
  trace t 0 (waitOf e vx) e.ev (2 * vx) (histCount q vx e (pmuEv q 53 1 (byShepherd e.ev.cls) .none (shpCnt q 1 1 d1)))

/-- A restore begins on a thread (R311). -/
def restoreTo (t vx : Nat) (e : ReadyEnt) (slot : Nat) (d : Dev) : Dev :=
  trace t 2 (waitOf e vx) e.ev (2 * vx) (updThread t (fun th => { th with restore := some (e, slot, 2 * vx + 64) }) d)

/-- The served event of a thread comes after another at steps 1 and 2 of R27. -/
def laterThan (dl cls : Nat) (th : GcThread) : Bool := dl < th.dl || (dl == th.dl && th.ev.cls < cls)

/-- The victim of a preemption (R321): among the busy threads of enabled cores but for one in M mode with MIE clear, the one whose
event comes last, the highest hart number of those. -/
def victimOf (d : Dev) (q : Nat) : Option Nat :=
  let ts := ((List.range 1024).map (· + 1024 * q)).filter (fun t =>
    let th := getThread d t
    th.busy && th.save.isNone && coreEn d (gcOf t) && !(th.mode == 3 && !bit th.mstatus 3))
  ts.foldl (fun b t =>
    match b with
    | none => some t
    | some v =>
      let o := getThread d v
      if laterThan (getThread d t).dl (getThread d t).ev.cls o then b else some t) none

/-- A preemption begins (R321): the thread is reserved for the winner and its state goes to a free slot. -/
def preempt (q t slot vx : Nat) (c : Cand) (d : Dev) : Dev :=
  let d0 := keyMove q t (slotHolder slot) d
  let d1 := match c.slot with
    | some s => leaveResume q s d0
    | none => leaveList q t false c.ent d0
  let d2 := updThread t (fun th => { th with save := some (c.ent, c.slot, slot), readyAt := max th.readyAt (2 * vx) }) d1
  pmuEv q 11 1 (byThread d t) .none (gcCnt t 4 1 (shpCnt q 2 1 d2))

/-- Where a candidate goes in this decision; none where nothing can take it (R317). -/
def place (q vx : Nat) (c : Cand) (d : Dev) : Option Dev :=
  let mailbox := c.slot.isNone && bit (shpCfg d q 2 1) c.ent.ev.cls
  if mailbox then
    let t := mailThread d q c.ent.ev.cls
    if mailFull d t then none else some (deliver q t vx c.ent d)
  else
    match idleThread d q with
    | some t => match c.slot with
      | some s => some (restoreTo t vx c.ent s (leaveResume q s d))
      | none => some (dispatchTo q t vx c.ent (leaveList q t false c.ent d))
    | none =>
      if c.ent.ev.cls < shpCfg d q 0 1 then none
      else
        match victimOf d q, freeSlot d q with
        | some t, some s => if laterThan c.ent.dl c.ent.ev.cls (getThread d t) then some (preempt q t s vx c d) else none
        | _, _ => none

/-- The first candidate in order that something can take. -/
def placeFirst (q vx : Nat) (d : Dev) : List Cand → Option (Cand × Dev)
  | [] => none
  | c :: r => match place q vx c d with
    | some d1 => some (c, d1)
    | none => placeFirst q vx d r

/-- Step 3 of R27 decided for a winner: another candidate had its deadline and class. -/
def tiedWith (c : Cand) (l : List Cand) : Bool :=
  c.slot.isNone && (l.filter (fun x => x.slot.isNone && x.ent.dl == c.ent.dl && x.ent.ev.cls == c.ent.ev.cls)).length != 1

/-- SHP_DISPATCH (R317): one decision of a VX cycle. -/
def shpDispatch (q vx : Nat) (d : Dev) : Dev :=
  let now := vxAt d vx
  let s := getShp d q
  if getF d .shp q 0 0 1 = 0 ∨ now < s.decideAt ∨ !(getSpd d q).initDone then d
  else
    let l := candidatesAt d q now
    match placeFirst q now d l with
    | none => d
    | some (c, d1) =>
      let d2 := updShp q (fun s => { s with decideAt := now + 1 }) d1
      if tiedWith c l then { d2 with rr := mapSet 0 (arbNo arbDispatch q) ((c.ent.idx + 1) % 4096) d2.rr } else d2

/-! ### Voids and the host (R324, R327) -/

/-- STALE set on the events of an instance (R324). -/
def staleIn (i : InstRef) (l : List ReadyEnt) : List ReadyEnt :=
  l.map (fun e => if e.attach = some i then { e with ev := { e.ev with flags := e.ev.flags ||| 2 } } else e)

/-- SHP_VOID_NOTICE (R194, R324): the oldest void notice on its way to a Shepherd reaches it; INSTANCE_VOID is posted after the
marking. -/
def shpVoidNotice (q : Nat) (d : Dev) : Dev :=
  match takeFirst (fun m : StopMsg => m.kind == .shepherd && m.unit == q && stopReady d m) d.fab.stops with
  | none => d
  | some (m, rest) =>
    let i := m.inst
    let d1 := updShp q (fun s =>
      { s with ready := staleIn i s.ready
               spills := s.spills.map (fun x => { x with ring := staleIn i x.ring, wbuf := staleIn i x.wbuf })
               pads := s.pads.map (staleIn i)
               resume := s.resume.map (fun r => { r with ent := (staleIn i [r.ent]).headD r.ent }) }) { d with fab := { d.fab with stops := rest } }
    match m.event with
    | some ev => post { q := q, src := 164 + i.q, ev := ev, dl := m.dl } d1
    | none => d1

/-- A write of HOST_GO (R327): the event of HOST_EV0 to 3 is posted unattached. -/
def hostGoAddr (q : Nat) : Nat := addrOf .shp q 0x40
def hostGoEffect (q : Nat) (v : W32) (d : Dev) : Dev :=
  let ev := eventOf ((List.range 4).flatMap (fun i => leBytes 4 (getR d .shp q (0x30 + 4 * i)).toNat))
  let ev1 := if ev.typ = 0 then { ev with typ := 0x0D } else ev
  guardDev (fld v 31 1 == 1) (post { q := q, src := 168, ev := ev1, dl := widenDeadline d.dt ev.dl32 }) d

/-! ### The commands -/

/-- SHP_POST_ACCEPT (R315). -/
def execShpPostAccept (q : Fin 4) (batch : Nat) (vx : Fin 5) (s : State) : Out State := onDev (shpPostAccept q.val batch vx.val) s

/-- SHP_DISPATCH (R317). -/
def execShpDispatch (q : Fin 4) (vx : Fin 5) (s : State) : Out State := onDev (shpDispatch q.val vx.val) s

/-- SHP_SPILL_WRITE (R318). -/
def execShpSpillWrite (q : Fin 4) (ring : Fin 5) (vx : Fin 5) (s : State) : Out State := onDev (spillWrite q.val ring.val vx.val) s

/-- SHP_REFILL (R318). -/
def execShpRefill (q : Fin 4) (vx : Fin 5) (s : State) : Out State := onDev (shpRefill q.val vx.val) s

/-- PADDOCK_RELEASE (R325). -/
def execPaddockRelease (q : Fin 4) (p : Fin 4) (vx : Fin 5) (s : State) : Out State := onDev (padRelease q.val p.val vx.val) s

/-- PADDOCK_REFILL (R325). -/
def execPaddockRefill (q : Fin 4) (p : Fin 4) (vx : Fin 5) (s : State) : Out State := onDev (padRefill q.val p.val vx.val) s

/-- HOST_GO (R327). -/
def execHostGo (by_ : WriteBy) (q : Fin 4) (v : W32) (s : State) : Out State :=
  onDev (guardDev (fld v 31 1 == 1) (fun d => committedWrite (originOf d by_) (hostGoAddr q.val) v (hostGoEffect q.val v) d)) s

/-- SHP_VOID_NOTICE (R324). -/
def execShpVoidNotice (q : Fin 4) (s : State) : Out State := onDev (shpVoidNotice q.val) s

end Sys2Proof.Machine
end

