-- ==== Sys2Proof/Machine/Power.lean ====
section
/-! DEFINITION. Power states and power fail (R387-R393, R407, R448), the management core's restarts (R396, R406), aging service (R401),
thermal policy (R405) and telemetry (R403, R404). -/

namespace Sys2Proof.Machine

/-! ### IDLE and the fallow states (R388, R389) -/

/-- A vision engine, matrix engine or fold has a live context. -/
def engineLive (d : Dev) : Bool :=
  d.vis.any (fun e => e.2.live)
    || d.me.any (fun e => e.2.ctxs.any (fun c => c.run.isSome || c.frun.isSome || !c.queue.isEmpty))
    || d.folds.any (fun e => e.2.run.isSome || e.2.next.isSome)

/-- A Shepherd has an event on its ready list, in that list's spill ring or to resume, or a busy thread. -/
def shepherdBusy (d : Dev) : Bool :=
  d.shp.any (fun e => !e.2.ready.isEmpty || !e.2.resume.isEmpty
    || (match e.2.spills with
        | s :: _ => !s.ring.isEmpty || !s.wbuf.isEmpty
        | [] => false))
    || d.threads.any (fun e => e.2.busy)

/-- The conditions of IDLE entry (R388). (DEDUCED, log 98.) -/
def idleQuiet (d : Dev) : Bool :=
  !d.ctxs.any (fun e => e.2.held) && !engineLive d && !shepherdBusy d && !loadBusy d

/-- IDLE_ENTRY (R388): with IDLE_EN, from ACTIVE, once the conditions have held for IDLE_DELAY. -/
def idleEntry (d : Dev) : Dev :=
  guardDev (getF d .pwr 0 4 4 1 == 1 && powerState d == 4 && d.pow.fallow.isNone && d.pow.fail.isNone && idleQuiet d
      && decide (getF d .pwr 0 8 0 24 ≤ d.pow.quiet))
    (fun d => setPowerState 3 (pwrCnt 0 1 d)) d

/-- A write of PWR.CTL (R389): TARGET 1 or 2 from ACTIVE or IDLE voids every live instance, stops the receive ports and starts the entry. (DEDUCED, log 99.) -/
def pwrCtlEffect (v : W32) (d : Dev) : Dev :=
  let t := fld v 0 3
  let d1 := storeFields pwrCtlAddr v d
  guardDev ((t == 1 || t == 2) && decide (3 ≤ powerState d) && d.pow.fallow.isNone && d.pow.fail.isNone) (fun d =>
    voidAll 11 (fun _ _ => true) { d with rx := { d.rx with stopped := true }, pow := { d.pow with fallow := some (t, d.dt) } }) d1

/-! ### Wakes (R390) -/

/-- A write request while the coolant check holds the dies off tries again (R390). (DEDUCED, log 100.) -/
def wakeByWrite (d : Dev) : Dev :=
  if !d.pow.hubUp || d.pow.blocked.isNone then d
  else if d.pow.computeUp then retryActive d
  else if wakeAllowed d then dieStart d else blockWake .write d

/-- WAKE (R390): a source that WAKE_EN enables. -/
def wake (f : FuseSt) (s : WakeSource) (d : Dev) : Dev :=
  match s with
  | .i3cStart => guardDev (getF d .pwr 0 0xC 0 1 == 1) (tryWake f .i3c) d
  | .fsyncEdge falling => guardDev (getF d .pwr 0 0xC 1 1 == 1 && getF d .pwr 0 0xC 3 1 == b2n falling) (tryWake f .fsync) d
  | .writeRequest => wakeByWrite d

/-- WAKE_TIMER (R390). (DEDUCED, log 100.) -/
def wakeTimer (f : FuseSt) (d : Dev) : Dev :=
  if d.pow.timerDue then guardDev (getF d .pwr 0 0xC 2 1 == 1) (tryWake f .timer) (updPow (fun p => { p with timerDue := false }) d) else d

/-- 48 V lost in a fallow state takes the DRAM contents (R391). -/
def loseDram (d : Dev) : Dev :=
  setF .pwr 0 0x18 4 1 1 { d with mem := { d.mem with dram := [], dramBad := [] }, pow := { d.pow with v48 := false } }

/-- WAKE_RETRY (R390): the comparators change, and a blocked wake is tried again, for at most 1,250,000,000 DT. -/
def wakeRetry (f : FuseSt) (v48 inlet hub : Bool) (d : Dev) : Dev :=
  if !d.pow.standby || (d.pow.computeUp && d.pow.blocked.isNone) then d
  else
    let v := if d.pow.hubUp then d.pow.v48 else v48
    let changed := v != d.pow.v48 || inlet != d.pow.inletOk || hub != d.pow.hubOk
    let d0 := guardDev (d.pow.v48 && !v && powerState d == 2) loseDram d
    let d1 := updPow (fun p => { p with v48 := v, inletOk := inlet, hubOk := hub }) d0
    match d.pow.blocked with
    | none => d1
    | some (c, t) =>
      if !changed || decide (t + 1250000000 < d.dt) then d1
      else if !wakeAllowed d1 then d1
      else if d1.pow.computeUp then retryActive d1
      else if d1.pow.hubUp then dieStart d1
      else guardDev (inFallow d1) (wakeNow f c) d1

/-! ### Power fail (R393, R407, R448) -/

/-- STANDBY_POWER_VALID (R392, R384): the standby domain starts on INTOSC with DT 0. -/
def standbyValid (d : Dev) : Dev :=
  if d.pow.standby then d
  else { offDev d with pow := { v48 := d.pow.v48, resetN := d.pow.resetN, pwrfailN := d.pow.pwrfailN, hubUp := false } }

/-- A pin or a rail as its failure leaves it. -/
def causePin (c : PowerCause) (p : PowSt) : PowSt :=
  match c with
  | .pwrfailN => { p with pwrfailN := false }
  | .v48 => { p with v48 := false }
  | .v3 => { p with v3 := false }
  | .resetN => { p with resetN := false }

/-- The state of a module whose 3V3_SB is lost: what NAND holds. -/
def standbyLost (d : Dev) : Dev :=
  { offDev d with pow := { d.pow with standby := false, hubUp := false, booted := false, computeUp := false, storeFull := false, fallow := none
                                      quiet := 0, fail := none, gated := false, blocked := none, timerDue := false } }

/-- t0 (R393): every live instance is void with reason 10, the seal is requested, an unlock ends, and fuse programming stops after the bit
in progress (R412). (DEDUCED, log 101.) -/
def failStart (f : FuseSt) (c : PowerCause) (d : Dev) : Dev :=
  let d1 := pwrCnt 4 1 (updPow (fun p => { p with fail := some d.dt, fallow := none, blocked := none }) d)
  let d2 := guardDev (c == .v48 || c == .v3) (evsum 2) d1
  let d3 := requestSeal d.dt (voidAll 10 (fun _ _ => true) d2)
  updSec (fun s => { s with queue := s.queue.take 1 }) (endUnlock f d3)

/-- POWER_FAIL (R393): a cause recognised during the sequence adds nothing to it (R448); 48 V lost in a fallow state loses DRAM (R391). -/
def powerFail (f : FuseSt) (c : PowerCause) (d : Dev) : Dev :=
  if !d.pow.standby then updPow (causePin c) d
  else if d.pow.fail.isSome then updPow (causePin c) d
  else if d.pow.hubUp then failStart f c (updPow (causePin c) d)
  else
    match c with
    | .v48 => guardDev (powerState d == 2) loseDram (updPow (causePin c) d)
    | .v3 => standbyLost (updPow (causePin c) d)
    | _ => updPow (fun p => { causePin c p with fail := some d.dt }) { d with mem := {} }

/-- Registers of the hub stay as the dies go (R22). -/
def hubRegsOnly (m : SMap W32) : SMap W32 := m.filter (fun e => decide (e.1 < 0x100000))

/-- DIE_GATING (R393, R196): the compute and base dies go, with everything in them; nothing is sealed after this. (DEDUCED, log 101.) -/
def dieGating (d : Dev) : Dev :=
  match d.pow.fail with
  | none => d
  | some t0 =>
    if d.pow.gated || !d.pow.hubUp || decide (d.dt < t0 + 64) then d
    else
      { d with
        pow := { d.pow with gated := true, computeUp := false }
        regs := hubRegsOnly d.regs, cnts := d.cnts.filter (fun e => decide (e.1 < 0x100000)), mem := {}, fab := {}, ctxs := [], drv := [], prog := []
        regions := [], audit := [], flocks := [], folds := [], spd := [], dma := [], shp := [], memsys := {}, isp := {}, eng := [], vis := [], me := []
        cores := [], threads := [], pmu := d.pmu.filter (fun e => decide (4 ≤ e.1)) }

/-- HOLD_UP_END (R393): at least 625,000 DT after t0, with the seal committed, the module powers off; every record is in NAND. (DEDUCED, log 101.) -/
def holdUpEnd (d : Dev) : Dev :=
  match d.pow.fail with
  | none => d
  | some t0 =>
    if d.dt < t0 + 625000 ∨ !d.log.reqs.isEmpty then d
    else
      let d1 := guardDev d.pow.hubUp flushAll d
      if d.pow.v3 then setF .pwr 0 0 0 3 0 (updPow (fun p => { p with storeFull := false }) (fallowDev false d1)) else standbyLost d1

/-! ### The management core (R396, R406) -/

/-- WATCHDOG_EXPIRY (R396): the management core restarts. (DEDUCED, log 104.) -/
def watchdogExpiry (d : Dev) : Dev :=
  match d.sec.running with
  | some b => guardDev (d.sec.restarting.isNone && d.pow.hubUp) (fun d => evsum 12 (updSec (fun s => { s with restarting := some b }) d)) d
  | none => d

/-- A trip write of the management firmware (R405): PWR.CTL.TARGET = 2 with origin class 2. -/
def tripWrite (d : Dev) : Dev :=
  requestChange (writeReq d .firmware pwrCtlAddr (BitVec.ofNat 32 (putBits (getR d .pwr 0 4).toNat 0 3 2))) d

/-- FIRMWARE_RESTART_DONE (R406): the new firmware starts, one record of origin class 2 is requested, and a trip write that waited is made. (DEDUCED, log 15 and 104.) -/
def restartDone (d : Dev) : Dev :=
  match d.sec.restarting with
  | none => d
  | some b =>
    let d1 := updSec (fun s => { s with running := some b, restarting := none }) d
    let d2 := requestChange
      { at_ := d.dt, cls := 2, oid := Config.recordField 0 1 b, target := Config.recordField 0 2 b, kind := Config.recordField 0 0 b
        old := BitVec.ofNat 32 (Config.recordField 0 3 b), new := BitVec.ofNat 32 (Config.recordField 0 4 b)
        extra := BitVec.ofNat 64 (Config.recordField 0 5 b) } d1
    guardDev d.tel.tripWaits (fun d => tripWrite (updTel (fun t => { t with tripWaits := false }) d)) d2

/-! ### Aging (R401) -/

/-- The limit of a quadrant's set-point, and a write of VSETq (R409). -/
def vsetLimit (f : FuseSt) (q : Nat) : Nat := fuseVset f q + 50
def vsetEffect (f : FuseSt) (q : Nat) (v : W32) (d : Dev) : Dev := setF .tel 0 (0x30 + 4 * q) 0 16 (min (fld v 0 16) (vsetLimit f q)) d

/-- A step of 2.5 mV, in half millivolts; at the limit the headroom is exhausted. (DEDUCED, log 102.) -/
def vsetStep (f : FuseSt) (q : Nat) (d : Dev) : Dev :=
  let v := getF d .tel 0 (0x30 + 4 * q) 0 16
  if vsetLimit f q ≤ v then evsum 12 (orR .tel 0 0 8 d)
  else
    let n := min (2 * vsetLimit f q) (2 * v + d.tel.half.getD q 0 + 5)
    requestChange (writeReq d .firmware (addrOf .tel 0 (0x30 + 4 * q)) (BitVec.ofNat 32 (n / 2)))
      (addCnt .tel 0 0x88 1 (updTel (fun t => { t with half := setAt q (n % 2) t.half }) d))

/-- A margin read: its register, its minimum, and a step while it is short (R401). -/
def marginOf (f : FuseSt) (q m : Nat) (d : Dev) : Dev :=
  let least := match d.tel.margins.getD q none with
    | some x => min x m
    | none => m
  let d1 := setR .tel 0 (0x40 + 4 * q) m (updTel (fun t => { t with margins := setAt q (some least) t.margins }) d)
  let clash := d.pow.fail == some d.dt || (clkSrc d == 1 && getPair d .clk 0 0x28 0x2C == d.dt)
  guardDev (decide (m < 40) && !clash) (vsetStep f q) d1

/-- MARGIN_READ (R401): by the management firmware, every 125,000,000 DT. (DEDUCED, log 102.) -/
def marginRead (f : FuseSt) (ms : List Nat) (d : Dev) : Dev :=
  if d.dt < d.tel.marginAt + 125000000 ∨ !d.pow.computeUp ∨ d.sec.restarting.isSome ∨ d.sec.running.isNone then d
  else [0, 1, 2, 3].foldl (fun d q => marginOf f q (ms.getD q 0) d) (updTel (fun t => { t with marginAt := d.dt }) d)

/-! ### Thermal policy (R405) -/

/-- A temperature, S8.8. -/
def temp (w : W16) : Int := w.toInt
def limitOf (d : Dev) (off : Nat) : Int := toSigned 16 (getF d .tel 0 off 0 16)

/-- THERM_REFUSE in TEL and in every Drover. -/
def setRefuse (v : Nat) (d : Dev) : Dev := [0, 1, 2, 3].foldl (fun d q => setF .drv q 0 16 1 v d) (setF .tel 0 0 0 1 v d)

/-- THERM_REFUSE after a sample: set at once, cleared after 1,000 cool samples. -/
def refuseStep (hot cool : Bool) (d : Dev) : Dev :=
  if getF d .tel 0 0 0 1 = 0 then
    guardDev hot (fun d => evsum 3 (addCnt .tel 0 0x8C 1 (setRefuse 1 (updTel (fun t => { t with cool := 0 }) d)))) d
  else if !cool then updTel (fun t => { t with cool := 0 }) d
  else if d.tel.cool + 1 < 1000 then updTel (fun t => { t with cool := t.cool + 1 }) d
  else setRefuse 0 (updTel (fun t => { t with cool := 0 }) d)

/-- The first sample over a trip limit: THERM_TRIP, and the firmware's write, which waits while the core restarts. -/
def tripStep (past : Bool) (d : Dev) : Dev :=
  let first := past && !d.tel.tripping
  let d1 := updTel (fun t => { t with tripping := past }) d
  guardDev first (fun d =>
    let d2 := evsum 3 (orR .tel 0 0 4 (addCnt .tel 0 0x90 1 d))
    if d.sec.restarting.isSome then updTel (fun t => { t with tripWaits := true }) d2 else tripWrite d2) d1

/-- Temperatures into their registers and the second's maxima. -/
def noteTemps (inlet hub : W16) (dies : List W16) (d : Dev) : Dev :=
  let all := (inlet :: hub :: dies).map temp
  let d1 := setR .pwr 0 0x20 inlet.toNat (setR .pwr 0 0x24 hub.toNat d)
  let d2 := dies.zipIdx.foldl (fun d e => setR .tel 0 (0x20 + 4 * e.2) e.1.toNat d) d1
  let higher (e : Option Int × Int) : Option Int := match e.1 with
    | some x => some (max x e.2)
    | none => some e.2
  updTel (fun t => { t with temps := (t.temps.zip all).map higher }) d2

/-- THERMAL_SAMPLE (R405): every 125,000 DT. -/
def thermalSample (inlet hub : W16) (dies : List W16) (d : Dev) : Dev :=
  if !d.pow.hubUp || decide (d.dt < d.tel.sampleAt + 125000) then d
  else
    let ts := if d.pow.computeUp then dies.map temp else []
    let dieOver (off : Nat) (x : Int) : Bool := ts.any (fun t => decide (limitOf d off + x ≤ t))
    let inletOk : Bool := decide (0x0A00 ≤ temp inlet) && decide (temp inlet ≤ 0x3200)
    let hot := decide (limitOf d 0x10 ≤ temp inlet) || dieOver 0x14 0
    let cool := decide (temp inlet ≤ limitOf d 0x10 - 512) && ts.all (fun t => decide (t ≤ limitOf d 0x14 - 512))
    let d1 := noteTemps inlet hub dies (updTel (fun t => { t with sampleAt := d.dt }) d)
    let d2 := updPow (fun p => { p with inletOk := inletOk, hubOk := decide (temp hub < 0x6900) }) d1
    let d3 := setF .tel 0 0 1 1 (b2n (dieOver 0x14 0)) (retryActive d2)
    tripStep (dieOver 0x18 0 || decide (0x6900 ≤ temp hub)) (if d.sec.restarting.isSome then d3 else refuseStep hot cool d3)

/-! ### Telemetry (R403, R404) -/

/-- The counts that a record shows by the second: corrected errors, uncorrectable errors, records sealed. -/
def telCounts (d : Dev) : List Nat :=
  let c (b : Blk) (q off : Nat) : Nat := (cntAt d (addrOf b q off)).toNat
  let sum (off : Nat) : Nat := [0, 1, 2, 3].foldl (fun n q => n + c .drv q off) 0
  [0, 1, 2, 3].map (fun q => c .spd q 0x20) ++ [0, 1, 2, 3].map (fun q => c .memc q 0xC0)
    ++ [0, 1, 2, 3].map (fun q => c .spd q 0x24 + c .memc q 0xC4) ++ [sum 0x28, sum 0x2C, sum 0x24]

/-- The 256 bytes of a record (R404) but for its CRC. -/
def telHead (r : TelReading) (at_ : Nat) (d : Dev) : List Byte :=
  let t := d.tel
  let st := getF d .tel 0 0 0 5
  let flags := bits st 0 2 + 4 * bits st 3 1 + 8 * bits st 4 1 + 16 * b2n t.gap + 32 * b2n (t.src || clkSrc d != 0)
  let tempAt (i : Nat) (now : Nat) : List Byte := leBytes 2 (match t.temps.getD i none with
    | some x => ofSigned 16 x
    | none => now)
  let cnt := (telCounts d).zipIdx.map (fun e => leBytes 4 ((e.1 + 2 ^ 48 - t.base.getD e.2 0) % 2 ^ 48))
  leBytes 2 0x0101 ++ leBytes 1 (getF d .peer 0 0 0 8) ++ leBytes 1 flags ++ leBytes 4 (powerState d + 16 * clkSrc d) ++ leBytes 8 t.seq ++ leBytes 8 at_
    ++ tempAt 0 (getF d .pwr 0 0x20 0 16) ++ tempAt 1 (getF d .pwr 0 0x24 0 16)
    ++ [0, 1, 2, 3].flatMap (fun q => tempAt (2 + q) (getF d .tel 0 (0x20 + 4 * q) 0 16))
    ++ leBytes 2 r.v48.toNat ++ leBytes 2 0 ++ leBytes 4 r.power.toNat ++ leBytes 4 r.quads.1.toNat ++ leBytes 4 r.quads.2.1.toNat
    ++ leBytes 4 r.quads.2.2.1.toNat ++ leBytes 4 r.quads.2.2.2.toNat ++ [0, 1, 2, 3].flatMap (fun q => leBytes 2 (getF d .tel 0 (0x30 + 4 * q) 0 16))
    ++ [0, 1, 2, 3].flatMap (fun q => leBytes 2 (match t.margins.getD q none with
        | some m => m
        | none => getF d .tel 0 (0x40 + 4 * q) 0 16))
    ++ leBytes 4 0 ++ cnt.flatten ++ leBytes 4 0 ++ leBytes 8 d.log.next ++ leBytes 4 r.wearMax.toNat ++ leBytes 2 r.bad.toNat
    ++ leBytes 2 r.spare.toNat ++ leBytes 92 0

/-- (DEDUCED, log 103.) -/
def telRecord (r : TelReading) (at_ : Nat) (d : Dev) : List Byte :=
  let h := telHead r at_ d
  h ++ leBytes 4 (crc32 h).toNat

/-- Readings into the registers, with what NAND's wear sets (R402). (DEDUCED, log 17.) -/
def noteReading (r : TelReading) (d : Dev) : Dev :=
  let ahead : Bool := decide (50000 * r.seconds.toNat < r.wearMean.toNat * 315360000)
  let d1 := setR .tel 0 0x60 (r.wearMean.toNat + 65536 * r.wearMax.toNat) (setR .tel 0 0x64 (r.bad.toNat + 65536 * r.spare.toNat) (setR .pwr 0 0x28 r.v48.toNat d))
  let d2 := guardDev ahead (evsum 6) (setF .tel 0 0 4 1 (b2n ahead) d1)
  let low : Bool := decide (r.spare.toNat < 8)
  guardDev low (orR .log 0 0 2) (updTel (fun t => { t with spareLow := low }) d2)

/-- Records missed: each counts, STATUS.GAP is set, and the next record carries GAP. -/
def telMiss (n : Nat) (d : Dev) : Dev :=
  guardDev (n != 0) (fun d => orR .tel 0 0 32 (addCnt .tel 0 0x84 n (updTel (fun t => { t with gap := true }) d))) d

/-- The record in the mirror (R403): a translation fault or an uncorrectable error stops it. (DEDUCED, log 103.) -/
def telMirror (seq : Nat) (bs : List Byte) (ecc : EccResult) (d : Dev) : Dev :=
  let n := getF d .tel 0 0x78 0 22
  if getF d .tel 0 0x7C 0 1 = 0 ∨ n = 0 then d
  else
    let w := mirrorWrite (getPair d .tel 0 0x70 0x74 + 256 * (seq % n)) bs d
    if w.1 && !ecc.isUe then w.2 else evsum 6 (orR .tel 0 0 64 (setF .tel 0 0x7C 0 1 0 d))

/-- TELEMETRY_RECORD (R403): due at each multiple of 125,000,000 DT; in a restart, a power fail or a fallow state it is missed. (DEDUCED, log 103.) -/
def telemetry (r : TelReading) (ecc : EccResult) (d : Dev) : Dev :=
  let n := d.dt / 125000000 - d.tel.lastAt / 125000000
  let at_ := d.dt / 125000000 * 125000000
  if !d.pow.hubUp || n == 0 then d
  else
    let d1 := updTel (fun t => { t with lastAt := at_ }) d
    if d.sec.restarting.isSome || d.pow.fail.isSome || decide (powerState d < 3) then telMiss n d1
    else
      let d2 := noteReading r (telMiss (n - 1) d1)
      let bs := telRecord r at_ d2
      let d3 := addCnt .tel 0 0x80 1 (updTel (fun t =>
        { t with seq := t.seq + 1, ring := mapSet [] (t.seq % 262144) bs t.ring, gap := false, temps := List.replicate 6 none
                 margins := List.replicate 4 none, src := clkSrc d != 0, base := telCounts d }) d2)
      telMirror d2.tel.seq bs ecc d3

/-! ### The commands -/

/-- POWER_TARGET_WRITE (R389). -/
def execPowerTargetWrite (by_ : WriteBy) (v : W32) (s : State) : Out State :=
  onDev (guardDev (fld v 0 3 == 1 || fld v 0 3 == 2) (fun d => committedWrite (originOf d by_) pwrCtlAddr v (pwrCtlEffect v) d)) s

/-- IDLE_ENTRY (R388). -/
def execIdleEntry (s : State) : Out State := onDev idleEntry s

/-- WAKE (R390). -/
def execWake (source : WakeSource) (s : State) : Out State := onDev (wake s.fuse source) s

/-- WAKE_TIMER (R390). -/
def execWakeTimer (s : State) : Out State := onDev (wakeTimer s.fuse) s

/-- WAKE_RETRY (R390). -/
def execWakeRetry (v48 inlet hub : Bool) (s : State) : Out State := onDev (wakeRetry s.fuse v48 inlet hub) s

/-- STANDBY_POWER_VALID (R392). -/
def execStandbyPowerValid (s : State) : Out State := onDev standbyValid s

/-- POWER_FAIL (R393). -/
def execPowerFail (cause : PowerCause) (s : State) : Out State := onDev (powerFail s.fuse cause) s

/-- DIE_GATING (R393). -/
def execDieGating (s : State) : Out State := onDev dieGating s

/-- HOLD_UP_END (R393). -/
def execHoldUpEnd (s : State) : Out State := onDev holdUpEnd s

/-- WATCHDOG_EXPIRY (R396). -/
def execWatchdogExpiry (s : State) : Out State := onDev watchdogExpiry s

/-- FIRMWARE_RESTART_DONE (R406). -/
def execFirmwareRestartDone (s : State) : Out State := onDev restartDone s

/-- MARGIN_READ (R401). -/
def execMarginRead (m0 m1 m2 m3 : W16) (s : State) : Out State :=
  onDev (marginRead s.fuse [m0.toNat, m1.toNat, m2.toNat, m3.toNat]) s

/-- THERMAL_SAMPLE (R405). -/
def execThermalSample (inlet hub die0 die1 die2 die3 : W16) (s : State) : Out State :=
  onDev (thermalSample inlet hub [die0, die1, die2, die3]) s

/-- TELEMETRY_RECORD (R403). -/
def execTelemetryRecord (r : TelReading) (ecc : EccResult) (s : State) : Out State := onDev (telemetry r ecc) s

end Sys2Proof.Machine
end

