-- ==== Sys2Proof/Machine/Tick.lean ====
section
/-! DEFINITION. A tick of device time (R384), and what counts with it: busy and waiting cycles (R117, R148, R250, R251, R281, R312, R327,
R353, R434-R436), the receive buffers' way over the hub links (R16, R58), the imbalance monitor (R249) and IDLE's quiet time (R388). -/

namespace Sys2Proof.Machine

/-- Cycles of a domain that begin from one DT to another, at the divider that the domain is at: one DT is 20 cycles of the root clock
(R377, R382). (DESIGN CHOICE, log 96.) -/
def cyclesIn (d : Dev) (k a b : Nat) : Nat :=
  let v := (dividers k).getD (d.clk.ramp.getD k 0) 1
  20 * b / v - 20 * a / v

/-- The counts of a tick: the DT before, and the MX, VX and PK cycles that it holds. -/
structure TickCount where
  old : Nat
  new : Nat
  mx : Nat
  vx : Nat
  pk : Nat

/-! ### Receive buffers (R16, R58) -/

/-- Hub links towards the quadrants, as arbiters (R29). -/
def hubLink (q : Nat) : Nat := q

/-- Up to n bytes go over a hub link, from the ports whose oldest packet goes there, as R27 chooses; fuel bounds the packets. -/
def drainLink (q : Nat) : Nat → Nat → Dev → Dev
  | 0, _, d => d
  | fuel + 1, n, d =>
    if n = 0 then d
    else
      let reqs := d.rx.ports.filterMap (fun e => match e.2.buf with
        | b :: _ => if b.q = q then some (⟨e.1, dl32Key d.dt b.dl, 0⟩ : ArbReq) else none
        | [] => none)
      let r := arbitrate arbLink (hubLink q) 20 reqs d
      match r.1 with
      | none => r.2
      | some p =>
        match (getPort r.2 p).buf with
        | [] => r.2
        | b :: rest =>
          let k := min n b.len
          drainLink q fuel (n - k) (hubUc (208 + 4 * q) k
            (updPort p (fun x => { x with buf := if b.len ≤ k then rest else { b with len := b.len - k } :: rest }) r.2))

/-- 600 bytes per DT on each hub link. -/
def drainPorts (t : TickCount) (d : Dev) : Dev :=
  [0, 1, 2, 3].foldl (fun d q => drainLink q 64 (600 * (t.new - t.old)) d) d

/-! ### Counts by cycle -/

/-- Ports whose transmit queue takes no burst more (R353 CNT5). -/
def tickTx (t : TickCount) (d : Dev) : Dev :=
  d.tx.foldl (fun d e => guardDev (decide (262144 < txQueued e.2 + 256)) (addCnt .txp e.1 0x34 t.vx) d) d

/-- Channels that wait on a ring (R250 CNT5, R434, R436). -/
def waitsOnRing (c : DmaCh) : Bool := match c.active with
  | some s => s.waitAt.isSome
  | none => false

/-- (DESIGN CHOICE, log 114.) -/
def tickDma (t : TickCount) (d : Dev) : Dev :=
  let l := (d.dma.filter (fun e => waitsOnRing e.2)).map (·.1)
  let d1 := l.foldl (fun d ch =>
    pmuEv (ch / 64) 29 t.vx (byChannel d ch) .none (pmuUc (ch / 64) (320 + 2 * (ch % 64) + 1) t.vx d)) d
  [0, 1, 2, 3].foldl (fun d q => guardDev (l.any (fun ch => ch / 64 == q)) (addCnt .dmac q 0x24 t.vx) d) d1

/-- Walks in flight (R251 CNT5), and queued requests of each memory channel (R434). (DESIGN CHOICE, log 114.) -/
def tickMem (t : TickCount) (d : Dev) : Dev :=
  let d1 := [0, 1, 2, 3].foldl (fun d q =>
    guardDev (d.memsys.walks.any (fun e => !e.2.isEmpty && e.1 == q)) (addCnt .xlt q 0x54 t.vx) d) d
  d1.memsys.chans.foldl (fun d e =>
    pmuUc (e.1 / 16) (608 + 2 * (e.1 % 16) + 1) (t.vx * (e.2.queue.filter (fun x => x.2.isSome)).length) d) d1

/-- Rows that have entered, and cycles of an engine with a launch live and the array input unused (R281 CNT0-CNT3). (DESIGN CHOICE, log 114.) -/
def tickMe (t : TickCount) (before : Dev) (d : Dev) : Dev :=
  d.me.foldl (fun d e =>
    let a := meNow before e.1 0
    let n := min t.mx (meNow d e.1 0 - a)
    let d1 := enterRows e.1 (fun x => x.at_ < a + n) d
    let d2 := guardDev (e.2.ctxs.any (fun c => c.run.isSome || c.frun.isSome)) (meCnt e.1 2 (n - (getMe d1 e.1).busy)) d1
    updMe e.1 (fun x => { x with busy := 0 }) d2) d

/-- A live context of a vision engine that is in no datapath and could start no unit (R434), or waits for a patch (R148 CNT7). -/
def visIdle (d : Dev) (e c : Nat) (x : VisCtx) : Bool :=
  x.live && (visWork d e 0).all (fun w => w.ctx != c) && (visNext d e 0 x).isNone
def wantsPatch (d : Dev) (e : Nat) (x : VisCtx) : Bool :=
  x.live && x.phase == 2 && decide (x.consumed < x.entries) && (visWork d e 2).isNone && !patchReady d e x

/-- (DESIGN CHOICE, log 114.) -/
def tickVis (t : TickCount) (d : Dev) : Dev :=
  let pick (p : Nat → Nat → VisCtx → Bool) : List Nat :=
    (List.range 32).filter (fun e => d.vis.any (fun v => v.1 / 128 == e && p e (v.1 % 128) v.2))
  let d0 := (List.range 32).foldl (fun d e =>
    match visWork d e (busyDp e) with
    | some w => countBusy e (visNow d e (getVis d e w.ctx) 0) d
    | none => d) d
  let d1 := (pick (fun e c x => decide (e % 8 < 4) && visIdle d e c x)).foldl (fun d e => pmuUc (e / 8) (448 + 8 * (e % 8) + 7) t.vx d) d0
  (pick (fun e _ x => (e % 8 == 4 || e % 8 == 5) && wantsPatch d e x)).foldl (fun d e => visCnt e 7 t.vx d) d1

/-- Image pipes with a stalled context (R434, R436). -/
def tickIsp (t : TickCount) (d : Dev) : Dev :=
  ((List.range 16).filter (fun p => d.isp.ctxs.any (fun c => c.1 / 16 == p && c.2.stalled))).foldl (fun d p =>
    pmuEv (p / 4) 61 t.vx (byMaster 5 (p % 4)) .none (pmuUc (p / 4) (512 + 8 * (p % 4) + 7) t.vx d)) d

/-- Live instances, and parked contexts (R434, R436). -/
def tickDrv (t : TickCount) (d : Dev) : Dev :=
  d.ctxs.foldl (fun d e =>
    let q := e.1 / 64
    let d1 := guardDev e.2.live (pmuUc q (544 + 10) t.vx) d
    guardDev (e.2.live && e.2.wait != .run) (pmuEv q 49 t.vx (byMaster 6 (e.1 % 64)) .none) d1) d

/-- Busy threads by core (R327 LOADk), and what the Shepherds hold (R434). -/
def tickShp (t : TickCount) (d : Dev) : Dev :=
  let d1 := d.threads.foldl (fun d e => guardDev e.2.busy (addCnt .shp (e.1 / 1024) (0x200 + 4 * (e.1 / 16 % 64)) t.vx) d) d
  d1.shp.foldl (fun d e =>
    pmuUc e.1 (560 + 8) (t.vx * e.2.ready.length) (pmuUc e.1 (560 + 9) (t.vx * (e.2.spills.map spillDepth).foldl (· + ·) 0) d)) d1

/-- Sensor buses in use, journal records held (R435), and MX cycles (R436 event 63). -/
def tickHub (t : TickCount) (d : Dev) : Dev :=
  let d1 := d.rx.cci.foldl (fun d e => guardDev e.2.op.isSome (hubUc (144 + 2 * e.1 + 1) t.pk) d) d
  hubUc 197 (d.log.journal.length * (t.new - t.old)) d1

def tickMx (t : TickCount) (d : Dev) : Dev := [0, 1, 2, 3].foldl (fun d q => pmuEv q 63 t.mx (byMaster 0 0) .none d) d

/-- What the compute and base dies count. -/
def tickDies (t : TickCount) (before d : Dev) : Dev :=
  if !d.pow.computeUp then d
  else
    let d1 := tickDrv t (tickIsp t (tickVis t (tickMe t before (tickMem t (tickDma t (drainPorts t d))))))
    (List.range (t.new - t.old)).foldl (fun d _ => [0, 1, 2, 3].foldl (fun d q => imbSample q d) d) (tickMx t (tickShp t d1))

/-- MX cycles of the general cores: none in IDLE, nor before the first cycle of the wake from it (R299, R387, R388). -/
def tickCores (t : TickCount) (d : Dev) : Dev :=
  guardDev (d.pow.computeUp && powerState d != 3)
    (updPow (fun p => { p with coreCycles := p.coreCycles + cyclesIn d 0 (min t.new (max t.old d.wakeAt)) t.new })) d

/-- The time for which the conditions of IDLE entry have held (R388). -/
def tickQuiet (t : TickCount) (d : Dev) : Dev := updPow (fun p => { p with quiet := if idleQuiet d then p.quiet + (t.new - t.old) else 0 }) d

/-! ### Device time (R384) -/

/-- DT after a tick, with its fraction: 1 more at a TBCLK edge, DT_INC more at an INTOSC cycle. (DESIGN CHOICE, log 96.) -/
def dtNext (d : Dev) : Nat × Nat :=
  if d.pow.hubUp && clkSrc d == 0 then (d.dt + 1, 0)
  else
    let n := d.clk.frac + (getR d .clk 0 0x18).toNat
    (d.dt + n / 2 ^ 24, n % 2 ^ 24)

/-- DT reaches WAKE_DT in a fallow state (R390). -/
def reachesWake (a b : Nat) (d : Dev) : Bool :=
  let w := getPair d .pwr 0 0x10 0x14
  inFallow d && decide (a < w) && decide (w ≤ b)

/-- DT_TICK (R384): a TBCLK edge, or an INTOSC cycle. (DESIGN CHOICE, log 4 and 96 and 114.) -/
def dtTick (d : Dev) : Dev :=
  if !d.pow.standby then d
  else
    let n := dtNext d
    let d1 := updClk (fun c => { c with frac := n.2 }) { d with dt := n.1 }
    let d2 := guardDev (reachesWake d.dt n.1 d) (updPow (fun p => { p with timerDue := true })) d1
    if !d.pow.hubUp || n.1 == d.dt then d2
    else
      let t : TickCount :=
        { old := d.dt, new := n.1, mx := cyclesIn d 0 d.dt n.1, vx := cyclesIn d 1 d.dt n.1, pk := cyclesIn d 3 d.dt n.1 }
      tickQuiet t (tickCores t (tickDies t d (tickHub t (tickTx t d2))))

/-- DT_TICK (R384). -/
def execDtTick (s : State) : Out State := onDev dtTick s

end Sys2Proof.Machine
end

