-- ==== Sys2Proof/Machine/Read.lean ====
section
/-! DEFINITION. What a read of the control space returns (R8, R10): stored bits, counters (R430), and in each block the bits that show its
state (R51, R79, R81, R99, R117, R148, R170, R198, R227, R229, R250-R252, R281, R312, R327, R353-R355, R375, R376, R386, R394, R395, R409,
R428, R441, R442). -/

namespace Sys2Proof.Machine

/-- Who reads (R430): each has its own latch of upper halves. -/
inductive Reader where
  | i3c | firmware | debug
  | thread (t : Nat)
  deriving DecidableEq, Repr

def Reader.key : Reader → Nat
  | .i3c => 0
  | .firmware => 1
  | .debug => 2
  | .thread t => 16 + t

/-- The stored bits of a register with some replaced. -/
def withBits (raw lo len v : Nat) : Nat := putBits raw lo len v

/-! ### Hub blocks -/

/-- CFG (R51). -/
def viewCfg (d : Dev) (raw off : Nat) : Nat :=
  let gen (p : Nat) := if (planeOf d p).loaded then (planeOf d p).gen else 0
  match off with
  | 0x0 => withBits (withBits (withBits raw 0 4 (planeBits d)) 4 3 d.cfg.load.state) 8 1 (b2n (oldLive d != 0))
  | 0xC => d.cfg.load.bytes.length
  | 0x10 => gen 0
  | 0x14 => gen 1
  | 0x2C => oldLive d
  | _ => raw

/-- The frame that a slot receives, as the lines received in it (R79): its own, the one that it has joined as an exposure, or a bulk
transfer, which has no lines. (DEDUCED, log 129.) -/
def slotOpen (d : Dev) (s : Nat) : Option Nat :=
  let x := getSlot d s
  match x.kind, ownerOf d s with
  | 1, _ => x.bulk.map (fun _ => 0)
  | 2, some (o, e) =>
    ((getSlot d o).frame.filter (fun f => f.joined.getD e false && !f.ended.getD e false)).map (fun f => f.lines.getD e 0)
  | _, _ => x.frame.map (fun f => f.lines.getD 0 0)

/-- RXP (R79): SLOT_STATUS shows the open frame and its lines. -/
def viewRxp (d : Dev) (n raw off : Nat) : Nat :=
  if off < 0x100 ∨ (off - 0x100) % 0x40 ≠ 4 then raw
  else
    match slotOpen d (16 * n + (off - 0x100) / 0x40) with
    | some k => withBits (withBits raw 0 1 1) 16 16 k
    | none => withBits raw 0 1 0

/-- CCI (R81). -/
def viewCci (d : Dev) (n raw off : Nat) : Nat :=
  if off = 4 then withBits (withBits raw 0 6 (getCci d n).queue.length) 8 1 (b2n (getCci d n).op.isSome) else raw

/-- TXP (R353). -/
def viewTxp (d : Dev) (n raw off : Nat) : Nat :=
  let t := getTx d n
  match off with
  | 0x0 => withBits raw 1 4 t.setup
  | 0x8 => t.rate
  | 0xC => b2n t.ready + 256 * txQueued t
  | 0x10 => (t.frames.filter (fun f => f.fsSent)).foldl (fun m f => m ||| 2 ^ f.vc) 0
  | _ => raw

/-- PLn (R354). -/
def viewPl (d : Dev) (n raw off : Nat) : Nat :=
  let l := getLink d n
  if off = 4 then b2n l.up + 2 * b2n l.foreign + 256 * l.peer + 65536 * l.retry.length else raw

/-- I3C (R375). -/
def viewI3c (f : FuseSt) (d : Dev) (raw off : Nat) : Nat :=
  let x := d.i3c
  if off = 4 then
    x.da.getD 0 + 128 * b2n x.da.isSome + 256 * x.activeCtl + 2 ^ 15 * b2n x.ibiOn
      + 65536 * (([0, 1, 2, 3].filter (fun s => (getSess d s).isOpen)).foldl (fun m s => m + 2 ^ s) 0) + 2 ^ 20 * b2n x.hjOn
  else if off = 8 then fusePid f % 2 ^ 32
  else if off = 0xC then fusePid f / 2 ^ 32 % 65536 + 65536 * 0x26
  else if 0x40 ≤ off ∧ off < 0x80 then
    let s := getSess d ((off - 0x40) / 0x10)
    match (off - 0x40) % 0x10 with
    | 0 => s.warrant + 16 * b2n s.isOpen + 256 * s.ctl
    | 4 => s.count
    | _ => raw
  else raw

/-- LOG (R376): the first unflushed sequence is the next one where the journal is empty. -/
def viewLog (d : Dev) (raw off : Nat) : Nat :=
  let l := d.log
  let flushed := match l.journal with
    | r :: _ => r.seq
    | [] => l.next
  let oldest := (l.nand.map (·.2.seq)).foldl min flushed
  match off with
  | 0x0 => withBits raw 16 11 l.journal.length
  | 0x4 => l.next
  | 0x8 => l.next / 2 ^ 32
  | 0xC => flushed
  | 0x10 => flushed / 2 ^ 32
  | 0x14 => oldest
  | 0x18 => oldest / 2 ^ 32
  | _ => if 0x20 ≤ off ∧ off < 0x30 then field l.hash (off - 0x20) 4 else raw

/-- SEC (R428). -/
def viewSec (f : FuseSt) (d : Dev) (raw off : Nat) : Nat :=
  let s := d.sec
  let slotOf (p : Nat) := if (planeOf d p).loaded then (planeOf d p).slot else 0xFF
  let usable := (usableSlots f (runningFw d)).foldl (fun m k => m + 2 ^ k) 0
  match off with
  | 0x0 => s.debug + 4 * b2n (fuseProvisioned f) + 8 * s.running.getD 0 + 16 * b2n s.fallback + 32 * b2n s.recovery
      + 64 * b2n (bankValid d 0) + 128 * b2n (bankValid d 1) + 256 * usable + 4096 * b2n (!s.queue.isEmpty)
  | 0x4 => fuseRollback f
  | 0x8 => fuseKeyRevoke f % 16 + 65536 * fuseWarrantRevoke f
  | 0x10 => fuseInstallId f
  | 0x14 => fuseInstallId f / 2 ^ 32
  | 0x18 => (match s.running with
    | some b => s.slots.getD b 0xFF
    | none => 0xFF) + 256 * slotOf 0 + 65536 * slotOf 1
  | 0x28 => s.boot
  | 0x2C => if bankValid d 0 then fwGen (bankFw d 0) else 0
  | 0x30 => if bankValid d 1 then fwGen (bankFw d 1) else 0
  | 0x54 => s.fails + 256 * (match s.unlock with
    | some t => ceilDiv (t - d.dt) 125000000
    | none => 0)
  | 0x84 => b2n s.att.isSome + 256 * s.attCount
  | _ =>
    if 0x400 ≤ off ∧ off < 0xC00 then leNat ((List.range 4).map (fun i => fuseShown f (off - 0x400 + i)))
    else if 0x4000 ≤ off ∧ off < 0x6230 then field s.attBuf (off - 0x4000) 4
    else if 0x7000 ≤ off ∧ off < 0x71A4 then
      leNat ((List.range 4).map (fun i => Config.identityByte (fuseBytes f 0x20 32) (off - 0x7000 + i)))
    else raw

/-- CLK (R386, R394), PWR (R395) and TEL (R409). -/
def viewClk (d : Dev) (raw off : Nat) : Nat := if off = 0x20 then d.dt else raw
def viewPwr (d : Dev) (raw off : Nat) : Nat :=
  if off = 0x1C then b2n d.pow.v48 + 2 * b2n d.pow.v3 + 4 * b2n d.pow.inletOk + 8 * b2n d.pow.hubOk + 16 * b2n d.pow.pwrfailN else raw
def viewTel (d : Dev) (raw off : Nat) : Nat :=
  match off with
  | 0x4 => d.tel.seq
  | 0x8 => d.tel.seq / 2 ^ 32
  | _ => raw

/-! ### Quadrant blocks -/

/-- A configured stream uses a pipe's context (R99). -/
def ispBound (d : Dev) (pipe c : Nat) : Bool :=
  (planesInUse d).any (fun p => (List.range 16).any (fun n =>
    let r := routeOf (planeOf d p).sections (16 * n + c)
    r.configured && r.pipe == pipe))

/-- ISP and its contexts (R99). -/
def viewIsp (d : Dev) (p raw off : Nat) : Nat :=
  if off = 4 then
    ((List.range 16).filter (fun c => (getIsp d (16 * p + c)).frame.isSome)).foldl (fun m c => m + 2 ^ c) 0
      + 65536 * b2n ((List.range 16).any (fun c => (getIsp d (16 * p + c)).stalled))
  else raw
def viewIspCtx (d : Dev) (i raw off : Nat) : Nat :=
  if off = 0 then
    let x := getIsp d i
    let stream := match x.next, x.frame, x.prev with
      | some f, _, _ => some f.stream
      | none, some f, _ => some f.stream
      | none, none, some p => some p.stream
      | none, none, none => none
    (match stream with
     | some s => mapGet 0 s d.epochs % 65536
     | none => 0) + 65536 * b2n (!x.pending.isEmpty) + 2 ^ 17 * x.tnrLast + 2 ^ 19 * b2n (ispBound d (i / 16) (i % 16))
  else raw

/-- Vision engines (R117, R148, R170). -/
def viewVis (d : Dev) (e raw off : Nat) : Nat :=
  let g := getEng d e
  if off = 4 then
    let live := ((List.range (visCtxs e)).filter (fun c => (getVis d e c).live)).length
    let busy (k : Nat) := b2n (visWork d e k).isSome
    if e % 8 < 4 then live + 256 * busy 0 + 512 * b2n (!g.waiting.isEmpty)
    else live + 256 * busy 0 + 512 * busy 1 + 1024 * busy 2 + 2048 * b2n (!g.waiting.isEmpty)
  else if 0x100 ≤ off ∧ off < 0x100 + 8 * visCtxs e then
    let x := getVis d e ((off - 0x100) / 8)
    if off % 8 = 0 then x.addr + (if e % 8 < 4 then 0 else 2 ^ 24 * x.phase) + 2 ^ 31 * b2n x.live
    else if e % 8 < 2 then x.rows.foldl max 0 % 65536
    else if 6 ≤ e % 8 then x.rows.getD (((List.range 8).find? (fun l => feaOn x l)).getD 0) 0 + 65536 * (x.matched + x.retryHit)
    else x.row + (if e % 8 < 4 then 0 else 65536 * x.refined)
  else raw

/-- DRV and FLK (R198, R355). -/
def viewDrv (d : Dev) (q raw off : Nat) : Nat :=
  if off = 0 then
    let n (p : DrvCtx → Bool) := ((List.range 64).filter (fun c => p (getCtx d q c))).length
    withBits (withBits raw 0 7 (n (·.live))) 8 7 (n (·.held))
  else if 0x100 ≤ off ∧ off < 0x500 then
    let c := getCtx d q ((off - 0x100) / 0x10)
    let w := match c.wait with
      | .run => 0
      | .join _ => 1
      | .waitAny _ _ => 2
      | .waitDt _ => 3
      | .emit _ => 4
    match off % 0x10 with
    | 0 => c.pc + 65536 * c.stream + 2 ^ 24 * b2n c.live + 2 ^ 25 * b2n c.held + 2 ^ 26 * c.plane + 2 ^ 27 * w
    | 4 => c.ev.toNat
    | 8 => c.tStop
    | _ => c.dl
  else if 0x800 ≤ off ∧ off < 0xC00 then usedOf d q ((off - 0x800) / 4)
  else if 0xC00 ≤ off ∧ off < 0x1000 then shareInForce d q ((off - 0xC00) / 4)
  else raw
def viewFlk (d : Dev) (i raw off : Nat) : Nat :=
  let x := getFlock d (i / 256) (i % 256)
  match off with
  | 0 => x.cut
  | 8 => x.tails.getD (getF d .flk i 4 0 4) 0
  | _ => raw

/-- SPD and its folds (R227). -/
def viewSpd (d : Dev) (q raw off : Nat) : Nat :=
  if off = 4 then b2n (getSpd d q).initDone + 65536 * (mapGet 0 0 (getSpd d q).scrub % 1024)
  else if off = 0x80 then wheelMask d 0 q + 65536 * wheelMask d 1 q
  else if 0x400 ≤ off ∧ off < 0x800 then
    let f := (off - 0x400) / 0x40
    let s := getFold d q f
    let conf : Bool := s.run.isSome && decide (10 * d.dt < s.conflictEnd)
    let plane := match s.run with
      | some r => r.plane
      | none => match d.cfg.folds.find? (fun e => e.1 == 16 * q + f) with
        | some e => e.2.now
        | none => 0
    match off % 0x40 with
    | 0x10 => b2n s.run.isSome + 2 * b2n (s.hold == .check || conf) + 4 * b2n (s.hold == .gate) + 8 * plane + 16 * s.pending.length
        + 512 * (if s.hold = .check then 1 else if conf then 2 else 0)
    | 0x14 => if s.run.isSome then foldCycle d q f (10 * d.dt) else 0
    | 0x18 => raw + (if s.run.isSome && s.stop.isNone && s.hold == .check then frozenSince s (10 * d.dt) else 0)
    | 0x20 => raw + (if s.run.isSome && s.stop.isNone && s.hold == .gate then frozenSince s (10 * d.dt) else 0)
    | _ => raw
  else if 0x1000 ≤ off ∧ off < 0x2000 then
    let g := getRegion d q ((off - 0x1000) / 0x10)
    match off % 0x10 with
    | 0 => g.h
    | 4 => g.t
    | 8 => g.fill
    | _ => raw
  else raw

/-- DMA channels and their controller (R229, R250). -/
def viewCh (d : Dev) (ch raw off : Nat) : Nat :=
  let c := getCh d ch
  match off, c.active with
  | 0x84, some s => (if c.ended then 3 else if s.waitAt.isSome then 2 else 1) + 4 * b2n c.next.isSome
      + 8 * b2n (nextMoves d ch) + 256 * c.lastCode
  | 0x84, none => (if c.ended then 3 else 0) + 4 * b2n c.next.isSome + 256 * c.lastCode
  | 0x88, some s => (residue s).1
  | 0x8C, some s => (residue s).2
  | 0x90, some s => needTime d ch s
  | 0x94, some s => needTime d ch s / 2 ^ 32
  | 0x98, _ => c.moved
  | _, _ => raw
def viewDmac (d : Dev) (q raw off : Nat) : Nat :=
  let mask (k : Nat) := ((List.range 32).filter (fun i => (getCh d (64 * q + k + i)).active.isSome)).foldl (fun m i => m + 2 ^ i) 0
  match off with
  | 0 => mask 0
  | 4 => mask 32
  | _ => raw

/-- XLT (R245, R251). -/
def viewXlt (d : Dev) (q raw off : Nat) : Nat :=
  if ptePassive q off then 0
  else if off = 0xC then b2n (xltAsked d (invCtlAddr q) 0) + 2 * b2n (q == 0 && (xltAsked d pteCtlAddr 0 || xltAsked d pteCtlAddr 1))
  else raw

/-- MEMC (R252). -/
def viewMemc (d : Dev) (q raw off : Nat) : Nat :=
  let i := getPair d .memc q 0x18 0x1C
  match off with
  | 0x20 => hashChannel d.cfg.salt i + 16 * hashChannel 0 i + 256 * hashChannel 1 i + 4096 * hashChannel 2 i + 65536 * hashChannel 3 i
  | 0x24 => withBits raw 0 1 (b2n (imbalanced d q))
  | _ => if 0x40 ≤ off ∧ off < 0x80 then queueDepth d (16 * q + (off - 0x40) / 4) else raw

/-- Why a matrix engine's context does not issue (R281). -/
def meWait (d : Dev) (m c : Nat) : Nat :=
  match meActive d m c with
  | none => 0
  | some r =>
    let x := getMeCtx d m c
    let now := meNow d m 0
    let cmd := r.cmds.getD r.index 0
    let waits (act : MeAct) : Bool := (act r cmd now d).isNone
    if r.stop.isSome || r.ended || r.limit ≤ r.index then 0
    else if r.cmds.length ≤ r.index then 5
    else if bit cmd 8 && !meQuiet x then 2
    else match opOf cmd with
      | 2 => if waits (meLdw m c 0) then 1 else 0
      | 3 => if !inputFree (getMe d m) c now then 4 else if waits (meMm m c 0) then 1 else 0
      | 5 => if waits (meEltw m c 0) then 4 else 0
      | 6 => if waits (meLdlut m c 0) then 1 else 0
      | 0xA => if waits (meRwait m 0) then 3 else 0
      | 0xB => if waits (meRspace m 0) then 3 else 0
      | 0xD => if waits (meRcommit m c 0) then 2 else 0
      | 0xE => if waits (meEnd m c) then 2 else 0
      | _ => 0

/-- ME (R281). -/
def viewMe (d : Dev) (m raw off : Nat) : Nat :=
  let e := getMe d m
  let queued (c : Nat) := (getMeCtx d m c).queue.length
  let live (c : Nat) := b2n (meActive d m c).isSome
  if off = 4 then
    queued 0 + 256 * queued 1 + 2 ^ 16 * live 0 + 2 ^ 17 * live 1 + 2 ^ 18 * b2n e.fold.isSome + 2 ^ 19 * b2n (!e.waiting.isEmpty)
  else if off = 0x1C then ((e.lanes.getLastD (0, [])).2).getD 0 0
  else if 0x100 ≤ off ∧ off < 0x140 then
    let c := (off - 0x100) / 0x20
    let x := getMeCtx d m c
    match off % 0x20, meActive d m c with
    | 0, some r => r.index + 2 ^ 28 + 2 ^ 29 * meWait d m c
    | 4, some r => r.launch.addr
    | 8, some r => if r.fold.isSome then r.unit else 0
    | 0xC, _ => x.afmt + 16 * x.wfmt + 256 * x.ofmt + 4096 * b2n x.sr
    | _, _ => raw
  else raw

/-- GCX and its cores (R312). -/
def viewGcx (d : Dev) (q raw off : Nat) : Nat := if off = 8 then saveSlots d q - (slotsInUse d q).length else raw
def viewCore (d : Dev) (g raw off : Nat) : Nat :=
  if off = 4 then
    let mask (p : GcThread → Bool) := ((List.range 16).filter (fun t => p (getThread d (16 * g + t)))).foldl (fun m t => m + 2 ^ t) 0
    mask (·.busy) + 65536 * mask (fun t => t.busy && t.park != .none)
  else raw

/-- SHP (R327). -/
def viewShp (d : Dev) (q raw off : Nat) : Nat :=
  let s := getShp d q
  let sp (r : Nat) := spillDepth (getSpill d q r)
  match off with
  | 0x4 => s.ready.length + 2 ^ 13 * b2n (sp 0 != 0) + 65536 * s.resume.length
  | 0x8 => sp 0
  | 0x10 => (padOf d q 0).length
  | 0x14 => (padOf d q 1).length
  | 0x18 => (padOf d q 2).length
  | 0x1C => (padOf d q 3).length
  | 0x20 => sp 1
  | 0x24 => sp 2
  | 0x28 => sp 3
  | 0x2C => sp 4
  | _ => raw

/-! ### PMU (R430, R434, R435, R441, R442) -/

/-- The register that counts an unfiltered event of a quadrant, where a block has one. -/
def ucAlias (q i : Nat) : Option Nat :=
  let e4 := i % 4
  let e8 := i % 8
  if i < 256 then (if e4 = 0 then some (addrOf .gcCore (64 * q + i / 4) 8) else none)
  else if i < 320 then some (addrOf .me (8 * q + (i - 256) / 8) (0x20 + 4 * e8))
  else if i < 448 then none
  else if i < 512 then
    let v := (i - 448) / 8
    if v < 4 ∧ 6 ≤ e8 then none else some (addrOf (visBlk (8 * q + v)).1 (visBlk (8 * q + v)).2 (0x20 + 4 * e8))
  else if i < 544 then (if e8 < 6 then some (addrOf .isp (4 * q + (i - 512) / 8) (0x10 + 4 * e8)) else none)
  else if i < 552 then some (addrOf .drv q (0x20 + 4 * (i - 544)))
  else if i < 560 then none
  else if i < 568 then some (addrOf .shp q (0x80 + 4 * (i - 560)))
  else if i < 576 then none
  else if i < 608 then (if i % 2 = 0 then some (addrOf .spd q (0x400 + 0x40 * ((i - 576) / 2) + 0x18)) else none)
  else if i < 640 then (if i % 2 = 0 then some (addrOf .memc q (0x80 + 4 * ((i - 608) / 2))) else none)
  else none

/-- The same for the hub. -/
def hubAlias (i : Nat) : Option Nat :=
  if i < 64 then none
  else if i < 96 then
    let n := (i - 64) / 4
    match i % 4 with
    | 0 => some (addrOf .txp n 0x20)
    | 1 => some (addrOf .txp n 0x2C)
    | 2 => some (addrOf .txp n 0x34)
    | _ => none
  else if i < 144 then some (addrOf .pl ((i - 96) / 8) (0x20 + 4 * (i % 8)))
  else if i < 176 then none
  else if i < 184 then some (addrOf .i3c 0 (0x20 + 4 * (i - 176)))
  else if i < 192 then none
  else if i < 197 then some (addrOf .log 0 (0x120 + 4 * (i - 192)))
  else if i < 240 then none
  else if i < 244 then some (addrOf .clk 0 (0x40 + 4 * (i - 240)))
  else if i < 249 then some (addrOf .pwr 0 (0x40 + 4 * (i - 244)))
  else if i < 256 then some (addrOf .tel 0 (0x80 + 4 * (i - 249)))
  else none

/-- Faults of a receive port: CNT1 to CNT5 and CNT7 (R435). -/
def rxpFaults (d : Dev) (n : Nat) : Nat :=
  ([1, 2, 3, 4, 5, 7].map (fun i => (cntAt d (addrOf .rxp n (0x20 + 4 * i))).toNat)).foldl (· + ·) 0 % 2 ^ 48

/-- The 48-bit count at the LO address of a counter of a quadrant's PMU, or of the hub's as 4. -/
def pmuCount (d : Dev) (q off : Nat) : Nat :=
  let own := (cntAt d (if q < 4 then addrOf .pmu q off else addrOf .pmuHub 0 off)).toNat
  if 0x2400 ≤ off then own
  else
    let i := (off - 0x1000) / 8
    if q = 4 ∧ i < 64 ∧ i % 4 = 3 then rxpFaults d (i / 4)
    else match (if q < 4 then ucAlias q i else hubAlias i) with
      | some a => (cntAt d a).toNat
      | none => own

/-- A register of a PMU: live counters by halves, the upper as its reader's latch holds it, and snapshots. -/
def viewPmu (d : Dev) (rd : Reader) (q a raw off : Nat) : Nat :=
  if off = 0 ∧ q < 4 then ([0, 1, 2, 3].filter (fun s => ((getPmu d q).track.getD s none).isSome)).foldl (fun m s => m + 2 ^ s) 0
  else if 0x120 ≤ off ∧ off < 0x130 ∧ q < 4 then (getPmu d q).lfsr.getD ((off - 0x120) / 4) 1
  else if 0x1000 ≤ off ∧ off < 0x3400 then
    if off % 8 = 0 then pmuCount d q off else mapGet 0 (rd.key * 2 ^ 24 + a) d.latch
  else if 0x4000 ≤ off then
    let c := mapGet 0 (off / 8 * 8 - 0x3000) (getPmu d q).snap
    if off % 8 = 0 then c else c / 2 ^ 32
  else raw

/-! ### The read -/

/-- A register's value for a reader, of the fuses and the module; an unassigned address reads as 0 (R8). (DEDUCED, log 12.) -/
def viewReg (f : FuseSt) (d : Dev) (rd : Reader) (a : Nat) : W32 :=
  match locate a, entryAt a with
  | some r, some (e, _) =>
    let raw := if e.counter && r.blk != .hub then (cntAt d a).toNat else (regRaw d a).toNat
    BitVec.ofNat 32 (match r.blk with
      | .cfg => viewCfg d raw r.off
      | .rxp => viewRxp d r.idx raw r.off
      | .cci => viewCci d r.idx raw r.off
      | .txp => viewTxp d r.idx raw r.off
      | .pl => viewPl d r.idx raw r.off
      | .i3c => viewI3c f d raw r.off
      | .log => viewLog d raw r.off
      | .sec => viewSec f d raw r.off
      | .clk => viewClk d raw r.off
      | .pwr => viewPwr d raw r.off
      | .tel => viewTel d raw r.off
      | .isp => viewIsp d r.idx raw r.off
      | .ispCtx => viewIspCtx d r.idx raw r.off
      | .drv => viewDrv d r.idx raw r.off
      | .flk => viewFlk d r.idx raw r.off
      | .spd => viewSpd d r.idx raw r.off
      | .ch => viewCh d r.idx raw r.off
      | .dmac => viewDmac d r.idx raw r.off
      | .memc => viewMemc d r.idx raw r.off
      | .me => viewMe d r.idx raw r.off
      | .gcx => viewGcx d r.idx raw r.off
      | .gcCore => viewCore d r.idx raw r.off
      | .shp => viewShp d r.idx raw r.off
      | .pmu => viewPmu d rd r.idx a raw r.off
      | .pmuHub => viewPmu d rd 4 a raw r.off
      | .pym => viewVis d (8 * (r.idx / 2) + r.idx % 2) raw r.off
      | .wrp => viewVis d (8 * (r.idx / 2) + 2 + r.idx % 2) raw r.off
      | .ste => viewVis d (8 * r.idx + 4) raw r.off
      | .flw => viewVis d (8 * r.idx + 5) raw r.off
      | .fea => viewVis d (8 * (r.idx / 2) + 6 + r.idx % 2) raw r.off
      | .hub => raw
      | .xlt => viewXlt d r.idx raw r.off
      | .peer => raw)
  | _, _ => 0

/-- What a read leaves (R386, R430): the upper half of a counter's count, or of DT, latched for its HI register. -/
def readLatch (rd : Reader) (a : Nat) (d : Dev) : Dev :=
  match locate a with
  | some r =>
    if r.blk = .clk ∧ r.off = 0x20 then setR .clk 0 0x24 (d.dt / 2 ^ 32) d
    else if (r.blk = .pmu ∨ r.blk = .pmuHub) ∧ 0x1000 ≤ r.off ∧ r.off < 0x3400 ∧ r.off % 8 = 0 then
      let c := pmuCount d (if r.blk = .pmu then r.idx else 4) r.off
      { d with latch := mapSet 0 (rd.key * 2 ^ 24 + a + 4) (c / 2 ^ 32) d.latch }
    else d
  | none => d

/-- A read of a register: its value, and the module after it. -/
def readRegAs (f : FuseSt) (rd : Reader) (a : Nat) (d : Dev) : W32 × Dev :=
  (viewReg f d rd a, readLatch rd a (ctlAccess (match rd with
    | .thread t => some (t / 1024)
    | _ => none) a d))

end Sys2Proof.Machine
end

