-- ==== Sys2Proof/Machine/Pmu.lean ====
section
/-! DEFINITION. Performance monitoring (R429-R442): snapshots, sample records, and the reads of counter pairs. -/

namespace Sys2Proof.Machine

/-- The register SNAP of a quadrant's PMU, or of the hub's as 4 (R441, R442). -/
def snapAddr (q : Nat) : Nat := if q < 4 then addrOf .pmu q 8 else addrOf .pmuHub 0 8

/-- The offsets of a PMU's live counters (R441, R442). -/
def pmuOffsets (q : Nat) : List Nat :=
  if q < 4 then (List.range 640).map (fun i => 0x1000 + 8 * i) ++ (List.range 512).map (fun i => 0x2400 + 8 * i)
  else (List.range 256).map (fun i => 0x1000 + 8 * i)

/-- The counts of a PMU's counters that are not 0, by offset. -/
def pmuCounts (d : Dev) (q : Nat) : List (Nat × Nat) :=
  ((pmuOffsets q).map (fun o => (o, pmuCount d q o))).filter (fun e => e.2 != 0)

/-- SNAP.GO (R430): every counter is copied, and SNAP_DT takes the DT. -/
def snapEffect (q : Nat) (v : W32) (d : Dev) : Dev :=
  if fld v 0 1 = 0 then d
  else
    let d1 := updPmu q (fun p => { p with snap := pmuCounts d q }) d
    if q < 4 then setPair .pmu q 0xC 0x10 d.dt d1 else setPair .pmuHub 0 0xC 0x10 d.dt d1

/-- A record is lost (R440): counted, and its skip count goes on into the next record of its source. -/
def sampleLost (q : Nat) (r : SampleRec) (d : Dev) : Dev :=
  let d1 := updPmu q (fun p => { p with skip := setAt r.source (satTo 32 (p.skip.getD r.source 0 + r.skip)) p.skip }) d
  orR .pmu q 4 2 (addCnt .pmu q 0x134 1 d1)

/-- The requester number of a PMU at the open pool: behind every requester of R29, since its deadline is all ones (R440). -/
def pmuParty : Party := { req := 150 }

/-- SAMPLE_RECORD_WRITE (R440): the oldest finished record goes to the next slot of the ring, or is lost where the ring is full or
64 VX cycles have passed. -/
def sampleWrite (q vx : Nat) (d : Dev) : Dev :=
  match (getPmu d q).due with
  | [] => d
  | (r, t) :: rest =>
    let d1 := updPmu q (fun p => { p with due := rest }) d
    let k := getF d .pmu q 0x100 8 8
    let g := getRegion d q k
    if sampleRingOk d q && decide (g.fill < g.n) && decide (vxAt d vx ≤ t + 64) then
      addCnt .pmu q 0x130 1 (ringCommit q k 150 none (spadWrite pmuParty q (slotAddr g g.h) (sampleBytes r) d1))
    else sampleLost q r d1

/-- The reader of the command LATCHED_PAIR_READ. -/
def readerOf : ReadBy → Reader
  | .i3c => .i3c
  | .firmware => .firmware
  | .debug => .debug
  | .thread g t => .thread (16 * g.val + t.val)

/-- The register is the lower half of a pair that a read latches (R386, R430). -/
def latchedLo (a : Nat) : Bool :=
  match locate a with
  | some r =>
    (r.blk == .clk && r.off == 0x20)
      || (r.blk == .pmu && decide (0x1000 ≤ r.off) && decide (r.off < 0x3400) && r.off % 8 == 0)
      || (r.blk == .pmuHub && decide (0x1000 ≤ r.off) && decide (r.off < 0x1800) && r.off % 8 == 0)
  | none => false

/-- A read of a reader reaches a register: the hub is powered (R389), and the debug port may (R423). (DESIGN CHOICE, log 10.) -/
def readReaches (d : Dev) (rd : Reader) (a : Nat) : Bool := d.pow.hubUp && (rd != .debug || debugReaches d a)

/-! ### The commands -/

/-- PMU_SNAP (R430): block 0 to 3 is a quadrant's PMU, 4 the hub's. -/
def execPmuSnap (block : Fin 5) (by_ : WriteBy) (v : W32) (s : State) : Out State :=
  onDev (guardDev (fld v 0 1 == 1) (fun d => committedWrite (originOf d by_) (snapAddr block.val) v (snapEffect block.val v) d)) s

/-- SAMPLE_RECORD_WRITE (R440). -/
def execSampleRecordWrite (q : Fin 4) (vx : Fin 5) (s : State) : Out State := onDev (sampleWrite q.val vx.val) s

/-- LATCHED_PAIR_READ (R386, R430). -/
def execLatchedPairRead (by_ : ReadBy) (addr : W32) (s : State) : Out State :=
  onDev (fun d => guardDev (latchedLo addr.toNat && readReaches d (readerOf by_) addr.toNat) (readLatch (readerOf by_) addr.toNat) d) s

end Sys2Proof.Machine
end

