-- ==== Sys2Proof/Machine/Spd.lean ====
section
/-! DEFINITION. Scratchpad control (R199-R206, R227): the wheel's open cycles, scrubbing, initialisation, error injection and the
reset of a region. -/

namespace Sys2Proof.Machine

/-! ### The wheel (R205, R206) -/

/-- A cycle of the quadrant belongs to the open pool: no fold of a plane in use has its phase. With lend, a phase of a fold that is
idle, gated or holding, be it in the hold of a conflict, counts as open too (R206). -/
def openCycle (d : Dev) (q w : Nat) (lend : Bool) : Bool :=
  (planesInUse d).all (fun p => (foldsIn (planeOf d p).sections q).all (fun r =>
    if bit r.phases (w % 16) then
      let f := getFold d q r.number
      let runs := match f.run with
        | some x => x.plane == p
        | none => false
      lend && (!runs || f.hold != .none || decide (w < f.conflictEnd))
    else true))

/-! ### Scrubbing (R202) -/

/-- The last wheel count at or before w at which a bank's scrub turn came: congruent to its number modulo 1,024. -/
def scrubTurn (w bank : Nat) : Nat := w - (w + 1024 - bank) % 1024

/-- Quarters of a row of a bank (R26, R199), and its first word. -/
def rowWord (bank row : Nat) : Nat := 8192 * row + 8 * bank
def rowQuarters (bank row : Nat) : List Nat := (List.range 4).map (· + rowWord bank row / 2)

/-- The scrubber's visit of a row: corrected and written back, or left as it is and posted where a quarter is uncorrectable. (DEDUCED, log 55.) -/
def scrubRow (q bank row : Nat) (d : Dev) : Dev :=
  let ks := rowQuarters bank row
  match (ks.filter (fun k => quarterState d q k == 2)).getLast? with
  | some k =>
    post { q := q, src := 169, dl := noDeadline,
           ev := { typedEvent d q 9 (rowWord bank row) with dl32 := 0xFFFFFFFF } } (noteUe q k d)
  | none => ks.foldl (fun d k => guardDev (quarterState d q k == 1) (fun d => cleanQuarter q k (noteQuarter q k d)) d) d

/-- The banks that a cycle has served (R206). -/
def servedIn (s : SpdSt) (w : Nat) : List Nat := if s.cycle = w then s.served else []

/-- SCRUB_CYCLE (R202): the first open cycle of a bank's turn, in which the bank serves nobody else. (DEDUCED, log 55.) -/
def scrubCycle (q bank mx : Nat) (d : Dev) : Dev :=
  let w := mxAt d mx
  let t := scrubTurn w bank
  let s := getSpd d q
  guardDev (s.initDone && bank ≤ w && openCycle d q w false && mapGet 0 bank s.scrubbed != t + 1 && !(servedIn s w).contains bank)
    (fun d =>
      let row := mapGet 0 bank s.scrub
      updSpd q (fun x => { x with scrub := mapSet 0 bank ((row + 1) % 1024) x.scrub
                                  scrubbed := mapSet 0 bank (t + 1) x.scrubbed
                                  cycle := w
                                  served := servedIn x w ++ [bank] })
        (addCnt .spd q 0x28 1 (scrubRow q bank row d))) d

/-! ### Initialisation (R203) -/

/-- Every byte of a quadrant zero, with valid check bits. -/
def clearSpad (q : Nat) (d : Dev) : Dev :=
  { d with mem := { d.mem with
      spad := d.mem.spad.filter (fun c => c.1 / 2 ^ 26 != q)
      flips := d.mem.flips.filter (fun c => c.1 / 2 ^ 23 != q)
      poison := d.mem.poison.filter (fun c => c.1 / 2 ^ 22 != q) } }

/-- SPD_INIT_DONE (R203). -/
def spdInitDone (q : Nat) (d : Dev) : Dev :=
  match (getSpd d q).initEnd with
  | some t => guardDev (t ≤ d.dt) (fun d => updSpd q (fun s => { s with initDone := true, initEnd := none }) (clearSpad q d)) d
  | none => d

/-! ### Error injection (R227) -/

def injectAddr (q : Nat) : Nat := addrOf .spd q 0x1C

/-- A write of INJECT: with GO, one or two stored bits of a word are to be flipped. -/
def injectEffect (q : Nat) (v : W32) (d : Dev) : Dev :=
  let n := fld v 24 2
  guardDev (fld v 31 1 == 1 && (n == 1 || n == 2)) (updSpd q (fun s => { s with inject := s.inject ++ [(fld v 0 23, n)] })) d

/-- Stored bits of a word flipped. -/
def flipWord (q w : Nat) (m : W64) (d : Dev) : Dev :=
  { d with mem := { d.mem with flips := mapUpd 0#64 (wordKey q w) (· ^^^ m) d.mem.flips } }

/-- SPD_INJECT_APPLY (R227): the oldest pending injection, in an open-pool cycle. -/
def injectApply (q mx : Nat) (d : Dev) : Dev :=
  match (getSpd d q).inject with
  | [] => d
  | (w, n) :: r =>
    guardDev (openCycle d q (mxAt d mx) true)
      (fun d => flipWord q w (if n = 1 then 1#64 else 3#64) (updSpd q (fun s => { s with inject := r }) d)) d

/-! ### Regions (R227) -/

def regCtlAddr (q r : Nat) : Nat := addrOf .spd q (0x100C + 0x10 * r)

/-- A write of REGr.CTL: H and T zero, audit tags cleared, every receiver's tail of a flock ring zero. -/
def regCtlEffect (q r : Nat) (v : W32) (d : Dev) : Dev :=
  guardDev (fld v 0 1 == 1) (fun d =>
    let d1 := updRegion q r (fun g => { g with h := 0, t := 0 }) d
    let d2 := { d1 with audit := d1.audit.filter (fun e => e.1 / 32768 != 256 * q + r) }
    match ringFlock d2 q r with
    | some (i, _) => updFlock q i (fun f => { f with tails := f.tails.map (fun _ => 0) }) d2
    | none => d2) d

/-! ### The commands -/

/-- SCRUB_CYCLE (R202). -/
def execScrubCycle (q : Fin 4) (bank : Fin 1024) (mx : Fin 10) (s : State) : Out State := onDev (scrubCycle q.val bank.val mx.val) s

/-- SPD_INIT_DONE (R203). -/
def execSpdInitDone (q : Fin 4) (s : State) : Out State := onDev (spdInitDone q.val) s

/-- SPD_INJECT (R227). -/
def execSpdInject (by_ : WriteBy) (q : Fin 4) (v : W32) (s : State) : Out State :=
  onDev (guardDev (fld v 31 1 == 1) (fun d => committedWrite (originOf d by_) (injectAddr q.val) v (injectEffect q.val v) d)) s

/-- SPD_INJECT_APPLY (R227). -/
def execSpdInjectApply (q : Fin 4) (mx : Fin 10) (s : State) : Out State := onDev (injectApply q.val mx.val) s

/-- REGION_RESET (R227). -/
def execRegionReset (by_ : WriteBy) (q : Fin 4) (r : Fin 256) (v : W32) (s : State) : Out State :=
  onDev (guardDev (fld v 0 1 == 1) (fun d => committedWrite (originOf d by_) (regCtlAddr q.val r.val) v (regCtlEffect q.val r.val v) d)) s

end Sys2Proof.Machine
end

