-- ==== Sys2Proof/Machine/Registers.lean ====
section
/-! DEFINITION. What a write of any register does when it takes effect (R8, R10): the effect of its block, or the stored bits of its
access codes; and the commands REGISTER_WRITE, EVSUM_CLEAR and SESSION_CLOSE. -/

namespace Sys2Proof.Machine

/-! ### I3C (R363, R366, R367) -/

def evsumAddr : Nat := addrOf .i3c 0 0x10
def sessCloseAddr (s : Nat) : Nat := addrOf .i3c 0 (0x48 + 0x10 * s)
def updI3c (g : I3cSt → I3cSt) (d : Dev) : Dev := { d with i3c := g d.i3c }

/-- An IBI with no enabled bit left is dropped (R367). -/
def ibiDrop (d : Dev) : Dev :=
  guardDev (ibiBits d == 0) (updI3c (fun x =>
    { x with ibiDue := false
             ibiOut := if x.ibiRetryAt.isSome then none else x.ibiOut
             ibiRetryAt := none })) d

/-- A write of EVSUM (R366, R367): bits clear; clearing the bit that the acknowledged IBI named lets the lowest that is set raise a new one,
and an IBI with no enabled bit left is dropped. -/
def evsumClear (v : W32) (d : Dev) : Dev :=
  let d1 := storeFields evsumAddr v d
  let named := match d1.i3c.ibiAcked with
    | some k => !bit (getR d1 .i3c 0 0x10).toNat k
    | none => false
  ibiDrop (guardDev named (updI3c (fun x => { x with ibiAcked := none, ibiDue := x.ibiOn && x.ibiOut.isNone })) d1)

/-- A write of SESSs.CLOSE (R363): the session's end is requested by the writer. -/
def sessCloseEffect (o : Origin) (s : Nat) (v : W32) (d : Dev) : Dev := guardDev (fld v 0 1 == 1) (requestClose o.cls o.oid s none) d

def writeI3c (o : Origin) (off a : Nat) (v : W32) (d : Dev) : Dev :=
  if off = 0x10 then evsumClear v d
  else if off = 0x14 then ibiDrop (storeFields a (v ||| 1) d)
  else if 0x40 ≤ off ∧ off < 0x80 ∧ off % 16 = 8 then sessCloseEffect o ((off - 0x40) / 16) v d
  else storeFields a v d

/-! ### Hub blocks -/

/-- HUB (R77, R80): an FSYNC generator's enable. -/
def writeHub (off a : Nat) (v : W32) (d : Dev) : Dev :=
  if 0x2000 ≤ off ∧ off < 0x2200 ∧ off % 0x20 = 0 then fsoCtlEffect ((off - 0x2000) / 0x20) v d else storeFields a v d

/-- LOG (R373, R374, R376, R402): NAND_FAIL stays set while the spare blocks are low; enabling the mirror starts it at the next record. -/
def writeLog (off a : Nat) (v : W32) (d : Dev) : Dev :=
  match off with
  | 0x0 => orR .log 0 0 (if d.tel.spareLow then (getR d .log 0 0).toNat &&& 2 else 0) (storeFields a v d)
  | 0x48 => rdCtlEffect v d
  | 0x10C =>
    let d1 := storeFields a v d
    guardDev (getF d .log 0 0x10C 0 1 == 0 && fld v 0 1 == 1)
      (fun d => setPair .log 0 0x110 0x114 d.log.next (updLog (fun l => { l with mirror := l.next }) d)) d1
  | _ => storeFields a v d

/-- SEC (R413, R418-R424, R426, R428). -/
def writeSec (f : FuseSt) (o : Origin) (off a : Nat) (v : W32) (d : Dev) : Dev :=
  match off with
  | 0x20 => fwCtlEffect v d
  | 0x40 => advEffect f v d
  | 0x44 => revokeEffect f v d
  | 0x50 => dbgCtlEffect f v d
  | 0x80 => attEffect f v d
  | 0x100 => progEffect f o v d
  | 0x104 => updSec (fun s => { s with prog := v.toNat }) d
  | _ =>
    if 0x1000 ≤ off ∧ off < 0x3080 then
      updSec (fun s => { s with resp := (List.range 4).foldl (fun m i => mapSet 0#8 (off - 0x1000 + i) (BitVec.ofNat 8 (fld v (8 * i) 8)) m) s.resp }) d
    else storeFields a v d

/-- CCI (R71, R73). -/
def writeCci (o : Origin) (n off a : Nat) (v : W32) (tx : Nat) (d : Dev) : Dev :=
  match off with
  | 0x0 => cciCtlEffect n v d
  | 0x14 => cciCmdEffect o n v tx d
  | _ => storeFields a v d

/-- RXP (R54, R60, R79). -/
def writeRxp (n off a : Nat) (v : W32) (d : Dev) : Dev :=
  if off = 0 then portCtlEffect n v d
  else if 0x100 ≤ off ∧ off < 0x500 ∧ off % 0x40 = 0 then slotCtlEffect (16 * n + (off - 0x100) / 0x40) v d
  else storeFields a v d

/-- TEL (R401, R409): a regulator's set-point. -/
def writeTel (f : FuseSt) (off a : Nat) (v : W32) (d : Dev) : Dev :=
  if 0x30 ≤ off ∧ off < 0x40 then vsetEffect f ((off - 0x30) / 4) v d else storeFields a v d

/-! ### Quadrant blocks -/

/-- A write of START sends a start with the deadline of START_DL (R101, R217, R270). -/
def writeStart (b : Blk) (i dlOff unit : Nat) (v : W32) (d : Dev) : Dev :=
  guardDev (fld v 31 1 == 1)
    (sendStart { unit := unit, desc := fld v 0 23, dl := getPair d b i dlOff (dlOff + 4), starter := .write }) d

/-- Vision engines (R117, R148, R170). -/
def writeVis (e off a vx : Nat) (v : W32) (d : Dev) : Dev :=
  if off = 8 then writeStart (visBlk e).1 (visBlk e).2 0x10 (visUnit e) v d
  else if off = 0x18 ∧ 4 ≤ e % 8 then truncEffect e vx v d
  else storeFields a v d

/-- Matrix engines (R281). -/
def writeMe (m off a mx : Nat) (v : W32) (d : Dev) : Dev :=
  match off with
  | 0x8 => writeStart .me m 0x10 (64 * (m / 8) + m % 8) v d
  | 0x18 => meStopEffect m mx v d
  | _ => storeFields a v d

/-- SPD, its folds and its regions (R227). -/
def writeSpd (q off a mx : Nat) (v : W32) (d : Dev) : Dev :=
  if off = 0x1C then injectEffect q v d
  else if 0x400 ≤ off ∧ off < 0x800 then
    let f := (off - 0x400) / 0x40
    match off % 0x40 with
    | 0x0 => foldCtlEffect q f mx v d
    | 0x4 => writeStart .spd q (0x408 + 0x40 * f) (foldUnitNo q f) v d
    | _ => storeFields a v d
  else if 0x1000 ≤ off ∧ off < 0x2000 ∧ off % 0x10 = 0xC then regCtlEffect q ((off - 0x1000) / 0x10) v d
  else storeFields a v d

/-- PMU (R430, R441): a filter set's change is counted. -/
def writePmu (q off a : Nat) (v : W32) (d : Dev) : Dev :=
  if off = 8 then snapEffect q v d
  else if 0x40 ≤ off ∧ off < 0xC0 ∧ q < 4 then addCnt .pmu q 0x13C 1 (storeFields a v d)
  else storeFields a v d

/-! ### The write -/

/-- A register write takes effect (R8, R10): tx is what a push to a CCI controller sends, mx the MX cycle within the DT. -/
def writeEffect (f : FuseSt) (o : Origin) (a : Nat) (v : W32) (tx mx : Nat) (d : Dev) : Dev :=
  match locate a with
  | none => d
  | some r =>
    match r.blk with
    | .hub => writeHub r.off a v d
    | .clk => if r.off = 0 then clkCtlEffect v d else storeFields a v d
    | .pwr => if r.off = 4 then pwrCtlEffect v d else storeFields a v d
    | .sec => writeSec f o r.off a v d
    | .log => writeLog r.off a v d
    | .i3c => writeI3c o r.off a v d
    | .cci => writeCci o r.idx r.off a v tx d
    | .rxp => writeRxp r.idx r.off a v d
    | .txp => if r.off = 0 then txpCtlEffect r.idx v d else storeFields a v d
    | .peer => storeFields a v d
    | .pl => if r.off = 0 then plCtlEffect r.idx v d else storeFields a v d
    | .cfg =>
      if r.off = 4 then loadCtlEffect v d
      else if r.off = 0x18 then switchCtlEffect v d
      else storeFields a v d
    | .tel => writeTel f r.off a v d
    | .pmuHub => writePmu 4 r.off a v d
    | .drv => if r.off = 0x14 then drvAbortEffect r.idx v d else storeFields a v d
    | .flk => storeFields a v d
    | .shp => if r.off = 0x40 then hostGoEffect r.idx v d else storeFields a v d
    | .ch => if r.off = 0x80 then chCtlEffect r.idx .write v d else storeFields a v d
    | .dmac => storeFields a v d
    | .spd => writeSpd r.idx r.off a mx v d
    | .isp => storeFields a v d
    | .ispCtx => ispCtxEffect r a v d
    | .pym => writeVis (8 * (r.idx / 2) + r.idx % 2) r.off a (mx / 2) v d
    | .wrp => writeVis (8 * (r.idx / 2) + 2 + r.idx % 2) r.off a (mx / 2) v d
    | .ste => writeVis (8 * r.idx + 4) r.off a (mx / 2) v d
    | .flw => writeVis (8 * r.idx + 5) r.off a (mx / 2) v d
    | .fea => writeVis (8 * (r.idx / 2) + 6 + r.idx % 2) r.off a (mx / 2) v d
    | .me => writeMe r.idx r.off a mx v d
    | .gcx => storeFields a v d
    | .gcCore => if r.off = 0 then coreCtlEffect r.idx v d else storeFields a v d
    | .xlt =>
      if ptePassive r.idx r.off then d
      else if r.off = 0x1C then pteCtlEffect v d
      else if r.off = 8 then invCtlEffect r.idx v d
      else storeFields a v d
    | .memc => storeFields a v d
    | .pmu => writePmu r.idx r.off a v d

/-- The controller whose CMD register an address is. -/
def cciCmdUnit (a : Nat) : Option Nat :=
  match locate a with
  | some r => if r.blk = .cci ∧ r.off = 0x14 then some r.idx else none
  | none => none

/-- A register write by an origin that takes effect now, or at its record (R23, R74, R368, R369). -/
def registerWrite (f : FuseSt) (o : Origin) (a : Nat) (v : W32) (mx : Nat) (d : Dev) : Dev :=
  match cciCmdUnit a with
  | some n => cciPush o n v d
  | none => committedWrite o a v (writeEffect f o a v 0 mx) d

/-! ### The commands -/

/-- REGISTER_WRITE (R8, R10, R23): a write from outside also tries a blocked wake again (R390). -/
def execRegisterWrite (by_ : WriteBy) (addr : W32) (v : W32) (mx : Fin 10) (s : State) : Out State :=
  onDev (fun d => registerWrite s.fuse (originOf d by_) addr.toNat v mx.val (wakeByWrite d)) s

/-- EVSUM_CLEAR (R366, R367). -/
def execEvsumClear (by_ : WriteBy) (v : W32) (s : State) : Out State :=
  onDev (fun d => committedWrite (originOf d by_) evsumAddr v (evsumClear v) d) s

/-- SESSION_CLOSE (R363). -/
def execSessionClose (by_ : WriteBy) (session : Fin 4) (v : W32) (s : State) : Out State :=
  onDev (guardDev (fld v 0 1 == 1) (fun d =>
    committedWrite (originOf d by_) (sessCloseAddr session.val) v (sessCloseEffect (originOf d by_) session.val v) d)) s

end Sys2Proof.Machine
end

