-- ==== Sys2Proof/Machine/GcMem.lean ====
section
/-! DEFINITION. Memory accesses of the general cores (R303-R307): where an address leads, loads, stores and atomics on scratchpad, DRAM and
control space, the store buffer, the grants of the open pool (R206), and the returns from DRAM. -/

namespace Sys2Proof.Machine

/-- Where a data address leads (R303). -/
inductive GcTarget where
  | dram | spad | control | fault
  deriving DecidableEq, Repr

/-- The mode of a data access: MPRV in M mode makes it that of MPP. -/
def GcThread.dataMode (th : GcThread) : Nat := if th.mode = 3 ∧ bit th.mstatus 17 then bits th.mstatus 11 2 else th.mode

/-- Where an address leads in a mode; bits above the range of its target make a fault. (DEDUCED, log 77.) -/
def gcTarget (mode a : Nat) : GcTarget :=
  if a < 2 ^ 38 then .dram
  else if 2 ^ 47 ≤ a ∧ a < 2 ^ 47 + 2 ^ 26 then .spad
  else if 2 ^ 47 + 2 ^ 40 ≤ a ∧ a < 2 ^ 47 + 2 ^ 40 + 2 ^ 32 ∧ mode = 3 then .control
  else .fault

/-- Byte offset in the scratchpad of an aperture address, and the aperture address of a byte offset. -/
def spadOf (a : Nat) : Nat := a % 2 ^ 26
def apertureOf (o : Nat) : Nat := 2 ^ 47 + o % 2 ^ 26

/-- Deadline of a thread's accesses (R28, R306). -/
def gcDl (th : GcThread) : Nat := if th.attach.isSome then th.dl else noDeadline

/-- What an access is, as the exceptions and the events of R436 sort it: 0 load, 1 store, 2 atomic. -/
def accKind (op : Nat) : Nat :=
  if op < 3 ∨ op = 15 ∨ op = 17 then 0 else if op = 3 ∨ op = 16 then 1 else 2

/-- The exceptions of an access are those of a load, which LR is too; else those of a store or AMO. -/
def loadLike (op : Nat) : Bool := accKind op == 0 || op == 4

/-- Causes of the exceptions of an access: misaligned, access fault, page fault. -/
def causeMisaligned (op : Nat) : Nat := if loadLike op then 4 else 6
def causeAccess (op : Nat) : Nat := if loadLike op then 5 else 7
def causePage (op : Nat) : Nat := if loadLike op then 13 else 15

/-- An access fault of R303 or R305, and one of poisoned data (R307). -/
def gcAccessFault (t : Nat) (acc : GcAcc) (now : Nat) (d : Dev) : Dev :=
  gcTrap t (causeAccess acc.op) acc.addr acc.pc now (gcNote t 1 d)
def gcPoisonFault (t : Nat) (acc : GcAcc) (now : Nat) (d : Dev) : Dev :=
  gcTrap t (causeAccess acc.op) acc.addr acc.pc now (gcNote t 0 d)

/-- A loaded value in its register (R303): sign-extended, zero-extended, or a float. -/
def gcLoaded (op rd size v : Nat) (th : GcThread) : GcThread :=
  match op with
  | 1 => th.setReg rd (BitVec.ofNat 64 v)
  | 2 => th.setFreg rd v
  | _ => th.setReg rd (w64 (toSigned (8 * size) v))

/-! ### Waits -/

/-- The thread parks. (DEDUCED, log 79.) -/
def gcPark (t : Nat) (p : GcPark) (d : Dev) : Dev := updThread t (fun th => { th with park := p }) d

/-- The thread goes on from an MX cycle, past the instruction of an access. -/
def gcResume (t len at_ : Nat) (f : GcThread → GcThread) (d : Dev) : Dev :=
  updThread t (fun th => { (f th) with park := .none, pc := th.pc + len, readyAt := at_ }) d

/-- Bytes of the instruction of an access: AMOs and device instructions have 4, loads and stores 2 or 4, kept in aux. -/
def accLen (acc : GcAcc) : Nat := if acc.op < 4 then acc.aux else 4

/-- Requests of a thread, and of a core's store buffer, that wait at the open pool. -/
def poolOf (d : Dev) (t : Nat) : List PoolReq := (getSpd d (gcQuad t)).pool.filter (fun r => 16 * r.gc + r.thread == t)
def ownStores (d : Dev) (t : Nat) : Nat := ((poolOf d t).filter (fun r => r.acc.op == 3)).length
def coreStores (d : Dev) (g : Nat) : Nat := ((getSpd d (g / 64)).pool.filter (fun r => r.gc == g && r.acc.op == 3)).length

/-- An access asks the open pool from an MX cycle on. -/
def poolRequest (t now : Nat) (acc : GcAcc) (d : Dev) : Dev :=
  updSpd (gcQuad t) (fun s =>
    { s with pool := s.pool ++ [{ gc := gcOf t, thread := t % 16, dl := gcDl (getThread d t), at_ := now, acc := acc }] }) d

/-- Threads of a core that wait for stores look again (R305). -/
def wakeStores (g now : Nat) (d : Dev) : Dev :=
  (List.range 16).foldl (fun d k =>
    let t := 16 * g + k
    match (getThread d t).park with
    | .stores => updThread t (fun th => { th with park := .none, readyAt := max th.readyAt (now + 1) }) d
    | _ => d) d

/-! ### DRAM (R303, R305, R306) -/

/-- What the events of a thread's DRAM request carry (R432); a store's data come from no address. -/
def gcFor (t dva : Nat) (d : Dev) : ReqFor := { q := gcQuad t, by_ := byThread d t, dva := dva }

/-- The translation of a thread's access. (DEDUCED, log 77.) -/
def gcWalk (t dva use len : Nat) (who : MemWho) (d : Dev) : Walk :=
  { cache := 128 + gcOf t, dva := dva, use := use, dl := gcDl (getThread d t), who := who, source := 128 + gcOf t % 64, len := len, due := 0,
    for_ := gcFor t dva d }

/-- The walk of a reader is in flight. -/
def walking (d : Dev) (q : Nat) (who : MemWho) : Bool := (walksOf d q).any (fun w => w.who == who)

/-- Counts of a DRAM access accepted: a load, a store or an atomic (R312, R434, R436). -/
def gcDramCount (t op dva : Nat) (d : Dev) : Dev :=
  let load := b2n (accKind op == 0)
  pmuEv (gcQuad t) (4 + accKind op) 1 (byThread d t) (.dva dva)
    (pmuUc (gcQuad t) (4 * (gcOf t % 64) + 2) load (gcCnt t 2 load d))

/-- An access at its physical address: a load is queued and returns later; a store is accepted; an atomic is made by the memory
controller, and its old value returns later (R305). -/
def gcDramAt (t : Nat) (who : MemWho) (acc : GcAcc) (pa now : Nat) (d : Dev) : Dev :=
  let dl := gcDl (getThread d t)
  let f := gcFor t acc.addr d
  let read (a : GcAcc) (d : Dev) : Dev := gcPark t (.data a) (dramQueue { dl := dl, pa := pa, len := acc.size, who := who, for_ := f } d)
  let d1 := sampleStage (gcQuad t) 0 t 1 (gcDramCount t acc.op acc.addr d)
  match accKind acc.op with
  | 0 => read acc d1
  | 1 => gcRetire t (now / 2) (gcResume t (accLen acc) (now + 1) id (dramAccept dl pa (leBytes acc.size acc.val) f d1))
  | _ =>
    if blockBad d (pa / 32) then gcPoisonFault t acc (now + 1) (noteDramUe pa d)
    else
      let old := leNat (dramPeek d pa acc.size)
      read { acc with op := 18, val := old } (dramAccept dl pa (leBytes acc.size (amoResult acc.op acc.size old acc.val)) f d1)

/-- A DRAM access is translated (R242-R244, R306): it goes on, waits for a walk, or faults. -/
def gcDram (t : Nat) (acc : GcAcc) (now : Nat) (d : Dev) : Dev :=
  let q := gcQuad t
  let n := (getThread d t).wait + 1
  let who : MemWho := .gcData (gcOf t) (t % 16) n
  let d0 := updThread t (fun th => { th with wait := n }) d
  let r := translate q (gcWalk t acc.addr (if accKind acc.op = 0 then 0 else 1) 0 who d) (now % 10 / 2) d0
  match r.1 with
  | .pa a => gcDramAt t who acc a now r.2
  | .fault _ => gcTrap t (causePage acc.op) acc.addr acc.pc (now + 1) r.2
  | .wait => gcPark t (if walking r.2 q who then .data acc else .walk acc) r.2

/-! ### Loads, stores and atomics begin (R303, R305) -/

/-- A control-space load (R23, R303): 32 bits, read at once. -/
def gcControlLoad (f : FuseSt) (t : Nat) (acc : GcAcc) (now : Nat) (d : Dev) : Dev :=
  let r := readRegAs f (.thread t) (acc.addr % 2 ^ 32) d
  gcRetire t (now / 2) (gcResume t (accLen acc) (now + 1) (gcLoaded acc.op acc.rd 4 r.1.toNat) r.2)

/-- The origin of a thread's writes (R302). (DEDUCED, log 112.) -/
def gcOrigin (d : Dev) (t : Nat) : Origin :=
  match (getThread d t).attach with
  | some i => .attachedCore (gcOf t) i
  | none => .core (gcOf t)

/-- A control-space store (R23, R303). -/
def gcControlStore (f : FuseSt) (t : Nat) (acc : GcAcc) (now : Nat) (d : Dev) : Dev :=
  gcRetire t (now / 2) (gcResume t (accLen acc) (now + 1) id
    (registerWrite f (gcOrigin d t) (acc.addr % 2 ^ 32) (BitVec.ofNat 32 acc.val) (now % 10) d))

/-- A scratchpad store (R305): posted into the core's buffer of 16, or the thread waits for room. -/
def gcSpadStore (t : Nat) (acc : GcAcc) (now : Nat) (d : Dev) : Dev :=
  if 16 ≤ coreStores d (gcOf t) then gcPark t .stores d
  else gcRetire t (now / 2) (gcResume t (accLen acc) (now + 1) id (poolRequest t now acc d))

/-- A load, store, LR, SC or AMO issues. (DEDUCED, log 77.) -/
def gcAccess (f : FuseSt) (t : Nat) (acc : GcAcc) (now : Nat) (d : Dev) : Dev :=
  let control := gcTarget (getThread d t).dataMode acc.addr == .control
  if acc.addr % acc.size ≠ 0 ∨ (control ∧ acc.addr % 4 ≠ 0) then gcTrap t (causeMisaligned acc.op) acc.addr acc.pc (now + 1) d
  else
    match gcTarget (getThread d t).dataMode acc.addr with
    | .dram => if acc.op = 4 ∨ acc.op = 5 then gcAccessFault t acc (now + 1) d else gcDram t acc now d
    | .spad => if acc.op = 3 then gcSpadStore t acc now d else gcPark t .pool (poolRequest t now acc d)
    | .control =>
      if acc.size ≠ 4 ∨ 4 ≤ acc.op then gcAccessFault t acc (now + 1) d
      else if acc.op = 3 then gcControlStore f t acc now d
      else gcControlLoad f t acc now d
    | .fault => gcAccessFault t acc (now + 1) d

/-! ### The open pool (R206) -/

/-- The bank of a scratchpad access (R26, R199). -/
def bankOf (acc : GcAcc) : Nat := spadOf acc.addr / 64 % 1024

/-- Requests that may be granted in a cycle: of free banks, and behind no older access of the same thread to the same bytes (R305). -/
def poolReady (w : Nat) (served : List Nat) : List PoolReq → List PoolReq → List PoolReq
  | _, [] => []
  | older, r :: l =>
    let blocked := older.any (fun o => o.gc == r.gc && o.thread == r.thread
      && decide (spadOf o.acc.addr < spadOf r.acc.addr + r.acc.size) && decide (spadOf r.acc.addr < spadOf o.acc.addr + o.acc.size))
    if r.at_ ≤ w && !blocked && !served.contains (bankOf r.acc) then r :: poolReady w served (r :: older) l
    else poolReady w served (r :: older) l

/-- A request as the arbiter of its bank sees it (R28, R29). -/
def poolArb (d : Dev) (r : PoolReq) : ArbReq :=
  match r.unit with
  | some (n, cls) => ⟨n, dl32Key d.dt r.dl, cls⟩
  | none => ⟨r.gc % 64, dl32Key d.dt r.dl, (getThread d (16 * r.gc + r.thread)).ev.cls⟩

/-- Of requests of one requester, the first that no other of them beats. -/
def firstOf (d : Dev) (l : List PoolReq) : Option PoolReq :=
  l.find? (fun r => l.all (fun o => !(poolArb d o).before (poolArb d r)))

/-- The winner of a bank, and the state with its arbiter's pointer. (DEDUCED, log 57.) -/
def bankWinner (q b : Nat) (l : List PoolReq) (d : Dev) : Option PoolReq × Dev :=
  let r := arbitrate arbPool (1025 * q + b) 152 (l.map (poolArb d)) d
  match r.1 with
  | some w => (firstOf d (l.filter (fun x => (poolArb d x).id == w)), r.2)
  | none => (none, r.2)

/-- The request granted: over the banks' choices, the one that no other beats, or past the limit of 128 the choice of its arbiter. (DEDUCED, log 57.) -/
def poolWinner (q w : Nat) (d : Dev) : Option (PoolReq × Dev) :=
  let s := getSpd d q
  let served := servedIn s w
  let l := poolReady w served [] (s.pool ++ traceReq d q)
  let heads := ((l.map (fun r => bankOf r.acc)).eraseDups).filterMap (fun b => (bankWinner q b (l.filter (fun r => bankOf r.acc == b)) d).1)
  if 128 ≤ served.length then none
  else
    let pick := if served.length + heads.length ≤ 128 then (firstOf d heads, d) else bankWinner q 1024 heads d
    match pick.1 with
    | some r => some (r, (bankWinner q (bankOf r.acc) (l.filter (fun x => bankOf x.acc == bankOf r.acc)) pick.2).2)
    | none => none

/-- The request leaves the pool, and its bank and one of the cycle's 128 accesses are used. -/
def poolTake (q w : Nat) (r : PoolReq) (d : Dev) : Dev :=
  updSpd q (fun s => { s with pool := s.pool.erase r, cycle := w, served := servedIn s w ++ [bankOf r.acc] }) d

/-- Mailboxes emptied by a store that left 0 in their byte 0 (R322). -/
def mailCheck (q a len vx : Nat) (d : Dev) : Dev :=
  (d.threads.filter (fun e => e.1 / 1024 == q && e.2.mail.isSome)).foldl (fun d e =>
    let b := 8 * mailWord d e.1
    guardDev (decide (a ≤ b) && decide (b < a + len) && !mailFull d e.1) (mailEmptied e.1 vx) d) d

/-- A write by a thread to the scratchpad takes its bank cycle. -/
def gcSpadWrite (t a w : Nat) (bs : List Byte) (d : Dev) : Dev :=
  mailCheck (gcQuad t) a bs.length (w / 2) (spadWrite { req := gcOf t % 64, idx := t % 16 } (gcQuad t) a bs d)

/-- A post made by SPOST from its template (R310, R325): the second operand names the quadrant and the paddock, val holds the DT of issue. -/
def spostSend (t : Nat) (acc : GcAcc) (bs : List Byte) (d : Dev) : Dev :=
  let th := getThread d t
  let ev := eventOf bs
  let dl := if th.attach.isSome then th.dl else widenDeadline d.dt ev.dl32
  let ev1 := if th.attach.isSome then { ev with dl32 := th.dl % 2 ^ 32 } else ev
  post { q := acc.aux % 4, src := gcOf t % 64, ev := ev1, dl := dl, attach := th.attach
         pad := if bit acc.aux 2 then some (bits acc.aux 3 2, acc.val + acc.aux / 2 ^ 32) else none
         ret := some (gcOf t, t % 16, acc.rd) } d

/-- The condition of an SC: the reservation holds the word. -/
def scHolds (th : GcThread) (acc : GcAcc) : Bool := th.resv == some (spadOf acc.addr / 8)

/-- A granted access takes effect (R206, R304, R305, R307-R310); its result is usable 6 cycles later. -/
def poolEffect (w : Nat) (r : PoolReq) (d : Dev) : Dev :=
  if r.unit.isSome then traceWrite (r.gc / 64) r d
  else
  let t := 16 * r.gc + r.thread
  let q := gcQuad t
  let acc := r.acc
  let a := spadOf acc.addr
  let at_ := w + 6
  let read := spadRead { req := gcOf t % 64, idx := t % 16 } q a acc.size d
  let old := leNat read.1
  let done (f : GcThread → GcThread) (d : Dev) : Dev :=
    gcRetire t (at_ / 2) (sampleStage q 0 t 2 (gcResume t (accLen acc) at_ f d))
  match acc.op with
  | 3 => wakeStores r.gc w (gcSpadWrite t a w (leBytes acc.size acc.val) d)
  | 5 =>
    if scHolds (getThread d t) acc then
      done (fun th => { (th.setReg acc.rd 0) with resv := none }) (gcSpadWrite t a w (leBytes acc.size acc.val) d)
    else done (fun th => { (th.setReg acc.rd 1) with resv := none }) d
  | 16 => gcRetire t (w / 2) (gcResume t 4 (w + 1) id (gcSpadWrite t a w (leBytes 64 acc.val) d))
  | op =>
    if read.2.1 then gcPoisonFault t acc at_ read.2.2
    else if op < 3 then done (gcLoaded op acc.rd acc.size old) read.2.2
    else if op = 4 then done (fun th => { (gcLoaded 0 acc.rd acc.size old th) with resv := some (a / 8) }) read.2.2
    else if op = 15 then poolRequest t at_ { acc with op := 16, addr := acc.aux, val := old } read.2.2
    else if op = 17 then spostSend t acc read.1 (gcPark t (.post acc.rd) (updThread t (fun th => { th with readyAt := at_ }) read.2.2))
    else done (gcLoaded 0 acc.rd acc.size old) (gcSpadWrite t a w (leBytes acc.size (amoResult op acc.size old acc.val)) read.2.2)

/-- Counts of a grant (R227 CNT4, R312, R436). -/
def poolCount (w : Nat) (r : PoolReq) (d : Dev) : Dev :=
  let wait (by_ : EvBy) (d : Dev) : Dev :=
    pmuEv (r.gc / 64) 17 (w - r.at_) by_ (.word (spadOf r.acc.addr / 8)) (addCnt .spd (r.gc / 64) 0x30 (w - r.at_) d)
  match r.unit with
  | some (_, cls) => wait (byShepherd cls) d
  | none =>
  let t := 16 * r.gc + r.thread
  let q := gcQuad t
  let by_ := byThread d t
  let at_ : EvAddr := .word (spadOf r.acc.addr / 8)
  let d1 := gcCnt t 3 1 (wait by_ d)
  sampleStage q 0 t 1 (pmuEv q (1 + accKind r.acc.op) 1 by_ at_ d1)

/-- OPEN_POOL_GRANT (R206): one access of the cycle. (DEDUCED, log 57.) -/
def poolGrant (q mx : Nat) (d0 : Dev) : Dev :=
  let w := mxAt d0 mx
  let d := traceExpire q w d0
  if !(getSpd d q).initDone || !openCycle d q w true then d
  else
    match poolWinner q w d with
    | some (r, d1) => poolEffect w r (poolCount w r (poolTake q w r d1))
    | none => d

/-! ### Returns from DRAM (R304, R306, R307) -/

/-- A return for a thread's wait that has come, taken out. -/
def takeReturn (who : MemWho) (now : Nat) (d : Dev) : Option (MemReturn × Dev) :=
  match takeFirst (fun r : MemReturn => r.who == who && decide (r.due ≤ now)) d.memsys.returns with
  | some (r, rest) => some (r, { d with memsys := { d.memsys with returns := rest } })
  | none => none

/-- A data access goes on with what came back: the physical address that a walk found, or the bytes read. -/
def gcReturned (t : Nat) (acc : GcAcc) (r : MemReturn) (now : Nat) (d : Dev) : Dev :=
  match r.fault with
  | some _ =>
    if r.bad then gcPoisonFault t acc (now + 1) d else gcTrap t (causePage acc.op) acc.addr acc.pc (now + 1) d
  | none =>
    if acc.op = 18 then
      gcRetire t (now / 2) (sampleStage (gcQuad t) 0 t 2 (gcResume t 4 (now + 1) (gcLoaded 0 acc.rd acc.size acc.val) d))
    else if accKind acc.op = 0 ∧ !r.bytes.isEmpty then
      if r.bad then gcPoisonFault t acc (now + 1) d
      else
        gcRetire t (now / 2) (sampleStage (gcQuad t) 0 t 2
          (gcResume t (accLen acc) (now + 1) (gcLoaded acc.op acc.rd acc.size (leNat r.bytes)) d))
    else gcDramAt t r.who acc r.pa now d

/-- GC_DRAM_LOAD_RETURN (R304): the thread's DRAM access goes on, or its translation, put off by a full walker, is tried again. -/
def gcDramReturn (g thread vx : Nat) (d : Dev) : Dev :=
  let t := 16 * g + thread
  let now := vxAt d vx
  let th := getThread d t
  match th.park with
  | .walk acc => gcDram t acc (2 * now) d
  | .data acc =>
    match takeReturn (.gcData g thread th.wait) now d with
    | some (r, d1) => gcReturned t acc r (2 * now) d1
    | none => d
  | _ => d

/-! ### Instruction fetch (R303-R305) -/

/-- The set of the instruction cache of a line: 64 sets of 4 ways. -/
def icacheSet (line : Nat) : Nat := line / 64 % 64
def icacheWays (d : Dev) (g line : Nat) : List (Nat × List Byte) := mapGet [] (icacheSet line) (getCore d g).icache

/-- The bytes of a line that the cache holds. -/
def icacheLine (d : Dev) (g line : Nat) : Option (List Byte) := ((icacheWays d g line).find? (fun e => e.1 == line)).map (·.2)

/-- A line put at the front of its set, or brought there. -/
def icachePut (g line : Nat) (bs : List Byte) (d : Dev) : Dev :=
  updCore g (fun c =>
    { c with icache := mapUpd [] (icacheSet line) (fun l => ((line, bs) :: l.filter (fun e => e.1 != line)).take 4) c.icache }) d
def icacheTouch (g line : Nat) (d : Dev) : Dev :=
  match icacheLine d g line with
  | some bs => icachePut g line bs d
  | none => d

/-- A fetch of a line begins (R242, R304). -/
def gcFetchLine (t line pc now : Nat) (d : Dev) : Dev :=
  let q := gcQuad t
  let n := (getThread d t).wait + 1
  let who : MemWho := .gcFetch (gcOf t) (t % 16) n
  let d0 := updThread t (fun th => { th with wait := n }) d
  let r := translate q (gcWalk t line 2 64 who d) (now % 10 / 2) d0
  match r.1 with
  | .pa a => gcPark t (.fetch line) (dramQueue { dl := gcDl (getThread d t), pa := a, len := 64, who := who, for_ := gcFor t line d } r.2)
  | .fault _ => gcTrap t 12 (max pc line) pc (now + 1) r.2
  | .wait => gcPark t (if walking r.2 q who then .fetch line else .walkFetch line) r.2

/-- GC_ICACHE_REFILL (R304): the line comes back, or its translation, put off by a full walker, is tried again. -/
def gcRefill (g thread vx : Nat) (d : Dev) : Dev :=
  let t := 16 * g + thread
  let now := vxAt d vx
  let th := getThread d t
  match th.park with
  | .walkFetch line => gcFetchLine t line th.pc (2 * now) d
  | .fetch line =>
    match takeReturn (.gcFetch g thread th.wait) now d with
    | some (r, d1) =>
      if r.bad then gcTrap t 1 (max th.pc line) th.pc (2 * now + 1) (gcNote t 0 d1)
      else if r.fault.isSome then gcTrap t 12 (max th.pc line) th.pc (2 * now + 1) d1
      else icachePut g line r.bytes (updThread t (fun th => { th with park := .none, readyAt := 2 * now + 1 }) d1)
    | none => d
  | _ => d

/-! ### The commands -/

/-- OPEN_POOL_GRANT (R206). -/
def execOpenPoolGrant (q : Fin 4) (mx : Fin 10) (s : State) : Out State := onDev (poolGrant q.val mx.val) s

/-- GC_DRAM_LOAD_RETURN (R304). -/
def execGcDramLoadReturn (gc : Fin 256) (thread : Fin 16) (vx : Fin 5) (s : State) : Out State :=
  onDev (gcDramReturn gc.val thread.val vx.val) s

/-- GC_ICACHE_REFILL (R304). -/
def execGcIcacheRefill (gc : Fin 256) (thread : Fin 16) (vx : Fin 5) (s : State) : Out State :=
  onDev (gcRefill gc.val thread.val vx.val) s

end Sys2Proof.Machine
end

