-- ==== Sys2Proof/Machine/Gc.lean ====
section
/-! DEFINITION. Issue on the general cores (R298-R311): the choice of a thread, CSRs, traps, the base instruction set, the device
instructions, waits, saves and restores, with their commands. -/

namespace Sys2Proof.Machine

/-! ### CSRs (R299; PRESUMED from the RISC-V privileged architecture) -/

/-- misa: RV64 with A, C, F, I, M and U. -/
def misaValue : Nat := 2 ^ 63 + 1 + 4 + 32 + 256 + 4096 + 2 ^ 20

/-- mstatus as read: UXL is 2, SD follows FS. -/
def mstatusRead (m : Nat) : Nat := m + 2 ^ 33 + (if bits m 13 2 = 3 then 2 ^ 63 else 0)

/-- mstatus as written: MIE, MPIE, MPP (0 or 3), FS and MPRV. -/
def mstatusWrite (old v : Nat) : Nat :=
  let mpp := if bits v 11 2 = 0 ∨ bits v 11 2 = 3 then bits v 11 2 else bits old 11 2
  8 * bits v 3 1 + 128 * bits v 7 1 + 2 ^ 11 * mpp + 2 ^ 13 * bits v 13 2 + 2 ^ 17 * bits v 17 1

/-- MX cycles of the cores up to a cycle of this DT (R299). -/
def coreCycle (d : Dev) (now : Nat) : Nat := d.pow.coreCycles + (now - mxAt d 0)

/-- The thread's cycle counter: the core's MX cycles, from where a write has set them (R299). -/
def cycleOf (d : Dev) (th : GcThread) (now : Nat) : Nat := (coreCycle d now + th.cycleOff) % 2 ^ 64

/-- A CSR's value; none where there is no such CSR, or the mode may not read it. (PRESUMED, log 74.) -/
def csrRead (d : Dev) (t now c : Nat) : Option Nat :=
  let th := getThread d t
  let user (k : Nat) (v : Nat) : Option Nat := if th.mode = 3 ∨ bit th.mcounteren k then some v else none
  let fp (v : Nat) : Option Nat := if bits th.mstatus 13 2 = 0 then none else some v
  if th.mode < bits c 8 2 then none
  else match c with
    | 0x001 => fp (th.fcsr % 32)
    | 0x002 => fp (bits th.fcsr 5 3)
    | 0x003 => fp (th.fcsr % 256)
    | 0xC00 => user 0 (cycleOf d th now)
    | 0xC01 => user 1 (d.dt % 2 ^ 64)
    | 0xC02 => user 2 (th.instret % 2 ^ 64)
    | 0xF11 => some (Config.coreIdent 0).toNat
    | 0xF12 => some (Config.coreIdent 1).toNat
    | 0xF13 => some (Config.coreIdent 2).toNat
    | 0xF14 => some t
    | 0xF15 => some 0
    | 0x300 => some (mstatusRead th.mstatus)
    | 0x301 => some misaValue
    | 0x304 => some th.mie
    | 0x305 => some th.mtvec
    | 0x306 => some th.mcounteren
    | 0x30A => some 0
    | 0x320 => some 0
    | 0x340 => some th.mscratch
    | 0x341 => some th.mepc
    | 0x342 => some th.mcause
    | 0x343 => some th.mtval
    | 0x344 => some (2048 * b2n th.meip)
    | 0xB00 => some (cycleOf d th now)
    | 0xB02 => some (th.instret % 2 ^ 64)
    | _ =>
      if 0xC03 ≤ c ∧ c < 0xC20 then user (c - 0xC00) 0
      else if (0xB03 ≤ c ∧ c < 0xB20) ∨ (0x323 ≤ c ∧ c < 0x340) then some 0
      else none

/-- A CSR written in a core cycle, where it is not read-only; fixed fields stay as they are, and the instruction that writes minstret does not
count on top of what it writes. (PRESUMED, log 74.) -/
def csrWrite (now c v : Nat) (th : GcThread) : GcThread :=
  let dirty (th : GcThread) : GcThread := { th with mstatus := putBits th.mstatus 13 2 3 }
  match c with
  | 0x001 => dirty { th with fcsr := putBits th.fcsr 0 5 (v % 32) }
  | 0x002 => dirty { th with fcsr := putBits th.fcsr 5 3 (v % 8) }
  | 0x003 => dirty { th with fcsr := v % 256 }
  | 0x300 => { th with mstatus := mstatusWrite th.mstatus v }
  | 0x304 => { th with mie := 2048 * bits v 11 1 }
  | 0x305 => { th with mtvec := v / 4 * 4 }
  | 0x306 => { th with mcounteren := v % 2 ^ 32 }
  | 0x340 => { th with mscratch := v }
  | 0x341 => { th with mepc := v / 2 * 2 }
  | 0x342 => { th with mcause := v }
  | 0x343 => { th with mtval := v }
  | 0xB00 => { th with cycleOff := (v + 2 ^ 64 - now % 2 ^ 64) % 2 ^ 64 }
  | 0xB02 => { th with instret := v + 2 ^ 64 - 1 }
  | _ => th

/-! ### Outcomes of an instruction -/

/-- The instruction at the thread's PC completes: the next PC, and the MX cycle from which the thread may issue again. -/
def gcDone (t pc at_ now : Nat) (f : GcThread → GcThread) (d : Dev) : Dev :=
  gcRetire t (now / 2) (updThread t (fun th => { (f th) with pc := pc, readyAt := at_ }) d)

/-- Illegal instruction (R299, R308). (DESIGN CHOICE, log 75.) -/
def gcIllegal (t w now : Nat) (d : Dev) : Dev :=
  gcTrap t 2 (Config.trapValue 2 w).toNat (getThread d t).pc (now + 1) d

/-- The value of an operand register. -/
def gcReg (d : Dev) (t n : Nat) : W64 := (getThread d t).reg n

/-! ### The base instruction set -/

/-- CSR instructions. -/
def gcCsr (t w now : Nat) (d : Dev) : Dev :=
  let th := getThread d t
  let c := bits w 20 12
  let src := if 4 ≤ rvF3 w then rvRs1 w else (gcReg d t (rvRs1 w)).toNat
  let k := rvF3 w % 4
  let writes : Bool := k == 1 || rvRs1 w != 0
  match csrRead d t now c with
  | none => gcIllegal t w now d
  | some old =>
    if writes && bits c 10 2 == 3 then gcIllegal t w now d
    else
      let v := match k with
        | 1 => src
        | 2 => old ||| src
        | _ => old &&& (2 ^ 64 - 1 - src)
      gcDone t (th.pc + 4) (now + 1) now (fun x => (if writes then csrWrite (coreCycle d now) c v x else x).setReg (rvRd w) (BitVec.ofNat 64 old)) d

/-- MRET. -/
def gcMret (t now : Nat) (d : Dev) : Dev :=
  let th := getThread d t
  let mpp := bits th.mstatus 11 2
  let ms := putBits (putBits (putBits th.mstatus 3 1 (bits th.mstatus 7 1)) 7 1 1) 11 2 0
  gcDone t th.mepc (now + 1) now (fun x => { x with mode := mpp, mstatus := if mpp = 3 then ms else putBits ms 17 1 0 }) d

/-- SYSTEM. -/
def gcSystem (t w now : Nat) (d : Dev) : Dev :=
  let th := getThread d t
  if rvF3 w = 4 then gcIllegal t w now d
  else if rvF3 w ≠ 0 then gcCsr t w now d
  else match w with
    | 0x00000073 => gcTrap t (if th.mode = 3 then 11 else 8) 0 th.pc (now + 1) d
    | 0x00100073 => gcTrap t 3 (Config.trapValue 3 w).toNat th.pc (now + 1) d
    | 0x30200073 => if th.mode = 3 then gcMret t now d else gcIllegal t w now d
    | 0x10500073 => gcDone t (th.pc + 4) (now + 1) now id d
    | _ => gcIllegal t w now d

/-- FENCE waits until the thread's stores have been accepted; FENCE.I invalidates the core's cache (R305). -/
def gcFence (t w now : Nat) (d : Dev) : Dev :=
  let th := getThread d t
  match rvF3 w with
  | 0 => if ownStores d t = 0 then gcDone t (th.pc + 4) (now + 1) now id d else gcPark t .stores d
  | 1 => gcDone t (th.pc + 4) (now + 1) now id (icacheClear (gcOf t) d)
  | _ => gcIllegal t w now d

/-- The access of a load, store or atomic; none for a reserved word. -/
def gcAccOf (d : Dev) (t w len : Nat) : Option GcAcc :=
  let th := getThread d t
  let a := (th.reg (rvRs1 w)).toNat
  let at_ (i : Int) : Nat := (th.reg (rvRs1 w) + w64 i).toNat
  let size := 2 ^ (rvF3 w % 4)
  match rvOp w with
  | 0x03 => if rvF3 w = 7 then none
            else some { rd := rvRd w, addr := at_ (immI w), size := size, op := if 4 ≤ rvF3 w then 1 else 0, pc := th.pc, aux := len }
  | 0x07 => if rvF3 w = 2 then some { rd := rvRd w, addr := at_ (immI w), size := 4, op := 2, pc := th.pc, aux := len } else none
  | 0x23 => if 4 ≤ rvF3 w then none
            else some { rd := 0, addr := at_ (immS w), size := size, op := 3, val := (th.reg (rvRs2 w)).toNat % 2 ^ (8 * size), pc := th.pc, aux := len }
  | 0x27 => if rvF3 w = 2 then some { rd := 0, addr := at_ (immS w), size := 4, op := 3, val := th.freg (rvRs2 w), pc := th.pc, aux := len }
            else none
  | _ =>
    match amoCode (bits w 27 5) with
    | some op =>
      if (rvF3 w ≠ 2 ∧ rvF3 w ≠ 3) ∨ (op = 4 ∧ rvRs2 w ≠ 0) then none
      else some { rd := rvRd w, addr := a, size := size, op := op, val := (th.reg (rvRs2 w)).toNat % 2 ^ (8 * size), pc := th.pc }
    | none => none

/-- Loads, stores and atomics; float ones need FS on. -/
def gcMemory (f : FuseSt) (t w len now : Nat) (d : Dev) : Dev :=
  let float : Bool := rvOp w == 0x07 || rvOp w == 0x27
  match gcAccOf d t w len with
  | some acc => if float && bits (getThread d t).mstatus 13 2 == 0 then gcIllegal t w now d else gcAccess f t acc now d
  | none => gcIllegal t w now d

/-- Float arithmetic: the result, its flags in fcsr, FS dirty. -/
def gcFloat (t w len now : Nat) (d : Dev) : Dev :=
  let th := getThread d t
  let at_ := now + fpCost w
  if bits th.mstatus 13 2 = 0 then gcIllegal t w now d
  else
    let flags (n : Nat) (x : GcThread) : GcThread := if n = 0 then x else { x with fcsr := x.fcsr ||| n, mstatus := putBits x.mstatus 13 2 3 }
    match fpResult w (bits th.fcsr 5 3) (th.freg (rvRs1 w)) (th.freg (rvRs2 w)) (th.freg (bits w 27 5)) (th.reg (rvRs1 w)) with
    | some (.f v n) => gcDone t (th.pc + len) at_ now (fun x => (flags n x).setFreg (rvRd w) v) d
    | some (.x v n) => gcDone t (th.pc + len) at_ now (fun x => (flags n x).setReg (rvRd w) v) d
    | none => gcIllegal t w now d

/-- Jumps and branches. -/
def gcJump (t w len now : Nat) (d : Dev) : Dev :=
  let th := getThread d t
  let pc : W64 := BitVec.ofNat 64 th.pc
  let link (x : GcThread) : GcThread := x.setReg (rvRd w) (BitVec.ofNat 64 (th.pc + len))
  match rvOp w with
  | 0x6F => gcDone t (pc + w64 (immJ w)).toNat (now + 1) now link d
  | 0x67 =>
    if rvF3 w = 0 then gcDone t ((th.reg (rvRs1 w) + w64 (immI w)).toNat / 2 * 2) (now + 1) now link d
    else gcIllegal t w now d
  | _ =>
    match brTaken w (th.reg (rvRs1 w)) (th.reg (rvRs2 w)) with
    | some b => gcDone t (if b then (pc + w64 (immB w)).toNat else th.pc + len) (now + 1) now id d
    | none => gcIllegal t w now d

/-- An instruction that is no device instruction (R298); len is its length in bytes before any expansion. (PRESUMED, log 74.) -/
def gcBase (f : FuseSt) (t w len now : Nat) (d : Dev) : Dev :=
  let th := getThread d t
  match rvOp w with
  | 0x63 => gcJump t w len now d
  | 0x67 => gcJump t w len now d
  | 0x6F => gcJump t w len now d
  | 0x03 => gcMemory f t w len now d
  | 0x07 => gcMemory f t w len now d
  | 0x23 => gcMemory f t w len now d
  | 0x27 => gcMemory f t w len now d
  | 0x2F => gcMemory f t w len now d
  | 0x0F => gcFence t w now d
  | 0x73 => gcSystem t w now d
  | 0x43 => gcFloat t w len now d
  | 0x47 => gcFloat t w len now d
  | 0x4B => gcFloat t w len now d
  | 0x4F => gcFloat t w len now d
  | 0x53 => gcFloat t w len now d
  | _ =>
    match aluResult w th.pc (th.reg (rvRs1 w)) (th.reg (rvRs2 w)) with
    | some v => gcDone t (th.pc + len) (now + aluCost w) now (fun x => x.setReg (rvRd w) v) d
    | none => gcIllegal t w now d

/-! ### Device instructions (R308-R310) -/

/-- The device instructions, each with a row of its own. -/
inductive DevOp where
  | rspace | rfill | rcommit | rrel | srmv | tbr | tbrdl | spost | yield | waitev | krel | cntr
  deriving DecidableEq, Repr

/-- The device instruction of a word; none for another word, an unlisted function code, or an unused field that is not 0 (R308). -/
def devOp (w : Nat) : Option DevOp :=
  let z (rd rs1 rs2 : Bool) (o : DevOp) : Option DevOp :=
    if (rd || rvRd w == 0) && (rs1 || rvRs1 w == 0) && (rs2 || rvRs2 w == 0) then some o else none
  match rvOp w, rvF3 w, rvF7 w with
  | 0x0B, 0, 0 => z true true true .rspace
  | 0x0B, 1, 0 => z true true true .rfill
  | 0x0B, 2, 0 => z false true false .rcommit
  | 0x0B, 3, 0 => z false true true .rrel
  | 0x0B, 4, 0 => z false true true .srmv
  | 0x0B, 5, 0 => z true false false .tbr
  | 0x0B, 5, 1 => z true false false .tbrdl
  | 0x2B, 0, 0 => z true true true .spost
  | 0x2B, 1, 0 => z false false false .yield
  | 0x2B, 2, 0 => z true true false .waitev
  | 0x2B, 3, 0 => z false false false .krel
  | 0x2B, 4, 0 => z true true false .cntr
  | _, _, _ => none

/-- The test of RSPACE and RFILL (R309). -/
def ringTest (g : Region) (space : Bool) (k : Nat) : Bool := if space then decide (g.fill + k < g.n) else decide (k < g.fill)

/-- RSPACE and RFILL (R308, R309): the slot's aperture address once the test is true, else the thread parks. -/
def gcRing (space : Bool) (t w now : Nat) (d : Dev) : Dev :=
  let th := getThread d t
  let r := fld64 (gcReg d t (rvRs1 w)) 8
  let k := fld64 (gcReg d t (rvRs2 w)) 16
  let g := (getRegion d (gcQuad t) r).asOf now
  if ringTest g space k then
    let a := apertureOf (slotAddr g ((if space then g.h else g.t) + k))
    gcDone t (th.pc + 4) (now + 1) now (fun x => x.setReg (rvRd w) (BitVec.ofNat 64 a)) d
  else gcPark t (.ring space r k) d
where fld64 (v : W64) (n : Nat) : Nat := v.toNat % 2 ^ n

/-- A thread's ring event (R436). -/
def gcRingEv (t e : Nat) (b : Bool) (g : Region) (d : Dev) : Dev :=
  guardDev b (fun d => pmuEv (gcQuad t) e 1 (byThread d t) (.word g.base) d) d

/-- RCOMMIT (R309). -/
def gcRcommit (t w now : Nat) (d : Dev) : Dev :=
  let th := getThread d t
  let q := gcQuad t
  let r := (gcReg d t (rvRs1 w)).toNat % 256
  let g := getRegion d q r
  if ownStores d t ≠ 0 then gcPark t .stores d
  else
    gcDone t (th.pc + 4) (now + 1) now id (ringCommit q r (gcOf t % 64) th.attach <| noteMove q r now
      (gcRingEv t 23 (decide (g.n ≠ 0) && g.fill == g.n) g (gcRingEv t 21 (decide (g.n ≠ 0)) g d)))

/-- RREL (R309), on a flock ring by the software receiver that rs2[19:16] names. -/
def gcRrel (t w now : Nat) (d : Dev) : Dev :=
  let th := getThread d t
  let v := (gcReg d t (rvRs2 w)).toNat
  let k := v % 65536
  let q := gcQuad t
  let r := (gcReg d t (rvRs1 w)).toNat % 256
  let g := getRegion d q r
  gcDone t (th.pc + 4) (now + 1) now id
    (guardDev (k != 0) (fun d => ringRelease q r k (some (2 ^ 14 + bits v 16 4)) <| noteMove q r now
      (gcRingEv t 23 (decide (g.n ≠ 0) && decide (g.fill < k)) g (gcRingEv t 22 (decide (g.n ≠ 0)) g d))) d)

/-- SRMV (R309): the row is read, then written; both addresses lie in the scratchpad, at multiples of 64. (DEDUCED, log 80.) -/
def gcSrmv (t w now : Nat) (d : Dev) : Dev :=
  let th := getThread d t
  let src := (gcReg d t (rvRs1 w)).toNat
  let dst := (gcReg d t (rvRs2 w)).toNat
  let acc : GcAcc := { rd := 0, addr := src, size := 64, op := 15, pc := th.pc, aux := dst }
  if src % 64 ≠ 0 then gcTrap t 4 src th.pc (now + 1) d
  else if dst % 64 ≠ 0 then gcTrap t 6 dst th.pc (now + 1) d
  else if gcTarget 0 src ≠ .spad then gcAccessFault t acc (now + 1) d
  else if gcTarget 0 dst ≠ .spad then gcAccessFault t { acc with op := 16, addr := dst } (now + 1) d
  else gcPark t .pool (poolRequest t now acc d)

/-- TBR and TBRDL (R310). -/
def gcTbr (t w now : Nat) (d : Dev) : Dev :=
  gcDone t ((getThread d t).pc + 4) (now + 1) now (fun x => x.setReg (rvRd w) (BitVec.ofNat 64 d.dt)) d
def gcTbrdl (t w now : Nat) (d : Dev) : Dev :=
  let th := getThread d t
  let v := if th.attach.isSome then widenDeadline d.dt th.ev.dl32 else noDeadline
  gcDone t (th.pc + 4) (now + 1) now (fun x => x.setReg (rvRd w) (BitVec.ofNat 64 v)) d

/-- SPOST (R310): the template is read through the open pool. (DEDUCED, log 80.) -/
def gcSpost (t w now : Nat) (d : Dev) : Dev :=
  let th := getThread d t
  let src := (gcReg d t (rvRs1 w)).toNat
  let acc : GcAcc := { rd := rvRd w, addr := src, size := 16, op := 17, val := d.dt, pc := th.pc, aux := (gcReg d t (rvRs2 w)).toNat }
  let d1 := pmuEv (gcQuad t) 12 1 (byThread d t) .none d
  if src % 16 ≠ 0 then gcTrap t 4 src th.pc (now + 1) d1
  else if gcTarget 0 src ≠ .spad then gcAccessFault t acc (now + 1) d1
  else gcPark t .pool (poolRequest t now acc (updThread t (fun x => { x with pc := th.pc + 4 }) d1))

/-- YIELD (R302, R310, R323): once its stores have been accepted, the thread is idle. -/
def gcYield (t now : Nat) (d : Dev) : Dev :=
  let th := getThread d t
  if ownStores d t ≠ 0 then gcPark t .stores d
  else
    let d1 := pmuEv (gcQuad t) 13 1 (byThread d t) .none (tagDone th.tag 0 (gcQuad t) (keyFree t false (now / 2) d))
    trace t 4 0 th.ev now (updThread t (fun x => { x with busy := false, attach := none, tag := none, dl := noDeadline, resv := none })
      (gcDone t (th.pc + 4) (now + 1) now id d1))

/-- WAITEV (R310): an event in the mailbox ends it at once, and so does a limit that has come. -/
def gcWaitev (t w now : Nat) (d : Dev) : Dev :=
  let th := getThread d t
  let limit := (gcReg d t (rvRs1 w)).toNat
  let d1 := pmuEv (gcQuad t) 14 1 (byThread d t) .none d
  let ret (v : Nat) (d : Dev) : Dev := gcDone t (th.pc + 4) (now + 1) now (fun x => x.setReg (rvRd w) (BitVec.ofNat 64 v)) d
  if mailFull d t then ret (2 ^ 63 + mailWord d t) d1
  else if limit ≠ 0 ∧ limit ≤ d.dt then ret 0 d1
  else gcPark t (.event limit (rvRd w)) d1

/-- KREL (R310). -/
def gcKrel (t now : Nat) (d : Dev) : Dev :=
  let th := getThread d t
  let d1 := pmuUc (gcQuad t) 571 1 d
  gcDone t (th.pc + 4) (now + 1) now id (guardDev (decide (2 ≤ th.ev.order)) (keyFree t false (now / 2)) d1)

/-- The counter that a selector names, by its LO offset in the PMU, with its group (R310, R431). -/
def cntrSelect (v : Nat) : Option (Nat × Nat) :=
  if 2 ^ 11 ≤ v then none
  else if bit v 10 then (if v % 1024 < 512 then some (0x2400 + 8 * (v % 512), 20 + v % 512 / 32) else none)
  else if v % 1024 < 640 then some (0x1000 + 8 * (v % 1024), v % 1024 / 32)
  else none

/-- A group is granted in U mode by every plane in use (R310, R431). (DEDUCED, log 80.) -/
def cntrGranted (d : Dev) (q g : Nat) : Bool :=
  (planesInUse d).all (fun p => (entriesOf 8 (planeSect d p 0xE q)).any (fun e => byteAt e 0 == g))

/-- CNTR (R310). -/
def gcCntr (t w now : Nat) (d : Dev) : Dev :=
  let th := getThread d t
  let q := gcQuad t
  let d1 := pmuEv q 15 1 (byThread d t) .none d
  let ret (v : Nat) : Dev := gcDone t (th.pc + 4) (now + 1) now (fun x => x.setReg (rvRd w) (BitVec.ofNat 64 v)) d1
  match cntrSelect (gcReg d t (rvRs1 w)).toNat with
  | some (off, g) => if th.mode = 3 || cntrGranted d q g then ret (pmuCount d q off) else gcIllegal t w now d
  | none => if th.mode = 3 then ret 0 else gcIllegal t w now d

/-- A device instruction. -/
def gcDevice (o : DevOp) (t w now : Nat) (d : Dev) : Dev :=
  match o with
  | .rspace => gcRing true t w now d
  | .rfill => gcRing false t w now d
  | .rcommit => gcRcommit t w now d
  | .rrel => gcRrel t w now d
  | .srmv => gcSrmv t w now d
  | .tbr => gcTbr t w now d
  | .tbrdl => gcTbrdl t w now d
  | .spost => gcSpost t w now d
  | .yield => gcYield t now d
  | .waitev => gcWaitev t w now d
  | .krel => gcKrel t now d
  | .cntr => gcCntr t w now d

/-! ### Issue (R300) -/

/-- A thread may issue in an MX cycle. -/
def GcThread.ready (th : GcThread) (now : Nat) : Bool :=
  th.busy && th.save.isNone && th.restore.isNone && th.park == .none && decide (th.readyAt ≤ now)

/-- The thread that R27 chooses, and the state with the core's pointer. -/
def gcSelect (g now : Nat) (d : Dev) : Option Nat × Dev :=
  let rs := (List.range 16).filterMap (fun k =>
    let th := getThread d (16 * g + k)
    if th.ready now then some (⟨k, th.dl, th.ev.cls⟩ : ArbReq) else none)
  arbitrate arbGc g 16 rs d

/-- The core takes part: its quadrant works (R203, R388), and it has not issued in this cycle. -/
def coreWorks (g now : Nat) (d : Dev) : Bool :=
  (getSpd d (g / 64)).initDone && decide (d.wakeAt ≤ d.dt) && decide ((getCore d g).issueAt ≤ now)

/-- What one MX cycle of a core counts of its parked threads (R434, R436). -/
def countParked (g : Nat) (d : Dev) : Dev :=
  (List.range 16).foldl (fun d k =>
    let t := 16 * g + k
    let q := g / 64
    let by_ := byThread d t
    let th := getThread d t
    let d1 := pmuUc q (4 * (g % 64) + 3) (b2n (th.busy && th.park != .none)) d
    match th.park with
    | .data acc => if accKind acc.op = 0 then pmuEv q 7 1 by_ (.dva acc.addr) d1 else d1
    | .ring _ _ _ => pmuEv q 8 1 by_ .none d1
    | .stores => pmuEv q 47 1 by_ .none d1
    | _ => d1) d

/-- The core's cycle is used. -/
def gcCycle (g now : Nat) (d : Dev) : Dev := countParked g (updCore g (fun c => { c with issueAt := now + 1 }) d)

/-- What lies at a thread's PC: an instruction as a 32-bit word with its length in bytes, a line that is not in the cache, or an access
fault (R303). -/
inductive Fetched where
  | word (w len : Nat)
  | reserved (h : Nat)
  | miss (line : Nat)
  | fault
  deriving DecidableEq, Repr

/-- A half word of the cached instruction stream. -/
def fetchHalf (d : Dev) (g a : Nat) : Option Nat := (icacheLine d g (a / 64 * 64)).map (fun bs => field bs (a % 64) 2)

/-- The fetch of a thread. -/
def gcFetch (d : Dev) (t : Nat) : Fetched :=
  let g := gcOf t
  let pc := (getThread d t).pc
  if 2 ^ 38 ≤ pc then .fault
  else match fetchHalf d g pc with
    | none => .miss (pc / 64 * 64)
    | some h =>
      if h % 4 ≠ 3 then (match expandC h with
        | some w => .word w 2
        | none => .reserved h)
      else if 2 ^ 38 ≤ pc + 2 then .fault
      else match fetchHalf d g (pc + 2) with
        | none => .miss ((pc + 2) / 64 * 64)
        | some u => .word (h + 65536 * u) 4

/-- A machine external interrupt is to be taken (R322). (DEDUCED, log 76.) -/
def gcInterrupt (th : GcThread) : Bool := th.meip && bit th.mie 11 && bit th.mstatus 3

/-- The sampler's item of an issue (R437-R439). -/
def gcSample (t w : Nat) (d : Dev) : Dev :=
  let th := getThread d t
  let a := (gcAccOf d t w 4).map (·.addr)
  let data := if rvOp w = 0x03 ∨ rvOp w = 0x07 ∨ rvOp w = 0x23 ∨ rvOp w = 0x27 ∨ rvOp w = 0x2F then a.getD 0 else 0
  sampleItem (gcQuad t) 0 t (sampleInst d th.attach
    { source := 0, unit := localThread t, ident := th.pc, detail := w % 2 ^ 32 + 2 ^ 32 * (data % 2 ^ 32), dl := gcDl th, start := d.dt, cls := th.ev.cls }) d

/-- An instruction issues (R312, R434). -/
def gcIssued (t w : Nat) (d : Dev) : Dev := gcSample t w (addCnt .gcCore (gcOf t) 8 1 (gcCnt t 0 1 d))

/-- The word at a thread's PC is a device instruction. (DEDUCED, log 79.) -/
def fetchedDev (x : Fetched) : Option DevOp :=
  match x with
  | .word w 4 => devOp w
  | _ => none

/-- What the thread chosen does in its cycle, when it is no device instruction. -/
def gcIssueBase (f : FuseSt) (t now : Nat) (d : Dev) : Dev :=
  let th := getThread d t
  if gcInterrupt th then gcTrap t (2 ^ 63 + 11) 0 th.pc (now + 1) d
  else match gcFetch d t with
    | .fault => gcTrap t 1 th.pc th.pc (now + 1) (gcNote t 1 d)
    | .miss line => gcFetchLine t line th.pc now (pmuEv (gcQuad t) 9 1 (byThread d t) (.dva line) d)
    | .reserved h => gcIllegal t h now (gcIssued t h (icacheTouch (gcOf t) (th.pc / 64 * 64) d))
    | .word w len => gcBase f t w len now (gcIssued t w (icacheTouch (gcOf t) (th.pc / 64 * 64) d))

/-- GC_INSTRUCTION (R300): the core's cycle, where the thread chosen stands at no device instruction or none is ready. -/
def gcInstruction (f : FuseSt) (g mx : Nat) (d : Dev) : Dev :=
  let now := mxAt d mx
  if !coreWorks g now d then d
  else
    match gcSelect g now d with
    | (none, _) => gcCycle g now (pmuUc (g / 64) (4 * (g % 64) + 1) 1 (gcCnt (16 * g) 1 1 d))
    | (some k, d1) =>
      let t := 16 * g + k
      if (fetchedDev (gcFetch d t)).isSome && !gcInterrupt (getThread d t) then d else gcIssueBase f t now (gcCycle g now d1)

/-- The core's cycle where the thread chosen stands at the device instruction named. -/
def gcDeviceCycle (o : DevOp) (g mx : Nat) (d : Dev) : Dev :=
  let now := mxAt d mx
  if !coreWorks g now d then d
  else
    match gcSelect g now d with
    | (none, _) => d
    | (some k, d1) =>
      let t := 16 * g + k
      match gcFetch d t with
      | .word w 4 =>
        if devOp w = some o ∧ !gcInterrupt (getThread d t) then
          gcDevice o t w now (gcIssued t w (icacheTouch (gcOf t) ((getThread d t).pc / 64 * 64) (gcCycle g now d1)))
        else d
      | _ => d

/-! ### Waits, saves and restores (R309-R311, R321) -/

/-- GC_PARK_WAKE (R309): the test of a parked ring instruction is true; the thread is ready in the next cycle. (DEDUCED, log 79.) -/
def gcParkWake (t now : Nat) (d : Dev) : Dev :=
  match (getThread d t).park with
  | .ring space r k =>
    guardDev (ringTest ((getRegion d (gcQuad t) r).asOf now) space k) (updThread t (fun th => { th with park := .none, readyAt := max th.readyAt (now + 1) })) d
  | _ => d

/-- GC_WAITEV_TIMEOUT (R310). -/
def gcWaitTimeout (t now : Nat) (d : Dev) : Dev :=
  match (getThread d t).park with
  | .event limit rd =>
    guardDev (limit != 0 && decide (limit ≤ d.dt))
      (fun d => gcRetire t (now / 2) (gcResume t 4 (now + 1) (fun x => x.setReg rd 0) d)) d
  | _ => d

/-- The thread's loads and posts have completed: its save may begin (R311). -/
def saveReady (th : GcThread) : Bool :=
  match th.park with
  | .none => true
  | .ring _ _ _ => true
  | .event _ _ => true
  | .stores => true
  | _ => false

/-- GC_SAVE_DONE (R311, R321): 64 MX cycles after its last instruction completed, the thread's state is in its slot, its event a resume entry,
and the winner starts on it. -/
def gcSaveDone (t now : Nat) (d : Dev) : Dev :=
  let q := gcQuad t
  let th := getThread d t
  match th.save with
  | none => d
  | some (ent, cslot, slot) =>
    if !saveReady th || decide (now < th.readyAt + 64) then d
    else
      let e : ReadyEnt := { ev := th.ev, dl := th.dl, attach := th.attach, tag := th.tag, vx := now / 2 }
      let d1 := spadWrite { req := gcOf t % 64, idx := t % 16 } q (8 * saveWord d q slot) (saveBytes d th) (sampleEnd q 0 t (now / 2) true d)
      let d2 := updShp q (fun s => { s with resume := s.resume ++ [⟨e, slot⟩] }) (pmuUc q 570 1 d1)
      let d3 := trace t 1 0 th.ev now (updThread t (fun x => { x with save := none, busy := false, park := .none, resv := none }) d2)
      match cslot with
      | none => dispatchTo q t (now / 2) ent d3
      | some s => restoreTo t (now / 2) ent s d3

/-- A slot's 640 bytes as read back; a poisoned quarter's bytes are not stated. -/
def slotBytes (t q a : Nat) (d : Dev) : List Byte × Dev :=
  let r := spadRead { req := gcOf t % 64, idx := t % 16 } q a 640 d
  ((r.1.zipIdx).map (fun e => if quarterState d q ((a + e.2) / 16) = 2 then Config.poisonByte q (a + e.2) else e.1), r.2.2)

/-- GC_RESTORE_DONE (R311): 64 MX cycles after it began; the slot is free and the event's key is the new thread's, which issues 10 MX cycles
later (R317). -/
def gcRestoreDone (t now : Nat) (d : Dev) : Dev :=
  let q := gcQuad t
  match (getThread d t).restore with
  | none => d
  | some (ent, slot, end_) =>
    if now < end_ then d
    else
      let r := slotBytes t q (8 * saveWord d q slot) d
      keyMove q (slotHolder slot) t (updThread t (fun th => { restoreFrom r.1 ent th with readyAt := end_ + 10 }) r.2)

/-! ### The commands -/

/-- GC_INSTRUCTION (R300). -/
def execGcInstruction (gc : Fin 256) (mx : Fin 10) (s : State) : Out State := onDev (gcInstruction s.fuse gc.val mx.val) s

/-- GC_RSPACE (R308, R309). -/
def execGcRspace (gc : Fin 256) (mx : Fin 10) (s : State) : Out State := onDev (gcDeviceCycle .rspace gc.val mx.val) s

/-- GC_RFILL (R308, R309). -/
def execGcRfill (gc : Fin 256) (mx : Fin 10) (s : State) : Out State := onDev (gcDeviceCycle .rfill gc.val mx.val) s

/-- GC_RCOMMIT (R309). -/
def execGcRcommit (gc : Fin 256) (mx : Fin 10) (s : State) : Out State := onDev (gcDeviceCycle .rcommit gc.val mx.val) s

/-- GC_RREL (R309). -/
def execGcRrel (gc : Fin 256) (mx : Fin 10) (s : State) : Out State := onDev (gcDeviceCycle .rrel gc.val mx.val) s

/-- GC_SRMV (R309). -/
def execGcSrmv (gc : Fin 256) (mx : Fin 10) (s : State) : Out State := onDev (gcDeviceCycle .srmv gc.val mx.val) s

/-- GC_TBR (R310). -/
def execGcTbr (gc : Fin 256) (mx : Fin 10) (s : State) : Out State := onDev (gcDeviceCycle .tbr gc.val mx.val) s

/-- GC_TBRDL (R310). -/
def execGcTbrdl (gc : Fin 256) (mx : Fin 10) (s : State) : Out State := onDev (gcDeviceCycle .tbrdl gc.val mx.val) s

/-- GC_SPOST (R310). -/
def execGcSpost (gc : Fin 256) (mx : Fin 10) (s : State) : Out State := onDev (gcDeviceCycle .spost gc.val mx.val) s

/-- GC_YIELD (R310). -/
def execGcYield (gc : Fin 256) (mx : Fin 10) (s : State) : Out State := onDev (gcDeviceCycle .yield gc.val mx.val) s

/-- GC_WAITEV (R310). -/
def execGcWaitev (gc : Fin 256) (mx : Fin 10) (s : State) : Out State := onDev (gcDeviceCycle .waitev gc.val mx.val) s

/-- GC_KREL (R310). -/
def execGcKrel (gc : Fin 256) (mx : Fin 10) (s : State) : Out State := onDev (gcDeviceCycle .krel gc.val mx.val) s

/-- GC_CNTR (R310). -/
def execGcCntr (gc : Fin 256) (mx : Fin 10) (s : State) : Out State := onDev (gcDeviceCycle .cntr gc.val mx.val) s

/-- GC_PARK_WAKE (R309). -/
def execGcParkWake (gc : Fin 256) (thread : Fin 16) (mx : Fin 10) (s : State) : Out State :=
  onDev (fun d => gcParkWake (16 * gc.val + thread.val) (mxAt d mx.val) d) s

/-- GC_WAITEV_TIMEOUT (R310). -/
def execGcWaitevTimeout (gc : Fin 256) (thread : Fin 16) (mx : Fin 10) (s : State) : Out State :=
  onDev (fun d => gcWaitTimeout (16 * gc.val + thread.val) (mxAt d mx.val) d) s

/-- GC_IINV (R312). -/
def execGcIinv (by_ : WriteBy) (gc : Fin 256) (v : W32) (s : State) : Out State :=
  onDev (guardDev (fld v 1 1 == 1) (fun d => committedWrite (originOf d by_) (coreCtlAddr gc.val) v (coreCtlEffect gc.val v) d)) s

/-- GC_SAVE_DONE (R311). -/
def execGcSaveDone (gc : Fin 256) (thread : Fin 16) (mx : Fin 10) (s : State) : Out State :=
  onDev (fun d => gcSaveDone (16 * gc.val + thread.val) (mxAt d mx.val) d) s

/-- GC_RESTORE_DONE (R311). -/
def execGcRestoreDone (gc : Fin 256) (thread : Fin 16) (mx : Fin 10) (s : State) : Out State :=
  onDev (fun d => gcRestoreDone (16 * gc.val + thread.val) (mxAt d mx.val) d) s

end Sys2Proof.Machine
end

