-- ==== Sys2Proof/Machine/I3c.lean ====
section
/-! DEFINITION. The I3C target (R356-R367): command frames, sessions, CCCs, in-band interrupts; and the commit of change-log records (R368), which
completes the responses that wait for them. -/

namespace Sys2Proof.Machine

def i3cCnt (i : Nat) (d : Dev) : Dev := addCnt .i3c 0 (0x20 + 4 * i) 1 d

/-- The target is powered, enabled, and past the first 125,000 DT of its wake (R375, R391). -/
def i3cUp (d : Dev) : Bool := d.pow.hubUp && getF d .i3c 0 0 0 1 == 1 && decide (d.pow.i3cFrom ≤ d.dt)

/-- A private transfer reaches the target: it holds an address, and the bus is in a mode that it follows (R356). -/
def i3cHears (d : Dev) : Bool := i3cUp d && d.i3c.da.isSome && d.i3c.hdr != .other

/-- ALERT_N is asserted (R366); it is released while the hub's pins are not driven (R449). -/
def alertLow (d : Dev) : Bool := hubPins d && (getR d .i3c 0 0x10).toNat &&& ((getR d .i3c 0 0x18).toNat ||| 1) != 0

/-- Bytes moved on the bus in the mode in force (R435). -/
def busBytes (n : Nat) (d : Dev) : Dev := hubUc (if d.i3c.hdr = .sdr then 185 else 186) n d

/-- An answer that left the target. -/
def i3cSend (bs : List Byte) (d : Dev) : Dev := updI3c (fun x => { x with sent := bs :: x.sent }) d

/-! ### Frames (R360, R361, R364) -/

/-- A request frame in form: command code, session, sequence, address, length, data, the bytes up to and including the CRC, and the MAC. -/
structure Frame where
  code : Nat
  session : Nat
  seq : Nat
  addr : Nat
  n : Nat
  data : List Byte
  body : List Byte
  mac : List Byte
  deriving DecidableEq, Repr

/-- Data bytes that a frame's code and length field call for (R360). -/
def frameDataLen (bs : List Byte) : Nat := if byteAt bs 0 % 16 = 2 ∨ byteAt bs 0 % 16 = 3 then field bs 6 2 else 0

/-- The address and length rules of a frame's code (R360); reserved bytes of an OPEN are 0 (R7). (DEDUCED, log 93.) -/
def frameRules (code addr n : Nat) (data : List Byte) : Bool :=
  match code with
  | 1 => addr % 4 == 0 && n % 4 == 0 && decide (4 ≤ n) && decide (n ≤ 256)
  | 2 => addr % 4 == 0 && n % 4 == 0 && decide (4 ≤ n) && decide (n ≤ 256)
  | 3 => addr == 0 && n == 20 && ((data.drop 1).take 3).all (· == 0#8)
  | 4 => addr == 0 && n == 0
  | _ => false

/-- The check of a frame's form (R364, steps 1 to 3): its status, or the frame. -/
def parseFrame (bs : List Byte) : Except Nat Frame :=
  let n := frameDataLen bs
  if bs.length < 14 ∨ bs.length ≠ 14 + n then .error 7
  else if (crc16 (bs.take (8 + n))).toNat ≠ field bs (8 + n) 2 then .error 1
  else
    let fr : Frame :=
      { code := byteAt bs 0 % 16, session := bits (byteAt bs 0) 4 2, seq := byteAt bs 1, addr := field bs 2 4, n := field bs 6 2
        data := (bs.drop 8).take n, body := bs.take (10 + n), mac := bs.drop (10 + n) }
    if bits (byteAt bs 0) 6 2 ≠ 0 ∨ !frameRules fr.code fr.addr fr.n fr.data then .error 7 else .ok fr

/-- The MAC of a frame (R364): direction 0 for a request, 1 for a response. -/
def frameMac (key : List Byte) (dir c : Nat) (body : List Byte) : List Byte :=
  (hmac384 key (leBytes 1 dir ++ leBytes 4 c ++ body)).take 4

/-- A response without its CRC and MAC (R361). -/
def respBody (status seq field4 : Nat) (data : List Byte) : List Byte :=
  leBytes 1 status ++ leBytes 1 seq ++ leBytes 2 data.length ++ leBytes 4 field4 ++ data

/-- A response with its CRC, and its MAC under a key where there is one. -/
def sealResp (key : Option (List Byte × Nat)) (body : List Byte) : List Byte :=
  let b := body ++ leBytes 2 (crc16 body).toNat
  b ++ (match key with
    | some (k, c) => frameMac k 1 c b
    | none => leBytes 4 0)

/-- A response marked CACHED. -/
def cachedBody (body : List Byte) : List Byte := leBytes 1 (byteAt body 0 ||| 128) ++ body.drop 1

def setResp (r : Response) (d : Dev) : Dev := updI3c (fun x => { x with resp := r }) d

/-- A response to a request that was not authenticated. -/
def refuse (status seq : Nat) (d : Dev) : Dev := setResp (.ready (sealResp none (respBody status seq 0 []))) d

/-- A request that failed a MAC or sequence check (R366, bit 10), and one that passed. (DEDUCED, log 93.) -/
def authFail (d : Dev) : Dev :=
  let d1 := updI3c (fun x => { x with authFails := (x.authFails + 1) % 16 }) d
  guardDev (d1.i3c.authFails == 0) (evsum 10) d1
def authPass (d : Dev) : Dev := updI3c (fun x => { x with authFails := 0 }) d

/-- A frame's response is complete (R362, R364): its session keeps it for a retry, and the buffer holds it where it waits for it. -/
def finishFrame (w : FrameWait) (d : Dev) : Dev :=
  let body := respBody w.status w.seq w.last w.data
  let d1 := updI3c (fun x => { x with waits := x.waits.filter (fun y => y.serial != w.serial) }) d
  let d2 := guardDev ((getSess d1 w.session).lastFrame == w.serial) (updSess w.session (fun s => { s with cached := body })) d1
  match d2.i3c.resp with
  | .waiting n retry =>
    if n = w.serial then setResp (.ready (sealResp (some (w.key, w.counter)) (if retry then cachedBody body else body))) d2 else d2
  | _ => d2

/-- A frame begins to be carried out: its session names it, and the buffer waits for it. -/
def beginFrame (w : FrameWait) (d : Dev) : Dev :=
  setResp (.waiting w.serial false)
    (updI3c (fun x => { x with waits := x.waits ++ [w] }) (updSess w.session (fun s => { s with lastFrame := w.serial }) d))

/-! ### READ and WRITE (R362, R365) -/

/-- The privilege bit that an access to an assigned register needs (R365). -/
def privilegeBit (r : RegRef) (write : Bool) : Nat :=
  if r.blk = .sec then 7
  else if r.blk = .log then 1
  else if !write then 0
  else match r.blk with
    | .hub => if 0x1000 ≤ r.off ∧ r.off < 0x3000 then 2 else 6
    | .clk => 6
    | .pwr => 6
    | .tel => 6
    | .pmuHub => 6
    | .i3c => 6
    | .rxp => 2
    | .cci => 2
    | .txp => 2
    | .cfg => 4
    | .peer => 5
    | .pl => 5
    | _ => 3

/-- A register is assigned (R8, R22). -/
def assigned (a : Nat) : Bool := (entryAt a).isSome

/-- A privilege mask allows an access. -/
def allows (mask a : Nat) (write : Bool) : Bool :=
  match locate a with
  | some r => !assigned a || bit mask (privilegeBit r write)
  | none => true

/-- The addresses of a READ or WRITE. -/
def frameAddrs (addr n : Nat) : List Nat := (List.range (n / 4)).map (fun i => addr + 4 * i)

/-- 0x06 where some register is unassigned (R8, R362). -/
def doneStatus (as : List Nat) : Nat := if as.all assigned then 0 else 6

/-- Registers read in ascending order for the I3C target. -/
def readRegs (f : FuseSt) (as : List Nat) (d : Dev) : List Byte × Dev :=
  as.foldl (fun (p : List Byte × Dev) a =>
    let r := readRegAs f .i3c a p.2
    (p.1 ++ leBytes 4 r.1.toNat, r.2)) ([], d)

/-- A READ that touches RD_DATA waits while RD_STATE.BUSY is 1 (R373). -/
def readWaits (as : List Nat) (d : Dev) : Bool :=
  d.log.read.isSome && as.any (fun a => decide (addrOf .log 0 0x80 ≤ a) && decide (a < addrOf .log 0 0xC0))

/-- A READ carried out. -/
def doRead (f : FuseSt) (w : FrameWait) (addr n : Nat) (d : Dev) : Dev :=
  let r := readRegs f (frameAddrs addr n) d
  finishFrame { w with status := doneStatus (frameAddrs addr n), data := r.1 } (i3cCnt 0 r.2)

/-- The warrant's privilege mask of an open session. -/
def sessMask (f : FuseSt) (d : Dev) (s : Nat) : Nat := warrantMask f (getSess d s).warrant

/-- READ (R362). -/
def frameRead (f : FuseSt) (w : FrameWait) (fr : Frame) (d : Dev) : Dev :=
  let as := frameAddrs fr.addr fr.n
  if !as.all (fun a => allows (sessMask f d w.session) a false) then finishFrame { w with status := 5 } (i3cCnt 4 d)
  else if readWaits as d then
    updI3c (fun x => { x with waits := x.waits.map (fun y => if y.serial = w.serial then { y with read := some (fr.addr, fr.n) } else y) }) d
  else doRead f w fr.addr fr.n d

/-- The record that a write of a session asks for. -/
def i3cWriteReq (d : Dev) (o : Origin) (a : Nat) (v : W32) (serial : Nat) : ChangeReq :=
  let r := match cciCmdUnit a with
    | some n => pushReq d o n v
    | none => writeReq d o a v
  { r with frame := some serial }

/-- One register of a WRITE: requested of the log, or in effect at once; unassigned, discarded. -/
def writeOne (f : FuseSt) (o : Origin) (serial : Nat) (d : Dev) (av : Nat × W32) : Dev :=
  if !assigned av.1 then d
  else if isLogged o av.1 then requestChange (i3cWriteReq d o av.1 av.2 serial) d
  else writeEffect f o av.1 av.2 0 0 d

/-- The registers of a WRITE with their values. -/
def frameWrites (fr : Frame) : List (Nat × W32) :=
  (List.range (fr.n / 4)).map (fun i => (fr.addr + 4 * i, BitVec.ofNat 32 (field fr.data (4 * i) 4)))

/-- The origin of a session's writes. -/
def sessOrigin (d : Dev) (s : Nat) : Origin := .i3c (getSess d s).warrant s (getSess d s).ctl

/-- WRITE (R362): every register is checked first, then each write goes its way in ascending order. -/
def frameWrite (f : FuseSt) (w : FrameWait) (fr : Frame) (d : Dev) : Dev :=
  let ws := frameWrites fr
  let as := ws.map (·.1)
  if !as.all (fun a => allows (sessMask f d w.session) a true) then finishFrame { w with status := 5 } (i3cCnt 4 d)
  else
    let o := sessOrigin d w.session
    let n := (as.filter (fun a => assigned a && isLogged o a)).length
    let w1 := { w with status := doneStatus as, left := n }
    let d1 := updI3c (fun x => { x with waits := x.waits.map (fun y => if y.serial = w.serial then w1 else y) }) (wakeByWrite (i3cCnt 0 d))
    let d2 := ws.foldl (writeOne f o w.serial) d1
    if n = 0 then finishFrame w1 d2 else d2

/-- CLOSE (R363): the response waits for the record of the session's end. -/
def frameClose (w : FrameWait) (d : Dev) : Dev :=
  let o := sessOrigin d w.session
  let w1 := { w with left := 1, closes := true }
  requestClose o.cls o.oid w.session (some w.serial)
    (updI3c (fun x => { x with waits := x.waits.map (fun y => if y.serial = w.serial then w1 else y) }) (i3cCnt 0 d))

/-! ### Sessions (R363, R364) -/

/-- The text that names a session key. -/
def sessionText : List Byte := [0x44, 0x4E, 0x56, 0x33, 0x32, 0x2D, 0x53, 0x45, 0x53, 0x53, 0x49, 0x4F, 0x4E]

/-- K_s (R363). -/
def sessionKey (kw : List Byte) (slot : Nat) (nc nt : List Byte) : List Byte :=
  (hmac384 kw (sessionText ++ leBytes 1 slot ++ nc ++ nt)).take 32

/-- OPEN accepted (R363, R364 step 5): a nonce is drawn, a held session is to end, and the session is to open with its record. -/
def acceptOpen (f : FuseSt) (serial : Nat) (fr : Frame) (d : Dev) : Dev :=
  let slot := byteAt fr.data 0
  let nt := (List.range 16).map (Config.randomByte d.freeCount)
  let ks := sessionKey (warrantKey f slot) slot ((fr.data.drop 4).take 16) nt
  let o : Origin := .i3c slot fr.session d.i3c.activeCtl
  let w : FrameWait := { serial := serial, session := fr.session, key := ks, counter := fr.seq, seq := fr.seq, data := nt, left := 1 }
  let d1 := requestClose o.cls o.oid fr.session none (i3cCnt 0 (authPass { d with freeCount := d.freeCount + 1 }))
  let d2 := setResp (.waiting serial false) (updI3c (fun x => { x with waits := x.waits ++ [w] }) d1)
  requestChange { at_ := d.dt, cls := o.cls, oid := o.oid, target := fr.session, kind := 0x0005, new := BitVec.ofNat 32 slot
                  extra := BitVec.ofNat 64 d.i3c.activeCtl, frame := some serial
                  act := .openSession { s := fr.session, warrant := slot, ctl := d.i3c.activeCtl, count := fr.seq, key := ks } } d2

/-- The checks of an OPEN (R364), after its form. -/
def openCheck (f : FuseSt) (serial : Nat) (fr : Frame) (d : Dev) : Dev :=
  let s := getSess d fr.session
  let slot := byteAt fr.data 0
  if s.isOpen && !(s.warrant == slot && s.ctl == d.i3c.activeCtl) then refuse 4 fr.seq d
  else if 16 ≤ slot ∨ !warrantUsable f slot then refuse 2 fr.seq d
  else if fr.mac ≠ frameMac (warrantKey f slot) 0 fr.seq fr.body then refuse 2 fr.seq (authFail (i3cCnt 2 d))
  else acceptOpen f serial fr d

/-- A retry (R364 step 6): the cached response under the same counter, or the one that is still to come. (DEDUCED, log 93.) -/
def frameRetry (fr : Frame) (d : Dev) : Dev :=
  let s := getSess d fr.session
  let d1 := i3cCnt 5 (authPass d)
  if d.i3c.waits.any (fun w => w.serial == s.lastFrame) then setResp (.waiting s.lastFrame true) d1
  else setResp (.ready (sealResp (some (s.key, s.count)) (cachedBody s.cached))) d1

/-- A new frame that passed every check (R364 step 6). -/
def frameRun (f : FuseSt) (serial : Nat) (fr : Frame) (d : Dev) : Dev :=
  let s := getSess d fr.session
  let w : FrameWait := { serial := serial, session := fr.session, key := s.key, counter := (s.count + 1) % 2 ^ 32, seq := fr.seq }
  let d1 := beginFrame w (updSess fr.session (fun s => { s with count := (s.count + 1) % 2 ^ 32 }) (authPass d))
  match fr.code with
  | 1 => frameRead f w fr d1
  | 2 => frameWrite f w fr d1
  | _ => frameClose w d1

/-- The checks of a request other than OPEN (R364), after its form. -/
def frameCheck (f : FuseSt) (serial : Nat) (fr : Frame) (d : Dev) : Dev :=
  let s := getSess d fr.session
  let isNew : Bool := fr.seq == (s.count + 1) % 256
  let c := if isNew then (s.count + 1) % 2 ^ 32 else s.count
  if !s.isOpen then refuse 4 fr.seq d
  else if s.ctl ≠ d.i3c.activeCtl then refuse 9 fr.seq d
  else if !isNew && fr.seq != s.count % 256 then refuse 3 fr.seq (authFail (i3cCnt 3 d))
  else if fr.mac ≠ frameMac s.key 0 c fr.body then refuse 2 fr.seq (authFail (i3cCnt 2 d))
  else if isNew then frameRun f serial fr d
  else frameRetry fr d

/-- A private write (R359, R360, R364): its response replaces the one that the target holds. -/
def privateWrite (f : FuseSt) (bs : List Byte) (d : Dev) : Dev :=
  let serial := d.i3c.frames + 1
  let d1 := busBytes bs.length (hubUc 184 1 (updI3c (fun x => { x with frames := serial }) d))
  match parseFrame bs with
  | .error st => refuse st (byteAt bs 1) (i3cCnt 1 d1)
  | .ok fr => if fr.code = 3 then openCheck f serial fr d1 else frameCheck f serial fr d1

/-- The row that a private write is: the code of a write with the byte count of a frame, and 0 for any other. -/
def frameKind (bs : List Byte) : Nat :=
  let c := byteAt bs 0 % 16
  if bs.length < 14 ∨ bs.length ≠ 14 + frameDataLen bs ∨ 4 < c then 0 else c

/-- A private write of one row's kind. -/
def frameCommand (k : Nat) (bs : List Byte) (s : State) : Out State :=
  onDev (fun d => guardDev (i3cHears d && frameKind bs == k) (privateWrite s.fuse bs) d) s

/-- A private read (R359, R361). -/
def privateRead (d : Dev) : Dev :=
  match d.i3c.resp with
  | .empty =>
    let r := sealResp none (respBody 0x0A 0 0 [])
    busBytes r.length (i3cSend r d)
  | .ready r => busBytes r.length (i3cSend r d)
  | .waiting _ _ => d

/-- The READs that waited for a record read to end (R373). (DEDUCED, log 18.) -/
def resumeReads (f : FuseSt) (d : Dev) : Dev :=
  if d.log.read.isSome then d
  else d.i3c.waits.foldl (fun d w => match w.read with
    | some (a, n) => doRead f { w with read := none } a n d
    | none => d) d

/-! ### Commits (R368) -/

/-- A frame's record has committed: the response is complete with its last. -/
def frameCommitted (serial seq : Nat) (d : Dev) : Dev :=
  match d.i3c.waits.find? (fun w => w.serial == serial) with
  | none => d
  | some w =>
    let w1 := { w with left := w.left - 1, last := if w.closes || !w.data.isEmpty then 0 else seq % 2 ^ 32 }
    if w1.left = 0 then finishFrame w1 d
    else updI3c (fun x => { x with waits := x.waits.map (fun y => if y.serial = serial then w1 else y) }) d

/-- A request as it stands when it commits (R370): the old value read immediately before, and what a push sends. -/
def atCommit (d : Dev) (r : ChangeReq) : ChangeReq :=
  match r.act with
  | .write o a v _ =>
    match cciCmdUnit a with
    | some n => { r with extra := BitVec.ofNat 64 (cciTx d n), act := .write o a v (BitVec.ofNat 64 (cciTx d n)) }
    | none => if r.kind = 1 then { r with old := readReg d a } else r
  | _ => r

/-- What takes effect with a record. (DEDUCED, log 95.) -/
def applyChange (f : FuseSt) (r : ChangeReq) (d : Dev) : Dev :=
  match r.act with
  | .none => d
  | .write o a v x => writeEffect f o a v x.toNat 0 d
  | .release p => releasePlane p d
  | .install => installBegin d
  | .failover => failoverAt d
  | .clockReturn => returnAt d
  | .openSession o =>
    hubUc 188 1 (updSess o.s (fun s =>
      { s with isOpen := true, warrant := o.warrant, ctl := o.ctl, count := o.count, key := o.key, lastFrame := r.frame.getD 0, cached := [] }) d)
  | .closeSession s =>
    hubUc 189 (b2n (getSess d s).isOpen) (updSess s (fun x =>
      { x with isOpen := false, warrant := 0, ctl := 0, key := [], cached := [], lastFrame := 0 }) d)
  | .security op => applySec f op d

/-- A release whose plane is referred to again is dropped (R49), a return once FORCE_INT is 1 (R383), and the record of
a firmware whose load was aborted (R418). -/
def dropped (d : Dev) (r : ChangeReq) : Bool :=
  match r.act with
  | .release p => !planeFree d p
  | .clockReturn => forceInt d
  | .security (.fwValid _) => getF d .sec 0 0x24 0 3 != 2
  | _ => false

/-- A plane's release is no longer asked for. -/
def forgetRelease (r : ChangeReq) (d : Dev) : Dev :=
  match r.act with
  | .release p => { d with cfg := { d.cfg with releasing := d.cfg.releasing.filter (· != p) } }
  | _ => d

/-- LOG_COMMIT (R368): the oldest request that holds a slot commits 125 DT after it was made, one every 2 DT; the firmware commits nothing before the
hold-up store is full (R451). (DESIGN CHOICE, log 4; DEDUCED, log 13.) -/
def logCommit (f : FuseSt) (d : Dev) : Dev :=
  match takeFirst (fun r : ChangeReq => r.slot) d.log.reqs with
  | none => d
  | some (r0, rest) =>
    if !d.pow.hubUp ∨ d.dt < r0.at_ + 125 ∨ d.dt < d.log.nextAt ∨ ((r0.cls = 0 ∨ r0.cls = 2) ∧ !d.pow.storeFull) then d
    else if dropped d r0 then forgetRelease r0 (updLog (fun l => { l with reqs := rest }) d)
    else
      let r := atCommit d r0
      let d1 := appendRecord r (updLog (fun l => { l with reqs := rest, nextAt := d.dt + 2 }) d)
      let d2 := applyChange f r d1
      match r.frame with
      | some n => frameCommitted n d.log.next d2
      | none => d2

/-! ### CCCs (R356-R358) -/

/-- A direct CCC answered. (PRESUMED, log 91.) -/
def cccAnswer (bs : List Byte) (d : Dev) : Dev := hubUc 190 1 (i3cSend bs d)

/-- A CCC that the target follows in SDR. -/
def cccHeard (d : Dev) : Bool := i3cUp d && d.i3c.hdr == .sdr

/-- A direct CCC to the target's address. -/
def cccDirect (d : Dev) : Bool := cccHeard d && d.i3c.da.isSome

/-- ENEC and DISEC: bit 0 of the event byte is the interrupt request, bit 3 hot-join (MIPI I3C; PRESUMED). (PRESUMED, log 91.) -/
def setEvents (on : Bool) (ev : Byte) (d : Dev) : Dev :=
  updI3c (fun x => { x with ibiOn := if bit ev.toNat 0 then on else x.ibiOn, hjOn := if bit ev.toNat 3 then on else x.hjOn }) d

/-- The target reset (R358). -/
def targetReset (d : Dev) : Dev :=
  let d1 := closeSessions (fun s => s.isOpen) d
  setR .i3c 0 0x10 0 (updI3c (fun x =>
    { x with resp := .empty, waits := [], ibiOn := true, hjOn := true, rstact := none, ibiDue := false, ibiOut := none, ibiRetryAt := none
             ibiAcked := none }) d1)

/-- ENTHDRn: the mode is followed where its enable is set (R356, R375). (PRESUMED, log 91.) -/
def enterHdr (m : HdrMode) (en : Nat) (d : Dev) : Dev :=
  updI3c (fun x => { x with hdr := if getF d .i3c 0 0 en 1 = 1 then m else .other }) d

/-- A CCC that the target does not support: a direct one is NACKed, a broadcast one ignored; ENTHDR1, 2 and 4 to 7 (MIPI I3C codes 0x21 to 0x27;
PRESUMED) leave the target silent until the HDR exit pattern. -/
def unsupportedCcc (direct : Bool) (code : Byte) (d : Dev) : Dev :=
  guardDev (!direct && decide (0x21 ≤ code.toNat) && decide (code.toNat ≤ 0x27) && code.toNat != 0x23) (updI3c (fun x => { x with hdr := .other })) d

/-! ### In-band interrupts (R367) -/

/-- IBI_REQUEST: the mandatory byte names the lowest bit that is set and enabled. -/
def ibiSend (d : Dev) : Dev :=
  match lowestBit (ibiBits d) 0 13 with
  | some k => updI3c (fun x => { x with ibiDue := false, ibiOut := some k, ibiRetryAt := none, ibiSent := k :: x.ibiSent }) d
  | none => updI3c (fun x => { x with ibiDue := false, ibiOut := none, ibiRetryAt := none }) d

/-- (DEDUCED, log 94.) -/
def ibiRequest (d : Dev) : Dev :=
  guardDev (cccDirect d && d.i3c.ibiDue && d.i3c.ibiOn && d.i3c.ibiOut.isNone) ibiSend d

/-- IBI_ACK: no new IBI until the host clears the bit that it named. (DEDUCED, log 94.) -/
def ibiAck (d : Dev) : Dev :=
  match d.i3c.ibiOut with
  | none => d
  | some k =>
    let still := bit (getR d .i3c 0 0x10).toNat k
    hubUc 187 1 (updI3c (fun x =>
      { x with ibiOut := none, ibiRetryAt := none, ibiAcked := if still then some k else none
               ibiDue := !still && decide (ibiBits d ≠ 0) }) d)

/-- IBI_NACK: it stays outstanding, and is requested again after IBI_RETRY DT. -/
def ibiNack (d : Dev) : Dev :=
  guardDev (d.i3c.ibiOut.isSome && d.i3c.ibiRetryAt.isNone)
    (fun d => i3cCnt 7 (updI3c (fun x => { x with ibiRetryAt := some (d.dt + getF d .i3c 0 0x1C 0 24) }) d)) d

/-- IBI_RETRY. -/
def ibiRetry (d : Dev) : Dev :=
  match d.i3c.ibiRetryAt with
  | some t => guardDev (cccDirect d && d.i3c.ibiOn && decide (t ≤ d.dt)) ibiSend d
  | none => d

/-! ### The commands -/

/-- I3C_READ (R362). -/
def execI3cRead (bytes : List Byte) (s : State) : Out State := frameCommand 1 bytes s

/-- I3C_WRITE (R362). -/
def execI3cWrite (bytes : List Byte) (s : State) : Out State := frameCommand 2 bytes s

/-- I3C_OPEN (R363). -/
def execI3cOpen (bytes : List Byte) (s : State) : Out State := frameCommand 3 bytes s

/-- I3C_CLOSE (R363). -/
def execI3cClose (bytes : List Byte) (s : State) : Out State := frameCommand 4 bytes s

/-- I3C_MALFORMED_FRAME (R360). -/
def execI3cMalformedFrame (bytes : List Byte) (s : State) : Out State := frameCommand 0 bytes s

/-- I3C_PRIVATE_READ (R361). -/
def execI3cPrivateRead (s : State) : Out State := onDev (fun d => guardDev (i3cHears d) privateRead d) s

/-- ENTDAA (R356): a target without an address takes one. -/
def execEntdaa (addr : BitVec 7) (s : State) : Out State :=
  onDev (fun d => guardDev (cccHeard d && d.i3c.da.isNone) (fun d => hubUc 191 1 (updI3c (fun x => { x with da := some addr.toNat }) d)) d) s

/-- RSTDAA (R356). -/
def execRstdaa (s : State) : Out State := onDev (fun d => guardDev (cccHeard d) (updI3c (fun x => { x with da := none })) d) s

/-- SETNEWDA (R356). -/
def execSetnewda (addr : BitVec 7) (s : State) : Out State :=
  onDev (fun d => guardDev (cccDirect d) (fun d => hubUc 190 1 (updI3c (fun x => { x with da := some addr.toNat }) d)) d) s

/-- ENEC (R358). -/
def execEnec (events : Byte) (s : State) : Out State := onDev (fun d => guardDev (cccHeard d) (setEvents true events) d) s

/-- DISEC (R358). -/
def execDisec (events : Byte) (s : State) : Out State := onDev (fun d => guardDev (cccHeard d) (setEvents false events) d) s

/-- DEFTGTS (R357): the first entry's address. -/
def execDeftgts (first : BitVec 7) (s : State) : Out State :=
  onDev (fun d => guardDev (cccHeard d) (updI3c (fun x => { x with activeCtl := first.toNat })) d) s

/-- GETACCCR (R357): acknowledged by its target with a correct address parity. -/
def execGetacccr (target : BitVec 7) (acknowledged : Bool) (s : State) : Out State :=
  onDev (fun d => guardDev (cccHeard d && acknowledged) (updI3c (fun x => { x with activeCtl := target.toNat })) d) s

/-- RSTACT (R358): actions other than 0 and 1 are ignored. -/
def execRstact (direct : Bool) (action : Byte) (s : State) : Out State :=
  onDev (fun d => guardDev (cccHeard d && (!direct || d.i3c.da.isSome) && decide (action.toNat ≤ 1))
    (fun d => hubUc 190 (b2n direct) (updI3c (fun x => { x with rstact := some action.toNat }) d)) d) s

/-- TARGET_RESET_PATTERN (R358). -/
def execTargetResetPattern (s : State) : Out State := onDev (fun d => guardDev (i3cUp d) targetReset d) s

/-- ENTHDR0 (R356). -/
def execEnthdr0 (s : State) : Out State := onDev (fun d => guardDev (cccHeard d) (enterHdr .ddr 2) d) s

/-- ENTHDR3 (R356). -/
def execEnthdr3 (s : State) : Out State := onDev (fun d => guardDev (cccHeard d) (enterHdr .bt 3) d) s

/-- HDR_EXIT (R356). -/
def execHdrExit (s : State) : Out State := onDev (fun d => guardDev (i3cUp d) (updI3c (fun x => { x with hdr := .sdr })) d) s

/-- SETMWL (R356). -/
def execSetmwl (direct : Bool) (len : W16) (s : State) : Out State :=
  onDev (fun d => guardDev (cccHeard d && (!direct || d.i3c.da.isSome)) (fun d =>
    hubUc 190 (b2n direct) (updI3c (fun x => { x with mwl := len.toNat }) d)) d) s

/-- SETMRL (R356). -/
def execSetmrl (direct : Bool) (len : W16) (s : State) : Out State :=
  onDev (fun d => guardDev (cccHeard d && (!direct || d.i3c.da.isSome)) (fun d =>
    hubUc 190 (b2n direct) (updI3c (fun x => { x with mrl := len.toNat }) d)) d) s

/-- GETPID (R356): six bytes, the most significant first. -/
def execGetpid (s : State) : Out State := onDev (fun d => guardDev (cccDirect d) (cccAnswer (beBytes 6 (fusePid s.fuse))) d) s

/-- GETBCR (R356). -/
def execGetbcr (s : State) : Out State := onDev (fun d => guardDev (cccDirect d) (cccAnswer [0x26#8]) d) s

/-- GETDCR (R356). -/
def execGetdcr (s : State) : Out State := onDev (fun d => guardDev (cccDirect d) (cccAnswer [0x00#8]) d) s

/-- GETSTATUS (R356): the spec states no content. -/
def execGetstatus (s : State) : Out State :=
  onDev (fun d => guardDev (cccDirect d) (fun d =>
    cccAnswer ((List.range 2).map (Config.cccByte 0x90 d.freeCount)) { d with freeCount := d.freeCount + 1 }) d) s

/-- GETMWL (R356). -/
def execGetmwl (s : State) : Out State := onDev (fun d => guardDev (cccDirect d) (cccAnswer (beBytes 2 d.i3c.mwl)) d) s

/-- GETMRL (R356). -/
def execGetmrl (s : State) : Out State := onDev (fun d => guardDev (cccDirect d) (cccAnswer (beBytes 2 d.i3c.mrl)) d) s

/-- GETCAPS (R356): the spec states no content. -/
def execGetcaps (s : State) : Out State :=
  onDev (fun d => guardDev (cccDirect d) (fun d =>
    cccAnswer ((List.range 4).map (Config.cccByte 0x95 d.freeCount)) { d with freeCount := d.freeCount + 1 }) d) s

/-- UNSUPPORTED_CCC (R356). -/
def execUnsupportedCcc (direct : Bool) (code : Byte) (s : State) : Out State :=
  onDev (fun d => guardDev (cccHeard d) (unsupportedCcc direct code) d) s

/-- I3C_BUS_ERROR (R359): whatever the error, its transfer has no effect but its count. -/
def execI3cBusError (kind : I3cError) (s : State) : Out State :=
  onDev (fun d => guardDev (i3cUp d && (kind != .crc || d.i3c.hdr != .sdr)) (i3cCnt 6) d) s

/-- IBI_REQUEST (R367). -/
def execIbiRequest (s : State) : Out State := onDev ibiRequest s

/-- IBI_ACK (R367). -/
def execIbiAck (s : State) : Out State := onDev (fun d => guardDev (i3cUp d && d.i3c.ibiRetryAt.isNone) ibiAck d) s

/-- IBI_NACK (R367). -/
def execIbiNack (s : State) : Out State := onDev (fun d => guardDev (i3cUp d) ibiNack d) s

/-- IBI_RETRY (R367). -/
def execIbiRetry (s : State) : Out State := onDev ibiRetry s

/-- HOT_JOIN_REQUEST (R356). -/
def execHotJoinRequest (s : State) : Out State :=
  onDev (fun d => guardDev (cccHeard d && getF d .i3c 0 0 1 1 == 1 && d.i3c.hjOn && d.i3c.da.isNone)
    (updI3c (fun x => { x with hotJoins := x.hotJoins + 1 })) d) s

/-- LOG_COMMIT (R368). -/
def execLogCommit (s : State) : Out State := onDev (logCommit s.fuse) s

/-- LOG_READ_DONE (R373). -/
def execLogReadDone (ok : Bool) (s : State) : Out State := onDev (fun d => resumeReads s.fuse (readDone ok d)) s

end Sys2Proof.Machine
end

