-- ==== Sys2Proof/Machine/Dispatch.lean ====
section
/-! DEFINITION. Which meaning each command has: one arm per constructor of Instr. -/

namespace Sys2Proof.Machine

open Sys2Proof

def exec (i : Instr) (s : State) : Host.Outcome State Fault Refusal :=
  match i with
  | .loadStart by_ v => Sys2Proof.Machine.execLoadStart by_ v s
  | .loadAbort by_ v => Sys2Proof.Machine.execLoadAbort by_ v s
  | .loadDone by_ v => Sys2Proof.Machine.execLoadDone by_ v s
  | .loadReceiveEnd => Sys2Proof.Machine.execLoadReceiveEnd s
  | .loadValidationDone => Sys2Proof.Machine.execLoadValidationDone s
  | .loadInstallDone => Sys2Proof.Machine.execLoadInstallDone s
  | .loadNandStoreDone => Sys2Proof.Machine.execLoadNandStoreDone s
  | .switchCommit by_ v => Sys2Proof.Machine.execSwitchCommit by_ v s
  | .portEnable by_ port v => Sys2Proof.Machine.execPortEnable by_ port v s
  | .portDisable by_ port v => Sys2Proof.Machine.execPortDisable by_ port v s
  | .skewCalibration sequence => Sys2Proof.Machine.execSkewCalibration sequence s
  | .lossOfLock port => Sys2Proof.Machine.execLossOfLock port s
  | .phyLock port => Sys2Proof.Machine.execPhyLock port s
  | .slotEnable by_ stream v => Sys2Proof.Machine.execSlotEnable by_ stream v s
  | .slotDisable by_ stream v => Sys2Proof.Machine.execSlotDisable by_ stream v s
  | .frameStart port vc number health => Sys2Proof.Machine.execFrameStart port vc number health s
  | .frameEnd port vc health => Sys2Proof.Machine.execFrameEnd port vc health s
  | .longPacket port vc typ data health => Sys2Proof.Machine.execLongPacket port vc typ data health s
  | .embeddedData port vc data health => Sys2Proof.Machine.execEmbeddedData port vc data health s
  | .genericShortPacket port vc health => Sys2Proof.Machine.execGenericShortPacket port vc health s
  | .lineStartEnd port vc health => Sys2Proof.Machine.execLineStartEnd port vc health s
  | .nullBlankingPacket port vc health => Sys2Proof.Machine.execNullBlankingPacket port vc health s
  | .bulkFrameStart port start health => Sys2Proof.Machine.execBulkFrameStart port start health s
  | .bulkPacket port vc data health => Sys2Proof.Machine.execBulkPacket port vc data health s
  | .bulkFrameEnd port vc health => Sys2Proof.Machine.execBulkFrameEnd port vc health s
  | .syncWindowClose group => Sys2Proof.Machine.execSyncWindowClose group s
  | .groupNotice q => Sys2Proof.Machine.execGroupNotice q s
  | .cciEnable by_ ctl v => Sys2Proof.Machine.execCciEnable by_ ctl v s
  | .cciPush by_ ctl v => Sys2Proof.Machine.execCciPush by_ ctl v s
  | .cciTransferStart ctl => Sys2Proof.Machine.execCciTransferStart ctl s
  | .cciTransferDone ctl rx => Sys2Proof.Machine.execCciTransferDone ctl rx s
  | .cciNack ctl => Sys2Proof.Machine.execCciNack ctl s
  | .cciRetry ctl => Sys2Proof.Machine.execCciRetry ctl s
  | .cciStuckBus ctl => Sys2Proof.Machine.execCciStuckBus ctl s
  | .fsyncGeneratorEnable by_ gen v => Sys2Proof.Machine.execFsyncGeneratorEnable by_ gen v s
  | .fsyncOutEdge gen => Sys2Proof.Machine.execFsyncOutEdge gen s
  | .fsyncPulseEnd gen => Sys2Proof.Machine.execFsyncPulseEnd gen s
  | .fsyncInEdge falling pulse => Sys2Proof.Machine.execFsyncInEdge falling pulse s
  | .fsyncLost gen => Sys2Proof.Machine.execFsyncLost gen s
  | .ispLineStart pipe batch vx => Sys2Proof.Machine.execIspLineStart pipe batch vx s
  | .ispLineDone pipe vx => Sys2Proof.Machine.execIspLineDone pipe vx s
  | .ispStallResume pipe ctx => Sys2Proof.Machine.execIspStallResume pipe ctx s
  | .ispCommit by_ pipe ctx v => Sys2Proof.Machine.execIspCommit by_ pipe ctx v s
  | .visStart q k batch vx => Sys2Proof.Machine.execVisStart q k batch vx s
  | .visUnitStart q k dp vx => Sys2Proof.Machine.execVisUnitStart q k dp vx s
  | .pymTileRowDone q k vx => Sys2Proof.Machine.execPymTileRowDone q k vx s
  | .wrpTileRowDone q k vx => Sys2Proof.Machine.execWrpTileRowDone q k vx s
  | .visContextComplete q k ctx vx => Sys2Proof.Machine.execVisContextComplete q k ctx vx s
  | .visStop q k home vx => Sys2Proof.Machine.execVisStop q k home vx s
  | .steCoarseRowDone q vx => Sys2Proof.Machine.execSteCoarseRowDone q vx s
  | .steFineRowDone q vx => Sys2Proof.Machine.execSteFineRowDone q vx s
  | .flwBlockRowDone q vx => Sys2Proof.Machine.execFlwBlockRowDone q vx s
  | .flwPixelRowDone q vx => Sys2Proof.Machine.execFlwPixelRowDone q vx s
  | .firstPassEnd q flow ctx vx => Sys2Proof.Machine.execFirstPassEnd q flow ctx vx s
  | .visTruncate q k write vx => Sys2Proof.Machine.execVisTruncate q k write vx s
  | .truncatedRowWrite q flow ctx vx => Sys2Proof.Machine.execTruncatedRowWrite q flow ctx vx s
  | .grantArrival q k => Sys2Proof.Machine.execGrantArrival q k s
  | .refineTileStart q flow vx => Sys2Proof.Machine.execRefineTileStart q flow vx s
  | .refineTileWrite q flow vx => Sys2Proof.Machine.execRefineTileWrite q flow vx s
  | .refineEnd q k ctx vx => Sys2Proof.Machine.execRefineEnd q k ctx vx s
  | .refineNoGrantFree q k ctx vx => Sys2Proof.Machine.execRefineNoGrantFree q k ctx vx s
  | .feaDetectRowDone q k vx => Sys2Proof.Machine.execFeaDetectRowDone q k vx s
  | .feaListWrite q k vx => Sys2Proof.Machine.execFeaListWrite q k vx s
  | .feaIndexBuild q k vx => Sys2Proof.Machine.execFeaIndexBuild q k vx s
  | .feaMatchFeature q k vx => Sys2Proof.Machine.execFeaMatchFeature q k vx s
  | .feaTrackAssign q k ctx vx => Sys2Proof.Machine.execFeaTrackAssign q k ctx vx s
  | .feaRetryFeature q k vx => Sys2Proof.Machine.execFeaRetryFeature q k vx s
  | .fsNotice q batch vx => Sys2Proof.Machine.execFsNotice q batch vx s
  | .admissionDecision q vx => Sys2Proof.Machine.execAdmissionDecision q vx s
  | .reservationRelease q stream => Sys2Proof.Machine.execReservationRelease q stream s
  | .drvNop q vx => Sys2Proof.Machine.execDrvNop q vx s
  | .drvJoin q vx => Sys2Proof.Machine.execDrvJoin q vx s
  | .drvWaitany q vx => Sys2Proof.Machine.execDrvWaitany q vx s
  | .drvWaitdt q vx => Sys2Proof.Machine.execDrvWaitdt q vx s
  | .drvWaitdtExpiry q ctx => Sys2Proof.Machine.execDrvWaitdtExpiry q ctx s
  | .drvStart q vx => Sys2Proof.Machine.execDrvStart q vx s
  | .drvStartdma q vx => Sys2Proof.Machine.execDrvStartdma q vx s
  | .drvPost q vx => Sys2Proof.Machine.execDrvPost q vx s
  | .drvBr q vx => Sys2Proof.Machine.execDrvBr q vx s
  | .drvBrout q vx => Sys2Proof.Machine.execDrvBrout q vx s
  | .drvLds q vx => Sys2Proof.Machine.execDrvLds q vx s
  | .drvMovi q vx => Sys2Proof.Machine.execDrvMovi q vx s
  | .drvAddi q vx => Sys2Proof.Machine.execDrvAddi q vx s
  | .drvBrcmp q vx => Sys2Proof.Machine.execDrvBrcmp q vx s
  | .drvSlack q vx => Sys2Proof.Machine.execDrvSlack q vx s
  | .drvGrant q vx => Sys2Proof.Machine.execDrvGrant q vx s
  | .drvTrunc q vx => Sys2Proof.Machine.execDrvTrunc q vx s
  | .drvWreg q vx => Sys2Proof.Machine.execDrvWreg q vx s
  | .drvCommit q vx => Sys2Proof.Machine.execDrvCommit q vx s
  | .drvSignal q vx => Sys2Proof.Machine.execDrvSignal q vx s
  | .drvEmit q vx => Sys2Proof.Machine.execDrvEmit q vx s
  | .drvEmitDrainEnd q ctx => Sys2Proof.Machine.execDrvEmitDrainEnd q ctx s
  | .drvVoid q vx => Sys2Proof.Machine.execDrvVoid q vx s
  | .drvLink q vx => Sys2Proof.Machine.execDrvLink q vx s
  | .tagReport q => Sys2Proof.Machine.execTagReport q s
  | .deadlineVoid q ctx => Sys2Proof.Machine.execDeadlineVoid q ctx s
  | .drvAbort by_ q v => Sys2Proof.Machine.execDrvAbort by_ q v s
  | .scrubCycle q bank mx => Sys2Proof.Machine.execScrubCycle q bank mx s
  | .spdInitDone q => Sys2Proof.Machine.execSpdInitDone q s
  | .openPoolGrant q mx => Sys2Proof.Machine.execOpenPoolGrant q mx s
  | .spdInject by_ q v => Sys2Proof.Machine.execSpdInject by_ q v s
  | .spdInjectApply q mx => Sys2Proof.Machine.execSpdInjectApply q mx s
  | .regionReset by_ q r v => Sys2Proof.Machine.execRegionReset by_ q r v s
  | .foldStart q f mx => Sys2Proof.Machine.execFoldStart q f mx s
  | .foldRunBegin q f mx => Sys2Proof.Machine.execFoldRunBegin q f mx s
  | .foldUnit q f mx => Sys2Proof.Machine.execFoldUnit q f mx s
  | .foldCheckIn q f mx => Sys2Proof.Machine.execFoldCheckIn q f mx s
  | .foldCheckOut q f mx => Sys2Proof.Machine.execFoldCheckOut q f mx s
  | .foldCommit q f mx => Sys2Proof.Machine.execFoldCommit q f mx s
  | .foldCommitVisible q f mx => Sys2Proof.Machine.execFoldCommitVisible q f mx s
  | .foldRelease q f mx => Sys2Proof.Machine.execFoldRelease q f mx s
  | .foldHoldResume q f mx => Sys2Proof.Machine.execFoldHoldResume q f mx s
  | .foldConflict q f mx => Sys2Proof.Machine.execFoldConflict q f mx s
  | .foldGateOpen q f mx => Sys2Proof.Machine.execFoldGateOpen q f mx s
  | .foldStop by_ q f mx v => Sys2Proof.Machine.execFoldStop by_ q f mx v s
  | .foldVoidStop q f mx => Sys2Proof.Machine.execFoldVoidStop q f mx s
  | .foldRunEnd q f mx => Sys2Proof.Machine.execFoldRunEnd q f mx s
  | .dmaStart by_ ch v => Sys2Proof.Machine.execDmaStart by_ ch v s
  | .dmaAbort by_ ch v => Sys2Proof.Machine.execDmaAbort by_ ch v s
  | .dmaAbortNext by_ ch v => Sys2Proof.Machine.execDmaAbortNext by_ ch v s
  | .dmaVoidStop ch => Sys2Proof.Machine.execDmaVoidStop ch s
  | .dmaBurstIssue q vx => Sys2Proof.Machine.execDmaBurstIssue q vx s
  | .dmaReadReturn ch vx => Sys2Proof.Machine.execDmaReadReturn ch vx s
  | .dmaBurstAccept ch vx => Sys2Proof.Machine.execDmaBurstAccept ch vx s
  | .dmaNextActivate ch => Sys2Proof.Machine.execDmaNextActivate ch s
  | .translationWalkDone q vx => Sys2Proof.Machine.execTranslationWalkDone q vx s
  | .pteWrite by_ v => Sys2Proof.Machine.execPteWrite by_ v s
  | .pteRead by_ v => Sys2Proof.Machine.execPteRead by_ v s
  | .xltInvalidate by_ q v => Sys2Proof.Machine.execXltInvalidate by_ q v s
  | .dramRequestServe chan ready ecc vx => Sys2Proof.Machine.execDramRequestServe chan ready ecc vx s
  | .dramReservedSlot chan work ready ecc vx => Sys2Proof.Machine.execDramReservedSlot chan work ready ecc vx s
  | .patrolRead chan ecc => Sys2Proof.Machine.execPatrolRead chan ecc s
  | .zqCalibration chan => Sys2Proof.Machine.execZqCalibration chan s
  | .dqsOscillatorRead chan drift => Sys2Proof.Machine.execDqsOscillatorRead chan drift s
  | .imbalance q => Sys2Proof.Machine.execImbalance q s
  | .meLaunchStart me mx => Sys2Proof.Machine.execMeLaunchStart me mx s
  | .meLaunchBegin me ctx mx => Sys2Proof.Machine.execMeLaunchBegin me ctx mx s
  | .meCommandFetchReturn me ctx mx => Sys2Proof.Machine.execMeCommandFetchReturn me ctx mx s
  | .meNop me ctx mx => Sys2Proof.Machine.execMeNop me ctx mx s
  | .meCfg me ctx mx => Sys2Proof.Machine.execMeCfg me ctx mx s
  | .meLdw me ctx mx => Sys2Proof.Machine.execMeLdw me ctx mx s
  | .meMm me ctx mx => Sys2Proof.Machine.execMeMm me ctx mx s
  | .mePost me ctx mx => Sys2Proof.Machine.execMePost me ctx mx s
  | .meEltw me ctx mx => Sys2Proof.Machine.execMeEltw me ctx mx s
  | .meLdlut me ctx mx => Sys2Proof.Machine.execMeLdlut me ctx mx s
  | .meSeed me ctx mx => Sys2Proof.Machine.execMeSeed me ctx mx s
  | .meMask me ctx mx => Sys2Proof.Machine.execMeMask me ctx mx s
  | .meSetbase me ctx mx => Sys2Proof.Machine.execMeSetbase me ctx mx s
  | .meRwait me ctx mx => Sys2Proof.Machine.execMeRwait me ctx mx s
  | .meRspace me ctx mx => Sys2Proof.Machine.execMeRspace me ctx mx s
  | .meRrel me ctx mx => Sys2Proof.Machine.execMeRrel me ctx mx s
  | .meRcommit me ctx mx => Sys2Proof.Machine.execMeRcommit me ctx mx s
  | .meEnd me ctx mx => Sys2Proof.Machine.execMeEnd me ctx mx s
  | .meLoadComplete me ctx mx => Sys2Proof.Machine.execMeLoadComplete me ctx mx s
  | .meOutputRowVisible me ctx mx => Sys2Proof.Machine.execMeOutputRowVisible me ctx mx s
  | .meLaunchEnd me ctx mx => Sys2Proof.Machine.execMeLaunchEnd me ctx mx s
  | .meStop me write mx => Sys2Proof.Machine.execMeStop me write mx s
  | .gcInstruction gc mx => Sys2Proof.Machine.execGcInstruction gc mx s
  | .gcDramLoadReturn gc thread vx => Sys2Proof.Machine.execGcDramLoadReturn gc thread vx s
  | .gcIcacheRefill gc thread vx => Sys2Proof.Machine.execGcIcacheRefill gc thread vx s
  | .gcRspace gc mx => Sys2Proof.Machine.execGcRspace gc mx s
  | .gcRfill gc mx => Sys2Proof.Machine.execGcRfill gc mx s
  | .gcRcommit gc mx => Sys2Proof.Machine.execGcRcommit gc mx s
  | .gcRrel gc mx => Sys2Proof.Machine.execGcRrel gc mx s
  | .gcSrmv gc mx => Sys2Proof.Machine.execGcSrmv gc mx s
  | .gcTbr gc mx => Sys2Proof.Machine.execGcTbr gc mx s
  | .gcTbrdl gc mx => Sys2Proof.Machine.execGcTbrdl gc mx s
  | .gcSpost gc mx => Sys2Proof.Machine.execGcSpost gc mx s
  | .gcYield gc mx => Sys2Proof.Machine.execGcYield gc mx s
  | .gcWaitev gc mx => Sys2Proof.Machine.execGcWaitev gc mx s
  | .gcKrel gc mx => Sys2Proof.Machine.execGcKrel gc mx s
  | .gcCntr gc mx => Sys2Proof.Machine.execGcCntr gc mx s
  | .gcParkWake gc thread mx => Sys2Proof.Machine.execGcParkWake gc thread mx s
  | .gcWaitevTimeout gc thread mx => Sys2Proof.Machine.execGcWaitevTimeout gc thread mx s
  | .gcIinv by_ gc v => Sys2Proof.Machine.execGcIinv by_ gc v s
  | .gcSaveDone gc thread mx => Sys2Proof.Machine.execGcSaveDone gc thread mx s
  | .gcRestoreDone gc thread mx => Sys2Proof.Machine.execGcRestoreDone gc thread mx s
  | .shpPostAccept q batch vx => Sys2Proof.Machine.execShpPostAccept q batch vx s
  | .shpDispatch q vx => Sys2Proof.Machine.execShpDispatch q vx s
  | .shpSpillWrite q ring vx => Sys2Proof.Machine.execShpSpillWrite q ring vx s
  | .shpRefill q vx => Sys2Proof.Machine.execShpRefill q vx s
  | .paddockRelease q p vx => Sys2Proof.Machine.execPaddockRelease q p vx s
  | .paddockRefill q p vx => Sys2Proof.Machine.execPaddockRefill q p vx s
  | .hostGo by_ q v => Sys2Proof.Machine.execHostGo by_ q v s
  | .shpVoidNotice q => Sys2Proof.Machine.execShpVoidNotice q s
  | .txPortEnable by_ port v => Sys2Proof.Machine.execTxPortEnable by_ port v s
  | .txPacketSend port cycles => Sys2Proof.Machine.execTxPacketSend port cycles s
  | .txFrameClose port cycles => Sys2Proof.Machine.execTxFrameClose port cycles s
  | .txPeriodicCalibration port => Sys2Proof.Machine.execTxPeriodicCalibration port s
  | .peerFlitSlot link => Sys2Proof.Machine.execPeerFlitSlot link s
  | .peerIdle link seq ack => Sys2Proof.Machine.execPeerIdle link seq ack s
  | .peerHead link seq ack body => Sys2Proof.Machine.execPeerHead link seq ack body s
  | .peerData link seq ack body => Sys2Proof.Machine.execPeerData link seq ack body s
  | .peerNak link seq ack expected => Sys2Proof.Machine.execPeerNak link seq ack expected s
  | .peerCredit link seq ack window slots => Sys2Proof.Machine.execPeerCredit link seq ack window slots s
  | .peerRecord link seq ack window dest rec_ => Sys2Proof.Machine.execPeerRecord link seq ack window dest rec_ s
  | .peerAbort link seq ack job step module => Sys2Proof.Machine.execPeerAbort link seq ack job step module s
  | .peerLoadDone link seq ack window => Sys2Proof.Machine.execPeerLoadDone link seq ack window s
  | .peerHello link seq ack install module => Sys2Proof.Machine.execPeerHello link seq ack install module s
  | .peerReject link seq ack window offset => Sys2Proof.Machine.execPeerReject link seq ack window offset s
  | .peerBadFlit link flit => Sys2Proof.Machine.execPeerBadFlit link flit s
  | .peerLinkDown link => Sys2Proof.Machine.execPeerLinkDown link s
  | .peerRetrain by_ link v => Sys2Proof.Machine.execPeerRetrain by_ link v s
  | .peerTrainingDone link => Sys2Proof.Machine.execPeerTrainingDone link s
  | .i3cRead bytes => Sys2Proof.Machine.execI3cRead bytes s
  | .i3cWrite bytes => Sys2Proof.Machine.execI3cWrite bytes s
  | .i3cOpen bytes => Sys2Proof.Machine.execI3cOpen bytes s
  | .i3cClose bytes => Sys2Proof.Machine.execI3cClose bytes s
  | .i3cMalformedFrame bytes => Sys2Proof.Machine.execI3cMalformedFrame bytes s
  | .i3cPrivateRead => Sys2Proof.Machine.execI3cPrivateRead s
  | .entdaa addr => Sys2Proof.Machine.execEntdaa addr s
  | .rstdaa => Sys2Proof.Machine.execRstdaa s
  | .setnewda addr => Sys2Proof.Machine.execSetnewda addr s
  | .enec events => Sys2Proof.Machine.execEnec events s
  | .disec events => Sys2Proof.Machine.execDisec events s
  | .deftgts first => Sys2Proof.Machine.execDeftgts first s
  | .getacccr target acknowledged => Sys2Proof.Machine.execGetacccr target acknowledged s
  | .rstact direct action => Sys2Proof.Machine.execRstact direct action s
  | .targetResetPattern => Sys2Proof.Machine.execTargetResetPattern s
  | .enthdr0 => Sys2Proof.Machine.execEnthdr0 s
  | .enthdr3 => Sys2Proof.Machine.execEnthdr3 s
  | .hdrExit => Sys2Proof.Machine.execHdrExit s
  | .setmwl direct len => Sys2Proof.Machine.execSetmwl direct len s
  | .setmrl direct len => Sys2Proof.Machine.execSetmrl direct len s
  | .getpid => Sys2Proof.Machine.execGetpid s
  | .getbcr => Sys2Proof.Machine.execGetbcr s
  | .getdcr => Sys2Proof.Machine.execGetdcr s
  | .getstatus => Sys2Proof.Machine.execGetstatus s
  | .getmwl => Sys2Proof.Machine.execGetmwl s
  | .getmrl => Sys2Proof.Machine.execGetmrl s
  | .getcaps => Sys2Proof.Machine.execGetcaps s
  | .unsupportedCcc direct code => Sys2Proof.Machine.execUnsupportedCcc direct code s
  | .i3cBusError kind => Sys2Proof.Machine.execI3cBusError kind s
  | .ibiRequest => Sys2Proof.Machine.execIbiRequest s
  | .ibiAck => Sys2Proof.Machine.execIbiAck s
  | .ibiNack => Sys2Proof.Machine.execIbiNack s
  | .ibiRetry => Sys2Proof.Machine.execIbiRetry s
  | .hotJoinRequest => Sys2Proof.Machine.execHotJoinRequest s
  | .evsumClear by_ v => Sys2Proof.Machine.execEvsumClear by_ v s
  | .sessionClose by_ session v => Sys2Proof.Machine.execSessionClose by_ session v s
  | .logCommit => Sys2Proof.Machine.execLogCommit s
  | .logPageFlush => Sys2Proof.Machine.execLogPageFlush s
  | .logPageProgrammed ok => Sys2Proof.Machine.execLogPageProgrammed ok s
  | .logRead by_ v => Sys2Proof.Machine.execLogRead by_ v s
  | .logReadDone ok => Sys2Proof.Machine.execLogReadDone ok s
  | .logMirrorWrite ecc => Sys2Proof.Machine.execLogMirrorWrite ecc s
  | .monitorWindowEnd count => Sys2Proof.Machine.execMonitorWindowEnd count s
  | .forceInt by_ v => Sys2Proof.Machine.execForceInt by_ v s
  | .rampStep domain => Sys2Proof.Machine.execRampStep domain s
  | .holdoverEnd => Sys2Proof.Machine.execHoldoverEnd s
  | .rootPllLock => Sys2Proof.Machine.execRootPllLock s
  | .dtTick => Sys2Proof.Machine.execDtTick s
  | .idleEntry => Sys2Proof.Machine.execIdleEntry s
  | .powerTargetWrite by_ v => Sys2Proof.Machine.execPowerTargetWrite by_ v s
  | .fallowEntry => Sys2Proof.Machine.execFallowEntry s
  | .wake source => Sys2Proof.Machine.execWake source s
  | .wakeTimer => Sys2Proof.Machine.execWakeTimer s
  | .wakeRetry v48 inlet hub => Sys2Proof.Machine.execWakeRetry v48 inlet hub s
  | .standbyPowerValid => Sys2Proof.Machine.execStandbyPowerValid s
  | .hubPowerUp mv => Sys2Proof.Machine.execHubPowerUp mv s
  | .powerFail cause => Sys2Proof.Machine.execPowerFail cause s
  | .dieGating => Sys2Proof.Machine.execDieGating s
  | .holdUpEnd => Sys2Proof.Machine.execHoldUpEnd s
  | .watchdogExpiry => Sys2Proof.Machine.execWatchdogExpiry s
  | .firmwareRestartDone => Sys2Proof.Machine.execFirmwareRestartDone s
  | .intoscRetrim up => Sys2Proof.Machine.execIntoscRetrim up s
  | .marginRead m0 m1 m2 m3 => Sys2Proof.Machine.execMarginRead m0 m1 m2 m3 s
  | .telemetryRecord r ecc => Sys2Proof.Machine.execTelemetryRecord r ecc s
  | .thermalSample inlet hub die0 die1 die2 die3 => Sys2Proof.Machine.execThermalSample inlet hub die0 die1 die2 die3 s
  | .fuseProg by_ v => Sys2Proof.Machine.execFuseProg by_ v s
  | .fuseBitProgrammed => Sys2Proof.Machine.execFuseBitProgrammed s
  | .fwLoadStart by_ v => Sys2Proof.Machine.execFwLoadStart by_ v s
  | .fwLoadAbort by_ v => Sys2Proof.Machine.execFwLoadAbort by_ v s
  | .fwVerifyDone => Sys2Proof.Machine.execFwVerifyDone s
  | .fwActivate by_ v => Sys2Proof.Machine.execFwActivate by_ v s
  | .rollbackAdvance by_ v => Sys2Proof.Machine.execRollbackAdvance by_ v s
  | .revoke by_ v => Sys2Proof.Machine.execRevoke by_ v s
  | .dbgChal by_ v => Sys2Proof.Machine.execDbgChal by_ v s
  | .dbgSubmit by_ v => Sys2Proof.Machine.execDbgSubmit by_ v s
  | .dbgRelock by_ v => Sys2Proof.Machine.execDbgRelock by_ v s
  | .dbgLock by_ v => Sys2Proof.Machine.execDbgLock by_ v s
  | .dbgSeal by_ v => Sys2Proof.Machine.execDbgSeal by_ v s
  | .unlockExpiry => Sys2Proof.Machine.execUnlockExpiry s
  | .challengeExpiry => Sys2Proof.Machine.execChallengeExpiry s
  | .attGo by_ v => Sys2Proof.Machine.execAttGo by_ v s
  | .attReportReady => Sys2Proof.Machine.execAttReportReady s
  | .pmuSnap block by_ v => Sys2Proof.Machine.execPmuSnap block by_ v s
  | .sampleRecordWrite q vx => Sys2Proof.Machine.execSampleRecordWrite q vx s
  | .registerWrite by_ addr v mx => Sys2Proof.Machine.execRegisterWrite by_ addr v mx s
  | .refclkStop => Sys2Proof.Machine.execRefclkStop s
  | .latchedPairRead by_ addr => Sys2Proof.Machine.execLatchedPairRead by_ addr s
  | .holdUpStoreFull => Sys2Proof.Machine.execHoldUpStoreFull s
  | .memoryTrainingDone q => Sys2Proof.Machine.execMemoryTrainingDone q s
  | .cciInBandInterrupt ctl => Sys2Proof.Machine.execCciInBandInterrupt ctl s

end Sys2Proof.Machine
end

