-- ==== Sys2Proof/Safety.lean ====
section
/-! DEFINITION. What a safe run is, in the terms that statements use: no step stops, memories stay in canonical form, fuse bits
only become set, and what a step leaves alone. -/

namespace Sys2Proof.Machine

/-- The memories and the fuse array are in canonical form: addresses strictly rising, no byte listed that an unlisted address reads as. (DESIGN CHOICE, log 8.) -/
def Memory.wf (s : State) : Bool :=
  mapWf (fun _ => 0#8) s.dev.mem.dram && mapWf (fun _ => 0#8) s.dev.mem.spad && mapWf (fun _ => 0#8) s.fuse.bytes

/-- The state from which a step goes on to another state. -/
def Safe (s : State) : Prop := ∃ t, step s = .next t

/-- Every fuse bit that is programmed in one array is programmed in the other (R412). -/
def FuseLe (f g : FuseSt) : Prop := ∀ a, fuseByte f a &&& fuseByte g a = fuseByte f a

/-- Every scratchpad byte of every quadrant reads as before. -/
def SameSpad (d e : Dev) : Prop := ∀ q a, spadByte e q a = spadByte d q a

/-- Every DRAM byte reads as before. -/
def SameDram (d e : Dev) : Prop := ∀ a, dramByte e a = dramByte d a

/-- Every stored register but those at some control addresses holds what it held. -/
def SameRegsBut (as : List Nat) (d e : Dev) : Prop := ∀ a, a ∉ as → regRaw e a = regRaw d a

/-- Every counter but those at some control addresses holds what it held. -/
def SameCntsBut (as : List Nat) (d e : Dev) : Prop := ∀ a, a ∉ as → cntAt e a = cntAt d a

end Sys2Proof.Machine
end

