-- ==== Sys2Proof/WellFormed.lean ====
section
/-! DEFINITION. Commands that can happen: the checks on operands that the types of Syntax leave open. A meaning runs on any
operands; the checks say which commands the world can send. -/

namespace Sys2Proof

/-- A bit of a written value. -/
def setBit (v : W32) (k : Nat) : Bool := v.getLsbD k

/-- A register write that comes with the command, if any, sets the bit. -/
def writeSets (w : Option (WriteBy × W32)) (k : Nat) : Bool :=
  match w with
  | some (_, v) => setBit v k
  | none => true

/-- A byte of a frame, 0 past its end. -/
def frameByte (bytes : List Byte) (i : Nat) : Nat := (bytes.getD i 0).toNat

/-- Bytes of a request frame of a code: 14, and for WRITE and OPEN the data that its length field counts (R360). -/
def frameLength (code : Nat) (bytes : List Byte) : Nat :=
  if code = 2 ∨ code = 3 then 14 + frameByte bytes 6 + 256 * frameByte bytes 7 else 14

/-- A private write is a whole frame of a code, with its reserved bits 0 (R360). -/
def wholeFrame (code : Nat) (bytes : List Byte) : Bool :=
  decide (14 ≤ bytes.length) && bytes.length == frameLength code bytes && frameByte bytes 0 % 16 == code && decide (frameByte bytes 0 < 64)
    && decide (frameByte bytes 6 + 256 * frameByte bytes 7 ≤ 256)

/-- A command that can happen. -/
def Instr.wellFormed : Instr → Bool
  | .loadStart _ v => setBit v 0
  | .loadAbort _ v => setBit v 1
  | .loadDone _ v => setBit v 2
  | .loadReceiveEnd => true
  | .loadValidationDone => true
  | .loadInstallDone => true
  | .loadNandStoreDone => true
  | .switchCommit _ v => setBit v 0
  | .portEnable _ _ v => setBit v 0
  | .portDisable _ _ v => !setBit v 0
  | .skewCalibration _ => true
  | .lossOfLock _ => true
  | .phyLock _ => true
  | .slotEnable _ _ v => setBit v 0
  | .slotDisable _ _ v => !setBit v 0
  | .frameStart _ _ _ _ => true
  | .frameEnd _ _ _ => true
  | .longPacket _ _ _ data _ => decide (data.length ≤ 65535)
  | .embeddedData _ _ data _ => decide (data.length ≤ 65535)
  | .genericShortPacket _ _ _ => true
  | .lineStartEnd _ _ _ => true
  | .nullBlankingPacket _ _ _ => true
  | .bulkFrameStart _ _ _ => true
  | .bulkPacket _ _ data _ => decide (data.length ≤ 65535)
  | .bulkFrameEnd _ _ _ => true
  | .syncWindowClose _ => true
  | .groupNotice _ => true
  | .cciEnable _ _ v => setBit v 0
  | .cciPush _ _ v => setBit v 31
  | .cciTransferStart _ => true
  | .cciTransferDone _ rx => decide (rx.length ≤ 8)
  | .cciNack _ => true
  | .cciRetry _ => true
  | .cciStuckBus _ => true
  | .fsyncGeneratorEnable _ _ v => setBit v 0
  | .fsyncOutEdge _ => true
  | .fsyncPulseEnd _ => true
  | .fsyncInEdge _ _ => true
  | .fsyncLost _ => true
  | .ispLineStart _ _ _ => true
  | .ispLineDone _ _ => true
  | .ispStallResume _ _ => true
  | .ispCommit _ _ _ v => setBit v 0
  | .visStart _ _ _ _ => true
  | .visUnitStart _ _ _ _ => true
  | .pymTileRowDone _ _ _ => true
  | .wrpTileRowDone _ _ _ => true
  | .visContextComplete _ _ _ _ => true
  | .visStop _ _ _ _ => true
  | .steCoarseRowDone _ _ => true
  | .steFineRowDone _ _ => true
  | .flwBlockRowDone _ _ => true
  | .flwPixelRowDone _ _ => true
  | .firstPassEnd _ _ _ _ => true
  | .visTruncate _ _ write _ => writeSets write 31
  | .truncatedRowWrite _ _ _ _ => true
  | .grantArrival _ _ => true
  | .refineTileStart _ _ _ => true
  | .refineTileWrite _ _ _ => true
  | .refineEnd _ _ _ _ => true
  | .refineNoGrantFree _ _ _ _ => true
  | .feaDetectRowDone _ _ _ => true
  | .feaListWrite _ _ _ => true
  | .feaIndexBuild _ _ _ => true
  | .feaMatchFeature _ _ _ => true
  | .feaTrackAssign _ _ _ _ => true
  | .feaRetryFeature _ _ _ => true
  | .fsNotice _ _ _ => true
  | .admissionDecision _ _ => true
  | .reservationRelease _ _ => true
  | .drvNop _ _ => true
  | .drvJoin _ _ => true
  | .drvWaitany _ _ => true
  | .drvWaitdt _ _ => true
  | .drvWaitdtExpiry _ _ => true
  | .drvStart _ _ => true
  | .drvStartdma _ _ => true
  | .drvPost _ _ => true
  | .drvBr _ _ => true
  | .drvBrout _ _ => true
  | .drvLds _ _ => true
  | .drvMovi _ _ => true
  | .drvAddi _ _ => true
  | .drvBrcmp _ _ => true
  | .drvSlack _ _ => true
  | .drvGrant _ _ => true
  | .drvTrunc _ _ => true
  | .drvWreg _ _ => true
  | .drvCommit _ _ => true
  | .drvSignal _ _ => true
  | .drvEmit _ _ => true
  | .drvEmitDrainEnd _ _ => true
  | .drvVoid _ _ => true
  | .drvLink _ _ => true
  | .tagReport _ => true
  | .deadlineVoid _ _ => true
  | .drvAbort _ _ v => setBit v 31
  | .scrubCycle _ _ _ => true
  | .spdInitDone _ => true
  | .openPoolGrant _ _ => true
  | .spdInject _ _ v => setBit v 31
  | .spdInjectApply _ _ => true
  | .regionReset _ _ _ v => setBit v 0
  | .foldStart _ _ _ => true
  | .foldRunBegin _ _ _ => true
  | .foldUnit _ _ _ => true
  | .foldCheckIn _ _ _ => true
  | .foldCheckOut _ _ _ => true
  | .foldCommit _ _ _ => true
  | .foldCommitVisible _ _ _ => true
  | .foldRelease _ _ _ => true
  | .foldHoldResume _ _ _ => true
  | .foldConflict _ _ _ => true
  | .foldGateOpen _ _ _ => true
  | .foldStop _ _ _ _ v => setBit v 0
  | .foldVoidStop _ _ _ => true
  | .foldRunEnd _ _ _ => true
  | .dmaStart by_ _ v => writeSets (by_.map (fun b => (b, v))) 0
  | .dmaAbort _ _ v => setBit v 1
  | .dmaAbortNext _ _ v => setBit v 2
  | .dmaVoidStop _ => true
  | .dmaBurstIssue _ _ => true
  | .dmaReadReturn _ _ => true
  | .dmaBurstAccept _ _ => true
  | .dmaNextActivate _ => true
  | .translationWalkDone _ _ => true
  | .pteWrite _ v => setBit v 0
  | .pteRead _ v => setBit v 1
  | .xltInvalidate _ _ v => setBit v 0
  | .dramRequestServe _ _ _ _ => true
  | .dramReservedSlot _ _ _ _ _ => true
  | .patrolRead _ _ => true
  | .zqCalibration _ => true
  | .dqsOscillatorRead _ _ => true
  | .imbalance _ => true
  | .meLaunchStart _ _ => true
  | .meLaunchBegin _ _ _ => true
  | .meCommandFetchReturn _ _ _ => true
  | .meNop _ _ _ => true
  | .meCfg _ _ _ => true
  | .meLdw _ _ _ => true
  | .meMm _ _ _ => true
  | .mePost _ _ _ => true
  | .meEltw _ _ _ => true
  | .meLdlut _ _ _ => true
  | .meSeed _ _ _ => true
  | .meMask _ _ _ => true
  | .meSetbase _ _ _ => true
  | .meRwait _ _ _ => true
  | .meRspace _ _ _ => true
  | .meRrel _ _ _ => true
  | .meRcommit _ _ _ => true
  | .meEnd _ _ _ => true
  | .meLoadComplete _ _ _ => true
  | .meOutputRowVisible _ _ _ => true
  | .meLaunchEnd _ _ _ => true
  | .meStop _ write _ => writeSets write 31
  | .gcInstruction _ _ => true
  | .gcDramLoadReturn _ _ _ => true
  | .gcIcacheRefill _ _ _ => true
  | .gcRspace _ _ => true
  | .gcRfill _ _ => true
  | .gcRcommit _ _ => true
  | .gcRrel _ _ => true
  | .gcSrmv _ _ => true
  | .gcTbr _ _ => true
  | .gcTbrdl _ _ => true
  | .gcSpost _ _ => true
  | .gcYield _ _ => true
  | .gcWaitev _ _ => true
  | .gcKrel _ _ => true
  | .gcCntr _ _ => true
  | .gcParkWake _ _ _ => true
  | .gcWaitevTimeout _ _ _ => true
  | .gcIinv _ _ v => setBit v 1
  | .gcSaveDone _ _ _ => true
  | .gcRestoreDone _ _ _ => true
  | .shpPostAccept _ _ _ => true
  | .shpDispatch _ _ => true
  | .shpSpillWrite _ _ _ => true
  | .shpRefill _ _ => true
  | .paddockRelease _ _ _ => true
  | .paddockRefill _ _ _ => true
  | .hostGo _ _ v => setBit v 31
  | .shpVoidNotice _ => true
  | .txPortEnable _ _ v => setBit v 0
  | .txPacketSend _ _ => true
  | .txFrameClose _ _ => true
  | .txPeriodicCalibration _ => true
  | .peerFlitSlot _ => true
  | .peerIdle _ _ _ => true
  | .peerHead _ _ _ body => body.length == 248
  | .peerData _ _ _ body => body.length == 248
  | .peerNak _ _ _ _ => true
  | .peerCredit _ _ _ _ _ => true
  | .peerRecord _ _ _ _ _ rec_ => rec_.length == 64
  | .peerAbort _ _ _ _ _ _ => true
  | .peerLoadDone _ _ _ _ => true
  | .peerHello _ _ _ _ _ => true
  | .peerReject _ _ _ _ _ => true
  | .peerBadFlit _ _ => true
  | .peerLinkDown _ => true
  | .peerRetrain _ _ v => setBit v 1
  | .peerTrainingDone _ => true
  | .i3cRead bytes => wholeFrame 1 bytes
  | .i3cWrite bytes => wholeFrame 2 bytes
  | .i3cOpen bytes => wholeFrame 3 bytes
  | .i3cClose bytes => wholeFrame 4 bytes
  | .i3cMalformedFrame bytes => [1, 2, 3, 4].all (fun c => !wholeFrame c bytes)
  | .i3cPrivateRead => true
  | .entdaa _ => true
  | .rstdaa => true
  | .setnewda _ => true
  | .enec _ => true
  | .disec _ => true
  | .deftgts _ => true
  | .getacccr _ _ => true
  | .rstact _ _ => true
  | .targetResetPattern => true
  | .enthdr0 => true
  | .enthdr3 => true
  | .hdrExit => true
  | .setmwl _ _ => true
  | .setmrl _ _ => true
  | .getpid => true
  | .getbcr => true
  | .getdcr => true
  | .getstatus => true
  | .getmwl => true
  | .getmrl => true
  | .getcaps => true
  | .unsupportedCcc _ _ => true
  | .i3cBusError _ => true
  | .ibiRequest => true
  | .ibiAck => true
  | .ibiNack => true
  | .ibiRetry => true
  | .hotJoinRequest => true
  | .evsumClear _ _ => true
  | .sessionClose _ _ v => setBit v 0
  | .logCommit => true
  | .logPageFlush => true
  | .logPageProgrammed _ => true
  | .logRead _ v => setBit v 0
  | .logReadDone _ => true
  | .logMirrorWrite _ => true
  | .monitorWindowEnd _ => true
  | .forceInt _ _ => true
  | .rampStep _ => true
  | .holdoverEnd => true
  | .rootPllLock => true
  | .dtTick => true
  | .idleEntry => true
  | .powerTargetWrite _ v => v.toNat % 8 == 1 || v.toNat % 8 == 2
  | .fallowEntry => true
  | .wake _ => true
  | .wakeTimer => true
  | .wakeRetry _ _ _ => true
  | .standbyPowerValid => true
  | .hubPowerUp _ => true
  | .powerFail _ => true
  | .dieGating => true
  | .holdUpEnd => true
  | .watchdogExpiry => true
  | .firmwareRestartDone => true
  | .intoscRetrim _ => true
  | .marginRead _ _ _ _ => true
  | .telemetryRecord _ _ => true
  | .thermalSample _ _ _ _ _ _ => true
  | .fuseProg _ v => setBit v 31
  | .fuseBitProgrammed => true
  | .fwLoadStart _ v => setBit v 0
  | .fwLoadAbort _ v => setBit v 1
  | .fwVerifyDone => true
  | .fwActivate _ v => setBit v 2
  | .rollbackAdvance _ v => setBit v 31
  | .revoke _ v => setBit v 31
  | .dbgChal _ v => setBit v 0
  | .dbgSubmit _ v => setBit v 1
  | .dbgRelock _ v => setBit v 2
  | .dbgLock _ v => setBit v 3
  | .dbgSeal _ v => setBit v 4
  | .unlockExpiry => true
  | .challengeExpiry => true
  | .attGo _ v => setBit v 0
  | .attReportReady => true
  | .pmuSnap _ _ v => setBit v 0
  | .sampleRecordWrite _ _ => true
  | .registerWrite _ addr _ _ => addr.toNat % 4 == 0
  | .refclkStop => true
  | .latchedPairRead _ addr => addr.toNat % 4 == 0
  | .holdUpStoreFull => true
  | .memoryTrainingDone _ => true
  | .cciInBandInterrupt _ => true

end Sys2Proof
end

