-- ==== Sys2Proof/Certificates/Slice0/Obligations.lean ====
section
/-! DEFINITION. Statements for the provers. Each names the numbered rules of spec/ that it formalises, or the log entry of a choice of
the model's. A docstring names the rules that a statement rests on; the statement says what its clauses say, not every sentence of each
rule. That a command whose conditions do not hold leaves the state as it is, and that commands carry a batch and a cycle, are the
model's choices (log 3 and 5). The names in Sys2Proof.Claims are the statements' own vocabulary. -/

namespace Sys2Proof.Claims

open Sys2Proof.Machine

/-- A register write of an origin takes effect in this step: it reaches the register, the log takes requests, and a journal slot is
free (R368, R371, R389, R423). -/
def writesNow (s : State) (b : WriteBy) (a : Nat) : Bool :=
  writeReaches s.dev (originOf s.dev b) a && !s.dev.log.sealing && slotFree s.dev

/-- The module when a write's effect begins: its access counted, its record in the journal where the write is logged, its digest item
where it is data of a frame (R74, R191, R368-R370). -/
def recorded (s : State) (b : WriteBy) (a : Nat) (v : W32) : Dev :=
  let o := originOf s.dev b
  let d := ctlAccess o.quad a s.dev
  if isLogged o a then appendRecord (writeReq d o a v) d else digestWrite o a v d

/-- What a register write with its record may change beside its register's own effect: counters, the log, the digest items of the
instance that writes. -/
def WriteFrame (s : State) (t : State) (e : Dev) : Prop :=
  t = { s with dev := { e with log := t.dev.log, cnts := t.dev.cnts, ctxs := t.dev.ctxs } }

end Sys2Proof.Claims

open Sys2Proof Sys2Proof.Machine Sys2Proof.Claims

namespace Sys2Proof.Claims

/-- A START fails at once (R41): SRC or DEST is 3, SRC 1 names a slot that is not an enabled bulk slot, or SRC 2 a window that no
plane in use declares as a load window. -/
def startRefused (d : Dev) (v : W32) : Bool :=
  let slot := getSlot d (16 * fld v 12 4 + fld v 16 4)
  fld v 4 2 == 3 || fld v 8 2 == 3 || (fld v 4 2 == 1 && !(slot.en && slot.kind == 1)) || (fld v 4 2 == 2 && !isLoadWindow d (fld v 20 6))

/-- The load that a START begins (R40). -/
def startedLoad (d : Dev) (v : W32) (target : Option Nat) : LoadSt :=
  { state := 1, src := fld v 4 2, dest := fld v 8 2, bank := fld v 6 1, rxp := fld v 12 4, vc := fld v 16 4, win := fld v 20 6
    target := target, bytes := if fld v 4 2 = 0 then bankBytes d (fld v 6 1) else [] }

/-- What a command of a load may change: the load's and the planes' fields, registers, counters, the log, digest items, EVSUM's IBI. -/
def LoadFrame (s t : State) : Prop :=
  t = { s with dev := { s.dev with cfg := t.dev.cfg, regs := t.dev.regs, cnts := t.dev.cnts, log := t.dev.log, ctxs := t.dev.ctxs
                                   i3c := t.dev.i3c } }

/-- The SWITCH_SEL entries that are valid. -/
def switchSel (d : Dev) : List W32 := ((List.range 16).map (fun n => getR d .cfg 0 (0x40 + 4 * n))).filter (fun w => fld w 17 1 == 1)

/-- A graph, and a fold as 16 * quadrant + fold, that a switch selects (R45, R51): one of the LOADED planes' images, with ALL or as an entry
of SWITCH_SEL names it. -/
def graphSelected (d : Dev) (all : Bool) (g : Nat) : Bool :=
  [0, 1].any (fun p => (planeOf d p).loaded && (imageGraphs (planeOf d p).sections).contains g)
    && (all || (switchSel d).any (fun w => fld w 16 1 == 0 && fld w 0 16 == g))
def foldSelected (d : Dev) (all : Bool) (f : Nat) : Bool :=
  [0, 1].any (fun p => (planeOf d p).loaded && (imageFolds (planeOf d p).sections).contains f)
    && (all || (switchSel d).any (fun w => fld w 16 1 == 1 && 16 * fld w 4 2 + fld w 0 4 == f))

/-- Where a graph or fold is, and where it is after it has moved to a plane at a DT (R46, R47). -/
def unitPlane (u : Nat) (l : List (Nat × UnitPlane)) : Option UnitPlane := (l.find? (fun e => e.1 == u)).map (·.2)
def movedUnit (u p dt : Nat) (l : List (Nat × UnitPlane)) : Option UnitPlane :=
  some { before := (match unitPlane u l with
                    | some x => x.now
                    | none => 1 - p), now := p, since := dt }

end Sys2Proof.Claims

/-- R40-R42, R417, R456: LOAD_START. A START while no load is in progress begins to receive from its source, for the plane that R40 chooses,
which stops being LOADED, or with DEST 1 for no plane; or it fails at once with code 17 or 15 and leaves every plane as it was. A START
while a load is in progress, or in recovery, is ignored.
LOAD_ABORT ends a load in progress with code 16, where it is not the boot's; LOAD_DONE ends the bytes of a peer-window load;
LOAD_RECEIVE_END begins validation; LOAD_NAND_STORE_DONE stores the image in its bank and ends a load that has nothing else to do. The model's readings in it: log 13, 19 and 23. -/
def Obligations.LoadsBeginAndGoOn : Prop :=
  (∀ (s : State) (b : WriteBy) (v : W32), writesNow s b loadCtlAddr = true → setBit v 0 = true → setBit v 1 = false → setBit v 2 = false →
    ∃ t, exec (.loadStart b v) s = .next t ∧ LoadFrame s t
      ∧ (loadBusy s.dev = true ∨ s.dev.sec.recovery = true → t.dev.cfg = s.dev.cfg)
      ∧ (loadBusy s.dev = false → s.dev.sec.recovery = false → startRefused s.dev v = true →
          t.dev.cfg.load.state = 5 ∧ getF t.dev .cfg 0 8 0 8 = 17 ∧ t.dev.cfg.planes = s.dev.cfg.planes)
      ∧ (loadBusy s.dev = false → s.dev.sec.recovery = false → startRefused s.dev v = false → fld v 8 2 = 1 →
          t.dev.cfg = { s.dev.cfg with load := startedLoad s.dev v none })
      ∧ (loadBusy s.dev = false → s.dev.sec.recovery = false → startRefused s.dev v = false → fld v 8 2 ≠ 1 → chooseTarget s.dev = none →
          t.dev.cfg.load.state = 5 ∧ getF t.dev .cfg 0 8 0 8 = 15 ∧ t.dev.cfg.planes = s.dev.cfg.planes)
      ∧ (∀ p, loadBusy s.dev = false → s.dev.sec.recovery = false → startRefused s.dev v = false → fld v 8 2 ≠ 1 →
          chooseTarget s.dev = some p →
          t.dev.cfg.load = startedLoad s.dev v (some p) ∧ getF t.dev .cfg 0 0 9 1 = p
          ∧ t.dev.cfg.planes = updAt (fun x => { x with loaded := false, slot := 0xFF }) p s.dev.cfg.planes))
  ∧ (∀ (s : State) (b : WriteBy) (v : W32), writesNow s b loadCtlAddr = true → setBit v 0 = false → setBit v 1 = true → setBit v 2 = false →
    loadBusy s.dev = true → s.dev.cfg.load.boot = none →
    ∃ t, exec (.loadAbort b v) s = .next t ∧ LoadFrame s t
      ∧ t.dev.cfg = { s.dev.cfg with load := { s.dev.cfg.load with state := 5, store := none } }
      ∧ getF t.dev .cfg 0 8 0 8 = 16 ∧ getF t.dev .cfg 0 8 16 8 = 0xFF)
  ∧ (∀ (s : State) (b : WriteBy) (v : W32), writesNow s b loadCtlAddr = true → setBit v 0 = false → setBit v 1 = false → setBit v 2 = true →
    s.dev.cfg.load.state = 1 → s.dev.cfg.load.src = 2 →
    ∃ t, exec (.loadDone b v) s = .next t ∧ LoadFrame s t ∧ t.dev.cfg = { s.dev.cfg with load := { s.dev.cfg.load with ended := true } })
  ∧ (∀ (s : State), s.dev.cfg.load.state = 1 → (s.dev.cfg.load.src = 0 ∨ s.dev.cfg.load.ended = true) →
    exec .loadReceiveEnd s =
      .next { s with dev := { s.dev with cfg := { s.dev.cfg with load := { s.dev.cfg.load with state := 2 } } } })
  ∧ (∀ (s : State) (k : Nat) (bytes : List Byte), s.dev.cfg.load.store = some (k, bytes) →
    (s.dev.cfg.load.state = 2 ∨ s.dev.cfg.load.state = 3) →
    ∃ t, exec .loadNandStoreDone s = .next t ∧ LoadFrame s t
      ∧ t.dev.cfg.nandImages = setAt k bytes s.dev.cfg.nandImages ∧ t.dev.cfg.load.store = none
      ∧ t.dev.cfg.load.state = (if s.dev.cfg.load.dest = 1 ∨ s.dev.cfg.load.installed = true then 4 else s.dev.cfg.load.state))

/-- R42, R43, R44: LOAD_VALIDATION_DONE. A fault found by validation ends the load with its code; a valid image for a free plane
requests its record of kind 0x0003 with the generation. LOAD_INSTALL_DONE: the target plane holds the image, and BOOT_FAIL clears. The model's readings in it: log 20, 22 and 23. -/
def Obligations.LoadValidatesAndInstalls : Prop :=
  (∀ (s : State), s.dev.cfg.load.state = 2 → s.dev.cfg.load.slot = 0xFF → s.dev.cfg.load.boot = none →
    let l := s.dev.cfg.load
    let w := validate s.fuse s.dev l.bytes l.dest l.target
    ∃ t, exec .loadValidationDone s = .next t ∧ LoadFrame s t
      ∧ (w.code ≠ 0 → w.code < 256 → t.dev.cfg.load.state = 5 ∧ getF t.dev .cfg 0 8 0 8 = w.code ∧ t.dev.log.reqs = s.dev.log.reqs)
      ∧ (∀ p, w.code = 0 → l.target = some p → planeBusy s.dev p = true →
          t.dev.cfg.load.state = 5 ∧ getF t.dev .cfg 0 8 0 8 = 15 ∧ t.dev.log.reqs = s.dev.log.reqs)
      ∧ (∀ p, w.code = 0 → l.target = some p → planeBusy s.dev p = false → s.dev.log.sealing = false → slotFree s.dev = true →
          t.dev.cfg.load.state = 2 ∧ t.dev.cfg.load.slot = w.slot
          ∧ ∃ r ∈ t.dev.log.reqs, r.kind = 0x0003 ∧ r.cls = 5 ∧ r.new = BitVec.ofNat 32 (field l.bytes 8 4) ∧ r.at_ = s.dev.dt))
  ∧ (∀ (s : State) (p : Nat), s.dev.cfg.load.state = 3 → s.dev.cfg.load.installed = false → s.dev.cfg.load.target = some p →
    p < s.dev.cfg.planes.length → fuseRollback s.fuse ≤ byteAt s.dev.cfg.load.bytes 0x20 →
    ∃ t, exec .loadInstallDone s = .next t ∧ t.fuse = s.fuse ∧ t.pending = s.pending
      ∧ (planeOf t.dev p).loaded = true ∧ (planeOf t.dev p).gen = field s.dev.cfg.load.bytes 8 4
      ∧ (planeOf t.dev p).sections = imageSects s.dev.cfg.load.bytes
      ∧ getF t.dev .cfg 0 0 10 1 = 0
      ∧ t.dev.cfg.load.installed = true
      ∧ t.dev.cfg.load.state = (if s.dev.cfg.load.store = none then 4 else 3))

/-- R45-R48: SWITCH_COMMIT. A target plane that is not LOADED gives SWITCH_ERR 1, one whose image names another predecessor SWITCH_ERR 2
except with ALL and CUTOVER, and either moves nothing; otherwise every selected graph and fold moves to the target plane at this DT,
which SWITCH_DT records, every other stays where it was, and with CUTOVER every live instance of a selected graph on the plane it left is
live no more. Selected are with ALL the graphs and folds of the LOADED planes' images, otherwise those of them that a valid SWITCH_SEL entry
names. Without CUTOVER instances go on: the switch writes no outcome record. The model's readings in it: log 21 and 120. -/
def Obligations.SwitchMovesUnits : Prop :=
  ∀ (s : State) (b : WriteBy) (v : W32), writesNow s b switchCtlAddr = true → setBit v 0 = true →
    let p := fld v 3 1
    let all := setBit v 2
    let cut := setBit v 1
    let o := planeOf s.dev (1 - p)
    let fits := (all && cut) || (planeOf s.dev p).pred == (if o.loaded then o.gen else 0)
    ∃ t, exec (.switchCommit b v) s = .next t ∧ t.fuse = s.fuse ∧ t.pending = s.pending ∧ t.dev.dt = s.dev.dt
      ∧ ((planeOf s.dev p).loaded = false → LoadFrame s t ∧ getF t.dev .cfg 0 0 12 2 = 1 ∧ t.dev.cfg = s.dev.cfg)
      ∧ ((planeOf s.dev p).loaded = true → fits = false → LoadFrame s t ∧ getF t.dev .cfg 0 0 12 2 = 2 ∧ t.dev.cfg = s.dev.cfg)
      ∧ ((planeOf s.dev p).loaded = true → fits = true →
          (∀ g, unitPlane g t.dev.cfg.graphs = if graphSelected s.dev all g then movedUnit g p s.dev.dt s.dev.cfg.graphs
            else unitPlane g s.dev.cfg.graphs)
          ∧ (∀ f, unitPlane f t.dev.cfg.folds = if foldSelected s.dev all f then movedUnit f p s.dev.dt s.dev.cfg.folds
            else unitPlane f s.dev.cfg.folds)
          ∧ t.dev.cfg.lastTarget = some p ∧ getPair t.dev .cfg 0 0x20 0x24 = s.dev.dt % 2 ^ 64
          ∧ (cut = false → t.dev.outcomes = s.dev.outcomes)
          ∧ (cut = true → ∀ i, instLive s.dev i = true → (getCtx s.dev i.q i.ctx).plane = 1 - p →
              graphSelected s.dev all (getCtx s.dev i.q i.ctx).gid = true → instLive t.dev i = false))


namespace Sys2Proof.Claims

/-- Beside the records of the change log, a command of camera ingress changes its own block, registers, counters and the I3C summary. -/
def PortFrame (s t : State) : Prop :=
  t = { s with dev := { s.dev with rx := t.dev.rx, regs := t.dev.regs, cnts := t.dev.cnts, log := t.dev.log, ctxs := t.dev.ctxs
                                   i3c := t.dev.i3c } }

/-- A packet with a good header is used by a slot: the port takes packets and the slot follows the channel (R56, R65). -/
def slotTakes (d : Dev) (n vc st : Nat) : Bool := portAccepts d n && slotOfVc d n vc == some st

/-- The frame lacks nothing that its close looks for: one exposure, all lines, a good one (R65, R66). -/
def frameClosesWhole (f : RxFrame) : Bool :=
  f.exps == 1 && f.ended.length == 3 && f.lines.getD 0 0 == f.height && f.joined.getD 0 false && (f.good.getD 0 none).isSome

/-- A single-exposure frame of a slot takes a line of a data type now (R55, R58, R65, R86). -/
def lineFits (d : Dev) (n st : Nat) (f : RxFrame) (typ : Nat) (data : List Byte) : Bool :=
  let x := getSlot d st
  x.kind == 0 && !x.discard && x.frame == some f && f.joined.getD 0 false && typ == f.typ && pixelType typ && f.exps == 1 && decide (f.lines.getD 0 0 < f.height)
    && f.lines.length == 3 && f.good.length == 3 && bufferFits d n data.length && data.length == lineBytes f.typ f.width

/-- The pipe has the frame and room for a line, and the line is not the one at which a statistics block is begun (R85, R86, R92). -/
def pipeHasRoom (d : Dev) (st : Nat) (f : RxFrame) : Bool :=
  (match ispFrameOf d (16 * f.pipe + st % 16) st f.index with
    | some x => x.exps == 1 && (x.fixed || x.f 0xA4 0 1 == 0)
    | none => false) && decide ((getIsp d (16 * f.pipe + st % 16)).buf.length < 8)

/-- The instance of a frame, live or sealed VOID in this DT, that a void of the frame reaches (R193). -/
def frameInst (d : Dev) (stream index : Nat) : Option InstRef :=
  (voidable d).find? (fun i => (getCtx d i.q i.ctx).stream == stream && (getCtx d i.q i.ctx).index == index)

/-- The streams of a group that have not joined its window, and the home quadrant of a stream's graph on the plane of its next Frame Start. -/
def absentMembers (d : Dev) (g : Nat) (w : SyncWin) : List Nat := (groupMembers d g).filter (fun m => !(w.joined.map (·.1)).contains m)
def memberHome (d : Dev) (m : Nat) : Option Nat :=
  let p := routePlane d m d.dt
  (findGraph (planeOf d p).sections (routeOf (planeOf d p).sections m).gid).map (·.home)

/-- The graph of an instance reads a stream: its own, or one that its programs name (R64). -/
def instReads (d : Dev) (i : InstRef) (m : Nat) : Bool :=
  let c := getCtx d i.q i.ctx
  m == c.stream || Config.graphReads c.gen c.gid m

/-- Of the members of a notice that an instance reads, one is absent; one's own instance has ended VOID or REFUSED. -/
def readsAbsent (d : Dev) (n : GroupNotice) (i : InstRef) : Bool := n.absent.any (instReads d i)
def readsEnded (d : Dev) (n : GroupNotice) (i : InstRef) : Bool :=
  (n.present.filter (fun e => instReads d i e.1)).any (fun e => d.outcomes.any (fun o => o.kind != 1 && o.stream == e.1 && o.index == e.2))

/-- A notice of a window for a Drover whose only live instance is of the member and frame that the notice names (R64). -/
def noticeFor (d : Dev) (q : Nat) (n : GroupNotice) (i : InstRef) : Bool :=
  let c := getCtx d i.q i.ctx
  n.ended == none && (liveInsts d).filter (fun i => i.q == q) == [i] && instLive d i && c.held && n.present.contains (c.stream, c.index)

end Sys2Proof.Claims

/-- R54, R65, R53: PORT_ENABLE latches PHY, LANES, RATE and LANE_MAP when the rate is allowed and otherwise leaves EN at 0;
PORT_DISABLE closes every open frame; SKEW_CALIBRATION of a kind that the port's PHY accepts sets DESKEW_DONE, and an initial one marks
the port calibrated; LOSS_OF_LOCK and PHY_LOCK move the port's status bits. The model's readings in it: log 29. -/
def Obligations.PortsEnableAndLock : Prop :=
  (∀ (s : State) (b : WriteBy) (port : Fin 16) (v : W32), writesNow s b (portCtlAddr port) = true → setBit v 0 = true →
    (getPort s.dev port).en = false →
    let rate := getF s.dev .rxp port 8 0 16
    ∃ t, exec (.portEnable b port v) s = .next t ∧ PortFrame s t
      ∧ (∀ n : Nat, n ≠ port → getPort t.dev n = getPort s.dev n)
      ∧ SameRegsBut [portCtlAddr port, addrOf .rxp port 0xC, addrOf .rxp port 0x10] s.dev t.dev
      ∧ (rateOk (setBit v 1) rate = false → getPort t.dev port = getPort s.dev port ∧ getF t.dev .rxp port 0 0 1 = 0)
      ∧ (rateOk (setBit v 1) rate = true →
          getPort t.dev port = { getPort s.dev port with en := true, calibrated := false, cphy := setBit v 1, lanes := fld v 2 2, rate := rate
                                                         laneMap := (getR s.dev .rxp port 4).toNat }
          ∧ getF t.dev .rxp port 0 0 1 = 1
          ∧ 2 ≤ getF t.dev .rxp port 0x10 0 8 ∧ getF t.dev .rxp port 0x10 0 8 ≤ 12))
  ∧ (∀ (s : State) (b : WriteBy) (port : Fin 16) (v : W32), writesNow s b (portCtlAddr port) = true → setBit v 0 = false →
    (getPort s.dev port).en = true →
    ∃ t, exec (.portDisable b port v) s = .next t ∧ (getPort t.dev port).en = false ∧ getF t.dev .rxp port 0xC 0 1 = 0
      ∧ (∀ k < 16, (getSlot t.dev (16 * port + k)).frame = none) ∧ t.dev.mem.dram = s.dev.mem.dram ∧ t.fuse = s.fuse)
  ∧ (∀ (s : State) (port : Fin 16) (k : SkewKind), (getPort s.dev port).en = true → skewAccepted (getPort s.dev port) k = true →
    ∃ t, exec (.skewCalibration ⟨port, k⟩) s = .next t ∧ t = { s with dev := { s.dev with regs := t.dev.regs, rx := t.dev.rx } }
      ∧ getPort t.dev port = { getPort s.dev port with calibrated := (getPort s.dev port).calibrated || k == .initial }
      ∧ (∀ n : Nat, n ≠ port → getPort t.dev n = getPort s.dev n)
      ∧ SameRegsBut [addrOf .rxp port 0xC] s.dev t.dev
      ∧ getF t.dev .rxp port 0xC 1 1 = 1 ∧ getF t.dev .rxp port 0xC 0 1 = getF s.dev .rxp port 0xC 0 1)
  ∧ (∀ (s : State) (port : Fin 16), (getPort s.dev port).en = true →
    ∃ t, exec (.phyLock port) s = .next t ∧ t = { s with dev := { s.dev with regs := t.dev.regs } }
      ∧ SameRegsBut [addrOf .rxp port 0xC] s.dev t.dev
      ∧ getF t.dev .rxp port 0xC 0 1 = 1 ∧ getF t.dev .rxp port 0xC 1 1 = getF s.dev .rxp port 0xC 1 1)
  ∧ (∀ (s : State) (port : Fin 16), getF s.dev .rxp port 0xC 0 1 = 1 →
    ∃ t, exec (.lossOfLock port) s = .next t ∧ t = { s with dev := { s.dev with regs := t.dev.regs, i3c := t.dev.i3c } }
      ∧ SameRegsBut [addrOf .rxp port 0xC, evsumAddr] s.dev t.dev
      ∧ getF t.dev .rxp port 0xC 0 1 = 0 ∧ getF t.dev .i3c 0 0x10 9 1 = 1)

/-- R56, R59, R67: a slot is enabled with the fields of the write, unless it conflicts, when EN stays 0 and CONFLICT is set; a slot with no
open frame is disabled; disabling one with an open frame of a live instance voids that instance with reason 11. The model's readings in it: log 27. -/
def Obligations.SlotsEnableAndDisable : Prop :=
  (∀ (s : State) (b : WriteBy) (st : Fin 256) (v : W32), writesNow s b (slotCtlAddr st) = true → setBit v 0 = true →
    (getSlot s.dev st).en = false →
    let ex := if fld v 6 2 = 0 then min 2 (fld v 16 2) else 0
    ∃ t, exec (.slotEnable b st v) s = .next t ∧ PortFrame s t
      ∧ (∀ n : Nat, n ≠ st → getSlot t.dev n = getSlot s.dev n)
      ∧ SameRegsBut [slotCtlAddr st, addrOf .rxp (st / 16) (slotOff st 4)] s.dev t.dev
      ∧ (slotConflict s.dev st (fld v 1 5) (fld v 6 2) ex = true →
          getSlot t.dev st = getSlot s.dev st ∧ getF t.dev .rxp (st / 16) (slotOff st 0) 0 1 = 0
          ∧ getF t.dev .rxp (st / 16) (slotOff st 4) 1 1 = 1)
      ∧ (slotConflict s.dev st (fld v 1 5) (fld v 6 2) ex = false →
          getSlot t.dev st = { getSlot s.dev st with en := true, vc := fld v 1 5, kind := fld v 6 2, exposures := ex }
          ∧ getF t.dev .rxp (st / 16) (slotOff st 0) 0 1 = 1))
  ∧ (∀ (s : State) (b : WriteBy) (st : Fin 256) (v : W32), writesNow s b (slotCtlAddr st) = true → setBit v 0 = false →
    (getSlot s.dev st).en = true → (getSlot s.dev st).frame = none → (getSlot s.dev st).kind ≠ 2 →
    ∃ t, exec (.slotDisable b st v) s = .next t ∧ PortFrame s t
      ∧ (∀ n : Nat, n ≠ st → getSlot t.dev n = getSlot s.dev n)
      ∧ getSlot t.dev st = { getSlot s.dev st with en := false, bulk := none })
  ∧ (∀ (s : State) (b : WriteBy) (st : Fin 256) (v : W32) (f : RxFrame) (i : InstRef), writesNow s b (slotCtlAddr st) = true →
    setBit v 0 = false → (getSlot s.dev st).en = true → (getSlot s.dev st).frame = some f → (getSlot s.dev st).kind = 0 →
    frameInst s.dev st f.index = some i → instLive s.dev i = true → s.dev.dt + 2 < (getCtx s.dev i.q i.ctx).dl →
    ∃ t, exec (.slotDisable b st v) s = .next t ∧ (getSlot t.dev st).en = false ∧ (getSlot t.dev st).frame = none
      ∧ ∃ o ∈ t.dev.outcomes, o.kind = 2 ∧ o.reason = 11 ∧ o.stream = st ∧ o.index = f.index)

/-- R61, R62: an accepted Frame Start of a pixel slot takes the slot's count as its index, advances the count, stamps the DT and sends the
notice. R65, R66: a Frame End closes a frame that has all its lines without a void; one that lacks lines under LINE_POLICY VOID is
voided with reason 4. The model's readings in it: log 27 and 29. -/
def Obligations.FramesOpenAndClose : Prop :=
  (∀ (s : State) (n : Fin 16) (vc : Fin 32) (fn : W16) (st : Nat), slotTakes s.dev n vc st = true →
    (getSlot s.dev st).kind = 0 → (getSlot s.dev st).frame = none →
    ∃ t, exec (.frameStart n vc fn .good) s = .next t
      ∧ getR t.dev .rxp n (slotOff st 8) = getR s.dev .rxp n (slotOff st 8) + 1
      ∧ getPair t.dev .rxp n (slotOff st 0x10) (slotOff st 0x14) = s.dev.dt % 2 ^ 64
      ∧ (∃ x, t.dev.fab.notices = s.dev.fab.notices ++ [x] ∧ x.stream = st ∧ x.fs = s.dev.dt
          ∧ x.index = (getR s.dev .rxp n (slotOff st 8)).toNat)
      ∧ (streamPlane s.dev st s.dev.dt = none → (getSlot t.dev st).frame = none ∧ (getSlot t.dev st).discard = true)
      ∧ (∀ p, streamPlane s.dev st s.dev.dt = some p → ∃ f, (getSlot t.dev st).frame = some f ∧ f.fs = s.dev.dt ∧ f.plane = p
          ∧ f.index = (getR s.dev .rxp n (slotOff st 8)).toNat ∧ f.height = (routeOf (planeOf s.dev p).sections st).height
          ∧ f.lines = [0, 0, 0])
      ∧ t.dev.mem = s.dev.mem ∧ t.dev.log = s.dev.log ∧ t.dev.outcomes = s.dev.outcomes ∧ t.fuse = s.fuse)
  ∧ (∀ (s : State) (n : Fin 16) (vc : Fin 32) (st : Nat) (f : RxFrame), slotTakes s.dev n vc st = true →
    (getSlot s.dev st).kind = 0 → (getSlot s.dev st).discard = false → (getSlot s.dev st).frame = some f → frameClosesWhole f = true →
    ∃ t, exec (.frameEnd n vc .good) s = .next t
      ∧ t = { s with dev := { s.dev with rx := t.dev.rx, regs := t.dev.regs } }
      ∧ (getSlot t.dev st).frame = none ∧ (∀ k : Nat, k ≠ st → getSlot t.dev k = getSlot s.dev k)
      ∧ getPair t.dev .rxp n (slotOff st 0x18) (slotOff st 0x1C) = s.dev.dt % 2 ^ 64)
  ∧ (∀ (s : State) (n : Fin 16) (vc : Fin 32) (st : Nat) (f : RxFrame) (i : InstRef), slotTakes s.dev n vc st = true →
    (getSlot s.dev st).kind = 0 → (getSlot s.dev st).discard = false → (getSlot s.dev st).frame = some f →
    f.exps = 1 → f.joined.getD 0 false = true → f.ended.length = 3 → f.lines.getD 0 0 < f.height → repairs s.dev n = false →
    frameInst s.dev st f.index = some i → instLive s.dev i = true → s.dev.dt + 2 < (getCtx s.dev i.q i.ctx).dl →
    ∃ t, exec (.frameEnd n vc .good) s = .next t ∧ (getSlot t.dev st).frame = none
      ∧ ∃ o ∈ t.dev.outcomes, o.kind = 2 ∧ o.reason = 4 ∧ o.stream = st ∧ o.index = f.index)

/-- R65, R85: a good line of the ROUTE data type becomes the frame's next line and waits in the pipe's line buffer; a line beyond the
ROUTE height is discarded and counted in CNT5. R60: embedded data is captured up to 2 KiB.
R55: generic short packets are counted in SHORT_CNT and change nothing else; Line Start, Line End, null and blanking packets change
nothing. The model's readings in it: log 26 and 30. -/
def Obligations.PacketsBecomeLines : Prop :=
  (∀ (s : State) (n : Fin 16) (vc : Fin 32) (typ : Fin 64) (data : List Byte) (st : Nat) (f : RxFrame),
    slotTakes s.dev n vc st = true → lineFits s.dev n st f typ data = true → f.lead.getD 0 0 = 0 → pipeHasRoom s.dev st f = true →
    ∃ t, exec (.longPacket n vc typ data .good) s = .next t
      ∧ (∃ g, (getSlot t.dev st).frame = some g ∧ g.lines.getD 0 0 = f.lines.getD 0 0 + 1 ∧ g.good.getD 0 none = some data
          ∧ g.bad = f.bad ∧ g.index = f.index)
      ∧ (∃ l, (getIsp t.dev (16 * f.pipe + st % 16)).buf = (getIsp s.dev (16 * f.pipe + st % 16)).buf ++ [l] ∧ l.data = data
          ∧ l.index = f.index ∧ l.repaired = false)
      ∧ t.dev.outcomes = s.dev.outcomes ∧ t.dev.mem.spad = s.dev.mem.spad ∧ t.dev.log = s.dev.log)
  ∧ (∀ (s : State) (n : Fin 16) (vc : Fin 32) (typ : Fin 64) (data : List Byte) (st : Nat) (f : RxFrame),
    slotTakes s.dev n vc st = true → (getSlot s.dev st).kind = 0 → (getSlot s.dev st).discard = false →
    (getSlot s.dev st).frame = some f → f.joined.getD 0 false = true → f.height ≤ f.lines.getD 0 0 →
    ∃ t, exec (.longPacket n vc typ data .good) s = .next t
      ∧ t = { s with dev := { s.dev with regs := t.dev.regs, cnts := t.dev.cnts } }
      ∧ cntAt t.dev (addrOf .rxp n 0x34) = cntAt s.dev (addrOf .rxp n 0x34) + 1 ∧ getF t.dev .rxp n 0x14 5 1 = 1)
  ∧ (∀ (s : State) (n : Fin 16) (vc : Fin 32) (data : List Byte) (st : Nat) (f : RxFrame),
    slotTakes s.dev n vc st = true → (getSlot s.dev st).kind = 0 → (getSlot s.dev st).discard = false →
    (getSlot s.dev st).frame = some f → f.embedded = false → bufferFits s.dev n data.length = true →
    ∃ t, exec (.embeddedData n vc data .good) s = .next t
      ∧ t = { s with dev := { s.dev with rx := t.dev.rx, cnts := t.dev.cnts } }
      ∧ (∀ k : Nat, k ≠ st → getSlot t.dev k = getSlot s.dev k)
      ∧ getSlot t.dev st = { getSlot s.dev st with emb := ((getSlot s.dev st).emb ++ data).take 2048 })
  ∧ (∀ (s : State) (n : Fin 16) (vc : Fin 32) (st : Nat), slotTakes s.dev n vc st = true → unowned s.dev st = false →
    exec (.lineStartEnd n vc .good) s = .next s ∧ exec (.nullBlankingPacket n vc .good) s = .next s
    ∧ ∃ t, exec (.genericShortPacket n vc .good) s = .next t ∧ t = { s with dev := { s.dev with cnts := t.dev.cnts } }
      ∧ SameCntsBut [addrOf .rxp n 0x40] s.dev t.dev
      ∧ cntAt t.dev (addrOf .rxp n 0x40) = cntAt s.dev (addrOf .rxp n 0x40) + 1)

/-- R61, R62, R69, R70, R40: on a bulk slot that a load names, a Frame Start is stamped, its number is noted, and it opens the transfer; a packet
that fits the port's buffer gives its payload to the loader; and the Frame End ends the loader's bytes. The model's readings in it: log 27. -/
def Obligations.BulkTransfersFeedTheLoader : Prop :=
  (∀ (s : State) (n : Fin 16) (vc : Fin 32) (fn : W16) (st : Nat), slotTakes s.dev n vc st = true → (getSlot s.dev st).kind = 1 →
    loadOn s.dev st = true → s.dev.cfg.load.open_ = false → s.dev.cfg.load.ended = false →
    ∃ t, exec (.bulkFrameStart n ⟨vc, fn⟩ .good) s = .next t
      ∧ t = { s with dev := { s.dev with rx := t.dev.rx, regs := t.dev.regs, cnts := t.dev.cnts, cfg := t.dev.cfg } }
      ∧ t.dev.cfg = { s.dev.cfg with load := { s.dev.cfg.load with open_ := true } }
      ∧ (getSlot t.dev st).bulk = some {} ∧ getR t.dev .rxp n (slotOff st 0x28) = 0
      ∧ getPair t.dev .rxp n (slotOff st 0x10) (slotOff st 0x14) = s.dev.dt % 2 ^ 64
      ∧ getF t.dev .rxp n (slotOff st 0xC) 0 16 = fn.toNat)
  ∧ (∀ (s : State) (n : Fin 16) (vc : Fin 32) (st : Nat) (data : List Byte) (b : BulkXfer), slotTakes s.dev n vc st = true →
    (getSlot s.dev st).kind = 1 → (getSlot s.dev st).bulk = some b → b.past = false → loadOn s.dev st = true →
    s.dev.cfg.load.open_ = true → bufferFits s.dev n data.length = true →
    ∃ t, exec (.bulkPacket n vc data .good) s = .next t
      ∧ t = { s with dev := { s.dev with rx := t.dev.rx, regs := t.dev.regs, cnts := t.dev.cnts, cfg := t.dev.cfg } }
      ∧ t.dev.cfg = { s.dev.cfg with load := { s.dev.cfg.load with bytes := s.dev.cfg.load.bytes ++ data } })
  ∧ (∀ (s : State) (n : Fin 16) (vc : Fin 32) (st : Nat) (b : BulkXfer), slotTakes s.dev n vc st = true →
    (getSlot s.dev st).kind = 1 → (getSlot s.dev st).bulk = some b → loadOn s.dev st = true → s.dev.cfg.load.open_ = true →
    ∃ t, exec (.bulkFrameEnd n vc .good) s = .next t
      ∧ t = { s with dev := { s.dev with rx := t.dev.rx, regs := t.dev.regs, cfg := t.dev.cfg } }
      ∧ (getSlot t.dev st).bulk = none
      ∧ t.dev.cfg = { s.dev.cfg with load := { s.dev.cfg.load with open_ := false, ended := true } })

/-- R63, R64: at its end a sync window closes; the home of each member's graph, for one that joined that of the plane of its Frame Start,
gets one notice with the window's start, its members and the absent ones; an absent member is counted, once a window. A GROUP_NOTICE at a
Drover whose only live instance is of a member that joined gives it EV bit 24 and the other members that its graph reads as
dependencies; it voids that instance with reason 4 where its graph reads an absent member, and with reason 5 where the instance of a
member that it reads has ended VOID or REFUSED; the notice that a dependency has ended voids it with reason 5; without a live instance a
notice leaves the instances alone. The model's readings in it: log 5, 28, 118 and 133. -/
def Obligations.SyncWindowsNotify : Prop :=
  (∀ (s : State) (g : Fin 64) (w : SyncWin), mapGet none g s.dev.rx.sync = some w →
    w.start + getF s.dev .hub 0 (0x1000 + 4 * g) 0 16 ≤ s.dev.dt →
    ∃ t, exec (.syncWindowClose g) s = .next t
      ∧ t = { s with dev := { s.dev with rx := t.dev.rx, fab := t.dev.fab, regs := t.dev.regs } }
      ∧ mapGet none g t.dev.rx.sync = none
      ∧ (∃ qs : List Nat, qs.Nodup ∧ (∀ q, q ∈ qs ↔ q ∈ w.homes ∨ ∃ m ∈ absentMembers s.dev g w, memberHome s.dev m = some q)
          ∧ t.dev.fab = { s.dev.fab with groups := s.dev.fab.groups ++ qs.map (fun q =>
              { q := q, group := g, start := w.start, present := w.joined, absent := absentMembers s.dev g w }) })
      ∧ SameRegsBut [addrOf .hub 0 (0x1100 + 4 * g)] s.dev t.dev
      ∧ ((groupMembers s.dev g).all (fun m => (w.joined.map (·.1)).contains m) = true → t.dev.regs = s.dev.regs)
      ∧ ((groupMembers s.dev g).all (fun m => (w.joined.map (·.1)).contains m) = false →
          getR t.dev .hub 0 (0x1100 + 4 * g) = getR s.dev .hub 0 (0x1100 + 4 * g) + 1))
  ∧ (∀ (s : State) (q : Fin 4) (n : GroupNotice) (rest : List GroupNotice),
    takeFirst (fun n : GroupNotice => n.q == q.val) s.dev.fab.groups = some (n, rest) → liveInsts s.dev = [] →
    ∃ t, exec (.groupNotice q) s = .next t
      ∧ t = { s with dev := { s.dev with fab := { s.dev.fab with groups := rest }, drv := t.dev.drv } }
      ∧ (getDrv t.dev q).groups = (getDrv s.dev q).groups
          ++ (if n.present.any (fun e => noticePending s.dev e.1 e.2) then [n] else []))
  ∧ (∀ (s : State) (q : Fin 4) (n : GroupNotice) (rest : List GroupNotice) (i : InstRef),
    takeFirst (fun n : GroupNotice => n.q == q.val) s.dev.fab.groups = some (n, rest) → noticeFor s.dev q n i = true →
    readsAbsent s.dev n i = false → readsEnded s.dev n i = false →
    let c := getCtx s.dev i.q i.ctx
    ∃ t, exec (.groupNotice q) s = .next t
      ∧ t = { s with dev := { s.dev with fab := { s.dev.fab with groups := rest }, drv := t.dev.drv, ctxs := t.dev.ctxs, pmu := t.dev.pmu } }
      ∧ (getCtx t.dev i.q i.ctx).ev = c.ev ||| BitVec.ofNat 32 (2 ^ 24)
      ∧ (getCtx t.dev i.q i.ctx).deps = c.deps ++ n.present.filter (fun e => instReads s.dev i e.1 && e.1 != c.stream)
      ∧ instLive t.dev i = true)
  ∧ (∀ (s : State) (q : Fin 4) (n : GroupNotice) (rest : List GroupNotice) (i : InstRef),
    takeFirst (fun n : GroupNotice => n.q == q.val) s.dev.fab.groups = some (n, rest) → noticeFor s.dev q n i = true →
    readsAbsent s.dev n i || readsEnded s.dev n i = true →
    let c := getCtx s.dev i.q i.ctx
    s.dev.dt + 2 < c.dl →
    ∃ t, exec (.groupNotice q) s = .next t ∧ t.fuse = s.fuse ∧ t.pending = s.pending ∧ instLive t.dev i = false
      ∧ ∃ o ∈ t.dev.outcomes, o.kind = 2 ∧ o.reason = (if readsAbsent s.dev n i then 4 else 5) ∧ o.stream = c.stream ∧ o.index = c.index)
  ∧ (∀ (s : State) (q : Fin 4) (n : GroupNotice) (rest : List GroupNotice) (i : InstRef) (e : Nat × Nat),
    takeFirst (fun n : GroupNotice => n.q == q.val) s.dev.fab.groups = some (n, rest) → n.ended = some e →
    (liveInsts s.dev).filter (fun i => i.q == q.val) = [i] → instLive s.dev i = true →
    let c := getCtx s.dev i.q i.ctx
    c.deps.contains e = true → s.dev.dt + 2 < c.dl →
    ∃ t, exec (.groupNotice q) s = .next t ∧ t.fuse = s.fuse ∧ t.pending = s.pending ∧ instLive t.dev i = false
      ∧ ∃ o ∈ t.dev.outcomes, o.kind = 2 ∧ o.reason = 5 ∧ o.stream = c.stream ∧ o.index = c.index)

namespace Sys2Proof.Claims

/-- The controller's bus is idle: enabled, its pins driven, no operation in progress (R73, R449). -/
def cciIdle (d : Dev) (n : Nat) : Bool := getF d .cci n 0 0 1 == 1 && hubPins d && (getCci d n).op == none

/-- The profile under which a transfer is part of a group (R72, R73): that of its target, if it allows group holds. -/
def groupProfile (d : Dev) (n : Nat) (x : CciXfer) : Option (List Byte) :=
  match targetProfile d n x.target with
  | some e => if x.group && bit (byteAt e 4) 0 then some e else none
  | none => none

/-- What a failed transfer leaves (R76): a bit of STATUS set and FAILS one more; with a group held, its release comes next. -/
def CciFailed (s t : State) (n : Fin 16) (k : Nat) : Prop :=
  t = { s with dev := { s.dev with rx := t.dev.rx, regs := t.dev.regs, cnts := t.dev.cnts, fab := t.dev.fab, ctxs := t.dev.ctxs } }
  ∧ getF t.dev .cci n 4 k 1 = 1 ∧ getF t.dev .cci n 0x28 0 16 = (getF s.dev .cci n 0x28 0 16 + 1) % 2 ^ 16
  ∧ (getCci t.dev n).op = (getCci s.dev n).held.map CciOp.release ∧ (getCci t.dev n).queue = (getCci s.dev n).queue

end Sys2Proof.Claims

/-- R71, R73, R74, R75: enabling an I3C controller assigns the dynamic addresses of its profiles. A push enters a queue of fewer than 32
transfers, behind those of earlier CT cycles, and one transfer more and no other is in the queue; its record is committed first where its
origin is neither a Drover nor a general core. A push to a queue of 32 is discarded, flagged and counted. A controller with an idle bus
starts its next operation: the release of a held group that has ended, the hold before a group, or the transfer at its queue's head. An
acknowledged read leaves its bytes in RX, and a read or a write outside a group its stamp in DONE_DT. R76: a NACK is retried up to
CTL.RETRY times, ten bus clock periods later; after the last retry, or on a stuck bus, a transfer that is not of a group is dropped,
STATUS.NACK or STUCK is set and the failure counted; a stuck bus without a transfer sets STUCK. A sensor's in-band interrupt in I3C mode is
NACKed. The model's readings in it: log 31 and 32. -/
def Obligations.SensorTransfers : Prop :=
  (∀ (s : State) (b : WriteBy) (n : Fin 16) (v : W32), writesNow s b (cciCtlAddr n) = true → setBit v 0 = true → fld v 1 2 = 2 →
    getF s.dev .cci n 0 0 1 = 0 →
    ∃ t, exec (.cciEnable b n v) s = .next t ∧ PortFrame s t ∧ getF t.dev .cci n 0 0 1 = 1
      ∧ SameRegsBut [cciCtlAddr n] s.dev t.dev
      ∧ getCci t.dev n = { getCci s.dev n with
          dasa := (((sensorProfiles s.dev).filter (fun e => byteAt e 0 == n.val)).map (fun e => byteAt e 1)).eraseDups })
  ∧ (∀ (s : State) (b : WriteBy) (n : Fin 16) (v : W32), writesNow s b (cciCmdAddr n) = true → setBit v 31 = true →
    (getCci s.dev n).queue.length < 32 →
    let o := originOf s.dev b
    let x := cciXferOf s.dev n v (cciTx s.dev n) o
    let older := (getCci s.dev n).queue.filter (fun y => y.cycle != x.cycle)
    let same := (getCci s.dev n).queue.filter (fun y => y.cycle == x.cycle)
    ∃ t, exec (.cciPush b n v) s = .next t
      ∧ t = { s with dev := { s.dev with rx := t.dev.rx, log := t.dev.log, cnts := t.dev.cnts, rr := t.dev.rr, ctxs := t.dev.ctxs } }
      ∧ (∀ m : Nat, m ≠ n → getCci t.dev m = getCci s.dev m)
      ∧ (∃ l, (getCci t.dev n).queue = older ++ l ∧ l.Perm (same ++ [x]))
      ∧ t.dev.log.next = s.dev.log.next + (if pushLogged o then 1 else 0))
  ∧ (∀ (s : State) (b : WriteBy) (n : Fin 16) (v : W32), writesNow s b (cciCmdAddr n) = true → setBit v 31 = true →
    32 ≤ (getCci s.dev n).queue.length →
    ∃ t, exec (.cciPush b n v) s = .next t
      ∧ t = { s with dev := { s.dev with regs := t.dev.regs, log := t.dev.log, cnts := t.dev.cnts, ctxs := t.dev.ctxs } }
      ∧ SameRegsBut [addrOf .cci n 4, addrOf .cci n 0x28] s.dev t.dev
      ∧ getF t.dev .cci n 4 11 1 = 1 ∧ getF t.dev .cci n 0x28 16 16 = (getF s.dev .cci n 0x28 16 16 + 1) % 2 ^ 16)
  ∧ (∀ (s : State) (n : Fin 16), cciIdle s.dev n = true → ((getCci s.dev n).held ≠ none ∨ (getCci s.dev n).queue ≠ []) →
    let c := getCci s.dev n
    let idle : CciSt := { c with tries := 0, retryAt := none }
    ∃ t, exec (.cciTransferStart n) s = .next t ∧ t = { s with dev := { s.dev with rx := t.dev.rx } }
      ∧ (∀ m : Nat, m ≠ n → getCci t.dev m = getCci s.dev m)
      ∧ (∀ p, c.held = some p → c.queue = [] → getCci t.dev n = { idle with op := some (.release p) })
      ∧ (∀ p x r, c.held = some p → c.queue = x :: r → groupProfile s.dev n x ≠ some p → getCci t.dev n = { idle with op := some (.release p) })
      ∧ (∀ p x r, c.held = some p → c.queue = x :: r → groupProfile s.dev n x = some p →
          getCci t.dev n = { idle with op := some (.xfer x), queue := r })
      ∧ (∀ p x r, c.held = none → c.queue = x :: r → groupProfile s.dev n x = some p → getCci t.dev n = { idle with op := some (.hold p) })
      ∧ (∀ x r, c.held = none → c.queue = x :: r → groupProfile s.dev n x = none →
          getCci t.dev n = { idle with op := some (.xfer x), queue := r }))
  ∧ (∀ (s : State) (n : Fin 16) (x : CciXfer) (rx : List Byte), (getCci s.dev n).op = some (.xfer x) →
    (getCci s.dev n).retryAt = none → hubPins s.dev = true →
    ∃ t, exec (.cciTransferDone n rx) s = .next t
      ∧ t = { s with dev := { s.dev with rx := t.dev.rx, regs := t.dev.regs, cnts := t.dev.cnts, isp := t.dev.isp } }
      ∧ (getCci t.dev n).op = none ∧ (getCci t.dev n).queue = (getCci s.dev n).queue
      ∧ (x.read = true → t.dev.isp = s.dev.isp ∧ getPair t.dev .cci n 0x18 0x1C = leNat (rx.take (min x.len 8)))
      ∧ (x.read = true ∨ (getCci s.dev n).held = none → getPair t.dev .cci n 0x20 0x24 = s.dev.dt % 2 ^ 64))
  ∧ (∀ (s : State) (n : Fin 16), (getCci s.dev n).op ≠ none → (getCci s.dev n).retryAt = none →
    (getCci s.dev n).tries < getF s.dev .cci n 0 4 4 →
    ∃ t, exec (.cciNack n) s = .next t ∧ t = { s with dev := { s.dev with rx := t.dev.rx } }
      ∧ getCci t.dev n = { getCci s.dev n with tries := (getCci s.dev n).tries + 1
                                               retryAt := some (s.dev.dt + cciRetryDelay (cciProto s.dev n)) })
  ∧ (∀ (s : State) (n : Fin 16) (x : CciXfer), (getCci s.dev n).op = some (.xfer x) → (getCci s.dev n).retryAt = none →
    getF s.dev .cci n 0 4 4 ≤ (getCci s.dev n).tries → x.group = false →
    ∃ t, exec (.cciNack n) s = .next t ∧ CciFailed s t n 9)
  ∧ (∀ (s : State) (n : Fin 16) (at_ : Nat), (getCci s.dev n).retryAt = some at_ → at_ ≤ s.dev.dt →
    ∃ t, exec (.cciRetry n) s = .next t ∧ t = { s with dev := { s.dev with rx := t.dev.rx } }
      ∧ getCci t.dev n = { getCci s.dev n with retryAt := none })
  ∧ (∀ (s : State) (n : Fin 16) (x : CciXfer), getF s.dev .cci n 0 0 1 = 1 → (getCci s.dev n).op = some (.xfer x) → x.group = false →
    ∃ t, exec (.cciStuckBus n) s = .next t ∧ CciFailed s t n 10)
  ∧ (∀ (s : State) (n : Fin 16), getF s.dev .cci n 0 0 1 = 1 → (getCci s.dev n).op = none →
    ∃ t, exec (.cciStuckBus n) s = .next t ∧ t = { s with dev := { s.dev with regs := t.dev.regs } }
      ∧ SameRegsBut [addrOf .cci n 4] s.dev t.dev ∧ getF t.dev .cci n 4 10 1 = 1)
  ∧ (∀ (s : State) (n : Fin 16), getF s.dev .cci n 0 0 1 = 1 → cciProto s.dev n = 2 →
    ∃ t, exec (.cciInBandInterrupt n) s = .next t ∧ t = { s with dev := { s.dev with rx := t.dev.rx } }
      ∧ getCci t.dev n = { getCci s.dev n with ibiNacks := (getCci s.dev n).ibiNacks + 1 })

/-- R77, R78: a free-running generator's first edge is the first START + k * PERIOD after the enabling commit; an edge raises the output
for WIDTH DT and is followed by the next; an accepted input edge is stamped and counted; a locked generator whose input has been
silent for 1.5 * PERIOD sets LOST and goes on by itself. The model's readings in it: log 33. -/
def Obligations.FrameSyncPins : Prop :=
  (∀ (s : State) (b : WriteBy) (m : Fin 16) (v : W32), writesNow s b (fsoCtlAddr m) = true → setBit v 0 = true → setBit v 1 = false →
    (getFso s.dev m).on = false → 2 ≤ fsoPeriod s.dev m →
    ∃ t e, exec (.fsyncGeneratorEnable b m v) s = .next t ∧ PortFrame s t ∧ SameRegsBut [fsoCtlAddr m] s.dev t.dev
      ∧ getFso t.dev m = { on := true, next := some e } ∧ s.dev.dt < e ∧ e ≤ s.dev.dt + fsoPeriod s.dev m
      ∧ e % fsoPeriod s.dev m = getPair s.dev .hub 0 (fsoOff m 0x10) (fsoOff m 0x14) % fsoPeriod s.dev m)
  ∧ (∀ (s : State) (m : Fin 16) (e : Nat), (getFso s.dev m).on = true → (getFso s.dev m).next = some e → (getFso s.dev m).due = [] →
    e ≤ s.dev.dt →
    ∃ t, exec (.fsyncOutEdge m) s = .next t ∧ t = { s with dev := { s.dev with rx := t.dev.rx } }
      ∧ getFso t.dev m = { on := true, next := some (e + fsoPeriod s.dev m), last := some e, due := [], active := true
                           pulseEnd := some (e + getF s.dev .hub 0 (fsoOff m 8) 0 24) })
  ∧ (∀ (s : State) (m : Fin 16) (e : Nat), (getFso s.dev m).pulseEnd = some e → e ≤ s.dev.dt →
    ∃ t, exec (.fsyncPulseEnd m) s = .next t ∧ t = { s with dev := { s.dev with rx := t.dev.rx } }
      ∧ getFso t.dev m = { getFso s.dev m with active := false, pulseEnd := none })
  ∧ (∀ (s : State) (falling : Bool) (pulse : Nat), getF s.dev .hub 0 0x2200 0 1 = 1 →
    (getF s.dev .hub 0 0x2200 1 1 == 1) = falling → getF s.dev .hub 0 0x2200 4 4 ≤ pulse →
    ∃ t, exec (.fsyncInEdge falling pulse) s = .next t
      ∧ t = { s with dev := { s.dev with rx := t.dev.rx, regs := t.dev.regs } }
      ∧ getPair t.dev .hub 0 0x2204 0x2208 = s.dev.dt % 2 ^ 64 ∧ getR t.dev .hub 0 0x220C = getR s.dev .hub 0 0x220C + 1
      ∧ ∀ m < 16, (getFso s.dev m).on = true → fsoLocked s.dev m = true → (getFso t.dev m).next = none)
  ∧ (∀ (s : State) (m : Fin 16) (e : Nat), (getFso s.dev m).on = true → fsoLocked s.dev m = true → (getFso s.dev m).last = some e →
    (getFso s.dev m).next = none → (getFso s.dev m).due = [] → fsoHeard (getFso s.dev m) e (fsoPeriod s.dev m) = false → 2 * e + 3 * fsoPeriod s.dev m ≤ 2 * s.dev.dt →
    ∃ t e', exec (.fsyncLost m) s = .next t
      ∧ t = { s with dev := { s.dev with rx := t.dev.rx, regs := t.dev.regs, cnts := t.dev.cnts, fab := t.dev.fab } }
      ∧ getF t.dev .hub 0 (fsoOff m 0) 3 1 = 1 ∧ (getFso t.dev m).next = some e' ∧ s.dev.dt ≤ e'
      ∧ (2 ≤ fsoPeriod s.dev m → e' % fsoPeriod s.dev m = e % fsoPeriod s.dev m))

namespace Sys2Proof.Claims

/-- What a command of an image pipe or a vision engine may change: the engines, their contexts and rings, scratchpad, messages, and the
transmit ports and peer links that records go to. Device time, planes, the change log, fuses, DRAM bytes and the queue stay. -/
def VisFrame (s t : State) : Prop :=
  t = { s with dev := { s.dev with wakeAt := t.dev.wakeAt, regs := t.dev.regs, cnts := t.dev.cnts, mem := t.dev.mem, fab := t.dev.fab
                                   i3c := t.dev.i3c, ctxs := t.dev.ctxs, regions := t.dev.regions, audit := t.dev.audit
                                   flocks := t.dev.flocks, folds := t.dev.folds, spd := t.dev.spd, dma := t.dev.dma, tx := t.dev.tx
                                   peer := t.dev.peer, isp := t.dev.isp, eng := t.dev.eng, vis := t.dev.vis, threads := t.dev.threads
                                   pmu := t.dev.pmu, rr := t.dev.rr, outcomes := t.dev.outcomes } }
  ∧ t.dev.mem.dram = s.dev.mem.dram

/-- A context's unit of work in a datapath is done, outside a fold run and with no stop upon it, and its reads are correctable. -/
def unitDone (d : Dev) (e dp vx : Nat) (reads : VisCtx → VisWork → Dev → List (Nat × Nat)) (w : VisWork) (x : VisCtx) : Bool :=
  visDone d e dp vx == some (w, x) && x.fold == none && !x.stop && w.cut == none && !(visTouch e x vx (reads x w d) d).1

/-- Every context but one is as it was, but for input slots that it waited to let go of (R114). -/
def OthersKeep (s t : State) (e c : Nat) : Prop :=
  ∀ i : Nat, i ≠ 128 * e + c → ∃ rel keep, mapGet {} i t.dev.vis = { mapGet {} i s.dev.vis with rel := rel, keep := keep }

/-- What the end of a unit may change: of the engines and contexts its own alone, whose datapath is idle after it. -/
def UnitFrame (s t : State) (e c dp : Nat) : Prop :=
  VisFrame s t ∧ visWork t.dev e dp = none ∧ (∀ e' : Nat, e' ≠ e → getEng t.dev e' = getEng s.dev e') ∧ OthersKeep s t e c

/-- No grant that has arrived waits to take effect before this cycle's checks (R138). -/
def noGrants (d : Dev) (e vx : Nat) : Bool := (d.fab.grants.filter (fun m => m.unit == visUnit e && m.due ≤ vxAt d vx)).isEmpty

/-- The context that an instance's tag started. -/
def ctxOfTag (d : Dev) (e : Nat) (i : InstRef) (tag : Nat) : Option Nat :=
  (List.range (visCtxs e)).find? (fun c => (getVis d e c).live && (match (getVis d e c).starter with
    | .drover j t _ => j == i && t == tag
    | _ => false))

/-- The tile in progress of a context is one that a grant does not cover (R140). -/
def uncovered (d : Dev) (e c tstop : Nat) : Bool :=
  match visWork d e 2 with
  | some w => w.ctx == c && !(tstop != 0 && w.began + ceilDiv (headCost d e (getVis d e c)) 5 ≤ tstop)
  | none => false

/-- A live context of an instance, outside a fold run, whose last tile does not complete in this VX cycle (R105). -/
def stoppable (d : Dev) (e c vx : Nat) (i : InstRef) : Bool :=
  let x := getVis d e c
  x.live && x.starter.inst == some i && x.fold == none && !endsNow d e c vx x

/-- The contexts that may begin a unit in a datapath. -/
def eligibleCtxs (d : Dev) (e dp : Nat) : List Nat :=
  (List.range (visCtxs e)).filter (fun c => (getVis d e c).live && !(getVis d e c).stop && (visNext d e dp (getVis d e c)).isSome)

/-- The contexts that may begin a refinement (R138). -/
def refinableCtxs (d : Dev) (e : Nat) : List Nat :=
  (List.range (visCtxs e)).filter (fun c =>
    let x := getVis d e c
    x.live && !x.stop && x.phase == 2 && x.consumed < x.entries && patchReady d e x && tileFits d e x && slotFreeIn d (e / 8) (refOut e x))

/-- The engine may begin a unit now in a datapath (R102, R203, R217, R388). -/
def engineIdle (d : Dev) (e dp : Nat) : Bool :=
  (visWork d e dp).isNone && !visInFold d e && decide (d.wakeAt ≤ d.dt) && (getSpd d (e / 8)).initDone && (getEng d e).work.length == 3

/-- A first pass is over: its rows are written and the list's time has passed (R135). -/
def passOver (d : Dev) (e c vx : Nat) : Bool :=
  let x := getVis d e c
  x.live && x.phase == 0 && x.row == denseRows x && x.fold == none
    && decide (x.due + 64 + 4 * ((candidates x).take (denseListMax e x)).length ≤ vxAt d vx)

/-- A truncated context's next row may be written (R145). -/
def truncatedReady (d : Dev) (e c vx : Nat) : Bool :=
  let x := getVis d e c
  x.live && x.trunc && x.phase == 0 && !visHas d e 0 c && !visHas d e 1 c && x.row != denseRows x && x.fold == none
    && decide (x.due ≤ vxAt d vx) && (truncOuts e x).all (fun o => outFree d e x o.ring 1)

end Sys2Proof.Claims

/-- R85, R86, R93: a pipe takes the only ready line into work for ceil(width / 4) + 24 VX cycles; a line that has passed joins its frame,
which goes no further where the line five below its next one is not there yet; the only row that waited is written to its ring when the
ring has a free slot; a COMMIT makes the shadow set pending from its DT, in the place of an earlier one of that DT, and the last set
committed before that DT stays pending. The model's readings in it: log 38. -/
def Obligations.ImagePipesTakeLines : Prop :=
  (∀ (s : State) (pipe : Fin 16) (batch : Nat) (vx : Fin 5) (c : Nat) (l : IspLine) (x : IspFrame), getF s.dev .isp pipe 0 0 1 = 1 →
    mapGet none pipe s.dev.isp.work = none → s.dev.wakeAt ≤ s.dev.dt → readyLines s.dev pipe = [(c, l)] →
    (getIsp s.dev (16 * pipe + c)).frame = some x →
    ∃ t, exec (.ispLineStart pipe batch vx) s = .next t ∧ t = { s with dev := { s.dev with isp := t.dev.isp, rr := t.dev.rr } }
      ∧ mapGet none pipe t.dev.isp.work = some { ctx := c, line := l, due := vxAt s.dev vx + ceilDiv x.width 4 + 24 }
      ∧ (getIsp t.dev (16 * pipe + c)).buf = (getIsp s.dev (16 * pipe + c)).buf.drop 1)
  ∧ (∀ (s : State) (pipe : Fin 16) (vx : Fin 5) (w : IspWork) (x : IspFrame), mapGet none pipe s.dev.isp.work = some w →
    w.due ≤ vxAt s.dev vx → (getIsp s.dev (16 * pipe + w.ctx)).frame = some x → x.index = w.line.index → w.line.exp = 0 →
    x.exps = 1 → x.developed = false → x.taken.length = 3 → x.done ≠ x.height → (x.taken.getD 0 []).length + 1 < x.height →
    (x.taken.getD 0 []).length + 1 ≤ x.done + 6 →
    ∃ t, exec (.ispLineDone pipe vx) s = .next t ∧ t = { s with dev := { s.dev with isp := t.dev.isp } }
      ∧ mapGet none pipe t.dev.isp.work = none
      ∧ ∃ y, (getIsp t.dev (16 * pipe + w.ctx)).frame = some y
          ∧ y = { x with taken := setAt 0 (x.taken.getD 0 [] ++ [(w.line.data, w.line.repaired)]) x.taken })
  ∧ (∀ (s : State) (pipe c : Fin 16) (r : IspRow), (getIsp s.dev (16 * pipe + c)).stalled = true →
    (getIsp s.dev (16 * pipe + c)).rows = [r] → slotFreeIn s.dev (pipe / 4) r.ring = true →
    ∃ t, exec (.ispStallResume pipe c) s = .next t ∧ VisFrame s t
      ∧ getIsp t.dev (16 * pipe + c) = { getIsp s.dev (16 * pipe + c) with rows := [], stalled := false }
      ∧ (ringFlock s.dev (pipe / 4) r.ring = none → (getRegion t.dev (pipe / 4) r.ring).h = addMod (getRegion s.dev (pipe / 4) r.ring) (getRegion s.dev (pipe / 4) r.ring).h 1))
  ∧ (∀ (s : State) (b : WriteBy) (pipe c : Fin 16) (v : W32), writesNow s b (ispCommitAddr (16 * pipe + c)) = true →
    setBit v 0 = true →
    ∃ t, exec (.ispCommit b pipe c v) s = .next t
      ∧ t = { s with dev := { s.dev with isp := t.dev.isp, cnts := t.dev.cnts, log := t.dev.log, ctxs := t.dev.ctxs } }
      ∧ getIsp t.dev (16 * pipe + c) =
          { getIsp s.dev (16 * pipe + c) with
              pending := (((getIsp s.dev (16 * pipe + c)).pending.filter (fun p => p.1 < s.dev.dt)).getLast?).toList
                ++ [(s.dev.dt, shadowSet s.dev (16 * pipe + c))] })

/-- R101, R102, R104, R105: the only start that has arrived fills a free context with its descriptor, or waits and is counted where none is
free; an idle datapath begins the unit of its only eligible context, and no grant waits; a context with its last row written frees itself
and reports code 0 to its tag. A void's stop ends with code 1 every context of the instance with no unit in progress, but one whose last
tile completes in this cycle; one with a unit in progress ends when the tile in progress does, and begins no other unit. The model's readings in it: log 39, 40 and 119. -/
def Obligations.VisionContextsLive : Prop :=
  (∀ (s : State) (q : Fin 4) (k : Fin 8) (batch : Nat) (vx : Fin 5) (c : Nat) (m : StartMsg),
    (getEng s.dev (engOf q k)).waiting = [] → visTakes s.dev (engOf q k) = true → freeVis s.dev (engOf q k) = some c →
    s.dev.fab.starts.filter (fun m => m.unit == visUnit (engOf q k) && startReady s.dev m) = [m] →
    spadBad s.dev q (8 * m.desc) (visDescLen (engOf q k)) = false →
    ∃ t, exec (.visStart q k batch vx) s = .next t ∧ VisFrame s t
      ∧ t.dev.fab = { s.dev.fab with starts := s.dev.fab.starts.erase m }
      ∧ (∀ i : Nat, i ≠ 128 * engOf q k + c → mapGet {} i t.dev.vis = mapGet {} i s.dev.vis)
      ∧ getVis t.dev (engOf q k) c =
          { live := true, addr := m.desc, desc := spadPeek s.dev q (8 * m.desc) (visDescLen (engOf q k)), dl := m.dl
            starter := m.starter })
  ∧ (∀ (s : State) (q : Fin 4) (k : Fin 8) (batch : Nat) (vx : Fin 5) (m : StartMsg),
    freeVis s.dev (engOf q k) = none →
    s.dev.fab.starts.filter (fun m => m.unit == visUnit (engOf q k) && startReady s.dev m) = [m] →
    let a := addrOf (visBlk (engOf q k)).1 (visBlk (engOf q k)).2 0x34
    ∃ t, exec (.visStart q k batch vx) s = .next t
      ∧ t = { s with dev := { s.dev with fab := { s.dev.fab with starts := s.dev.fab.starts.erase m }, eng := t.dev.eng, cnts := t.dev.cnts } }
      ∧ getEng t.dev (engOf q k) = { getEng s.dev (engOf q k) with waiting := (getEng s.dev (engOf q k)).waiting ++ [m] }
      ∧ SameCntsBut [a] s.dev t.dev ∧ cntAt t.dev a = cntAt s.dev a + 1)
  ∧ (∀ (s : State) (q : Fin 4) (k : Fin 8) (dp : Fin 3) (vx : Fin 5) (c u cost : Nat), engineIdle s.dev (engOf q k) dp = true →
    noGrants s.dev (engOf q k) vx = true →
    eligibleCtxs s.dev (engOf q k) dp = [c] → visNext s.dev (engOf q k) dp (getVis s.dev (engOf q k) c) = some (u, cost) →
    let now := visNow s.dev (engOf q k) (getVis s.dev (engOf q k) c) vx
    ∃ t, exec (.visUnitStart q k dp vx) s = .next t
      ∧ t = { s with dev := { s.dev with eng := t.dev.eng, vis := t.dev.vis, rr := t.dev.rr } }
      ∧ visWork t.dev (engOf q k) dp =
          some { ctx := c, unit := u, began := s.dev.dt, due := now + cost, start := now, counted := now }
      ∧ (∀ i : Nat, i ≠ 128 * engOf q k + c → mapGet {} i t.dev.vis = mapGet {} i s.dev.vis))
  ∧ (∀ (s : State) (q k : Fin 4) (c : Fin 32) (vx : Fin 5) (i : InstRef) (tag : Nat) (b : Bool),
    let e := engOf q k
    let x := getVis s.dev e c
    x.live = true → visWhole e x = true → x.fold = none → x.starter = .drover i tag b →
    ∃ t, exec (.visContextComplete q k c vx) s = .next t ∧ VisFrame s t ∧ getVis t.dev e c = {}
      ∧ (∀ j : Nat, j ≠ 128 * e + c → mapGet {} j t.dev.vis = mapGet {} j s.dev.vis)
      ∧ t.dev.fab.reports = s.dev.fab.reports ++ [{ inst := i, tag := tag, code := 0, remote := i.q != q.val }]
      ∧ (bit (statusAddr e x) 31 = false → t.dev.mem = s.dev.mem))
  ∧ (∀ (s : State) (q : Fin 4) (k : Fin 8) (home : Fin 4) (vx : Fin 5) (m : StopMsg) (rest : List StopMsg),
    let e := engOf q k
    takeFirst (fun m : StopMsg => m.kind == .engine && m.unit == visUnit e && m.inst.q == home.val && stopReady s.dev m) s.dev.fab.stops
      = some (m, rest) →
    ∃ t, exec (.visStop q k home vx) s = .next t ∧ VisFrame s t ∧ t.dev.fab.stops = rest
      ∧ (∀ c < visCtxs e, stoppable s.dev e c vx m.inst = true → (∀ dp < 3, visHas s.dev e dp c = false) →
          getVis t.dev e c = {} ∧ ∃ r ∈ t.dev.fab.reports, r.inst = m.inst ∧ r.code = 1)
      ∧ (∀ c < visCtxs e, stoppable s.dev e c vx m.inst = true → (∃ dp < 3, visHas s.dev e dp c = true) →
          (∀ dp w, visWork s.dev e dp = some w → w.ctx = c → vxAt s.dev vx < w.due) →
          getVis t.dev e c = { getVis s.dev e c with stop := true }
          ∧ ∀ dp w, visWork s.dev e dp = some w → w.ctx = c → ∃ w', visWork t.dev e dp = some w' ∧ w'.ctx = c ∧ w'.due ≤ w.due)
      ∧ (∀ c, (getVis s.dev e c).starter.inst ≠ some m.inst → getVis t.dev e c = getVis s.dev e c))

/-- R108, R114, R127, R128, R131, R132: the unit that a pyramid, warp, stereo or flow datapath has finished frees the datapath and takes
its context to the next row, and leaves the other contexts and engines as they are: a pyramid's next input row, or, where
output rows of the last one wait for a further slot of their ring, fewer of these; a warp's next output row; the next coarse, fine, block or pixel row of a dense context. The model's readings in it: log 39 and 132. -/
def Obligations.VisionRowsAdvance : Prop :=
  (∀ (s : State) (q : Fin 4) (k : Fin 2) (vx : Fin 5) (w : VisWork) (x : VisCtx),
    unitDone s.dev (engOf q k) 0 vx (fun x _ d => pymReads d (engOf q k) x) w x = true →
    ∃ t, exec (.pymTileRowDone q k vx) s = .next t ∧ UnitFrame s t (engOf q k) w.ctx 0
      ∧ (getVis t.dev (engOf q k) w.ctx).row = (if x.owed = [] then x.row + 1 else x.row)
      ∧ (x.owed ≠ [] → (getVis t.dev (engOf q k) w.ctx).owed.length < x.owed.length))
  ∧ (∀ (s : State) (q : Fin 4) (k : Fin 2) (vx : Fin 5) (w : VisWork) (x : VisCtx),
    let e := engOf q (2 + k.val)
    unitDone s.dev e 0 vx (fun x _ d => wrpReads d e x) w x = true →
    ∃ t, exec (.wrpTileRowDone q k vx) s = .next t ∧ UnitFrame s t e w.ctx 0
      ∧ (getVis t.dev e w.ctx).row = x.row + 1)
  ∧ (∀ (s : State) (q : Fin 4) (vx : Fin 5) (w : VisWork) (x : VisCtx),
    unitDone s.dev (engOf q 4) 0 vx (fun x _ d => steCoarseReads d (engOf q 4) x) w x = true →
    ∃ t, exec (.steCoarseRowDone q vx) s = .next t ∧ UnitFrame s t (engOf q 4) w.ctx 0
      ∧ (getVis t.dev (engOf q 4) w.ctx).rowA = x.rowA + 1 ∧ (getVis t.dev (engOf q 4) w.ctx).row = x.row)
  ∧ (∀ (s : State) (q : Fin 4) (vx : Fin 5) (w : VisWork) (x : VisCtx),
    unitDone s.dev (engOf q 4) 1 vx (fun x _ d => steFineReads d (engOf q 4) x) w x = true →
    ∃ t, exec (.steFineRowDone q vx) s = .next t ∧ UnitFrame s t (engOf q 4) w.ctx 1
      ∧ (getVis t.dev (engOf q 4) w.ctx).row = x.row + 1 ∧ (getVis t.dev (engOf q 4) w.ctx).rowA = x.rowA)
  ∧ (∀ (s : State) (q : Fin 4) (vx : Fin 5) (w : VisWork) (x : VisCtx),
    unitDone s.dev (engOf q 5) 0 vx (fun x _ d => flwBlockReads d (engOf q 5) x) w x = true →
    ∃ t, exec (.flwBlockRowDone q vx) s = .next t ∧ UnitFrame s t (engOf q 5) w.ctx 0
      ∧ (getVis t.dev (engOf q 5) w.ctx).rowA = x.rowA + 1 ∧ (getVis t.dev (engOf q 5) w.ctx).row = x.row
      ∧ (getVis t.dev (engOf q 5) w.ctx).blocks.length = x.blocks.length + 1)
  ∧ (∀ (s : State) (q : Fin 4) (vx : Fin 5) (w : VisWork) (x : VisCtx),
    unitDone s.dev (engOf q 5) 1 vx (fun x _ d => flwPixelReads d (engOf q 5) x) w x = true →
    ∃ t, exec (.flwPixelRowDone q vx) s = .next t ∧ UnitFrame s t (engOf q 5) w.ctx 1
      ∧ (getVis t.dev (engOf q 5) w.ctx).row = x.row + 1 ∧ (getVis t.dev (engOf q 5) w.ctx).rowA = x.rowA)

/-- R135, R145: the first pass of a dense context that a Drover started, and that holds no grant, ends 64 cycles and 4 a list entry after its
last row; its code goes to the tag, and it awaits a grant. A truncation, by a write of TRUNC or by the Drover, marks the live dense or
feature context that it names in its first pass, and no other; a truncated dense context's remaining rows are then written one by one,
where their rings have free slots. The model's readings in it: log 39 and 44. -/
def Obligations.DensePassesEnd : Prop :=
  (∀ (s : State) (q : Fin 4) (flow : Bool) (c : Fin 64) (vx : Fin 5) (i : InstRef) (tag : Nat) (b : Bool),
    let e := engOf q (4 + b2n flow)
    let x := getVis s.dev e c
    passOver s.dev e c vx = true → x.starter = .drover i tag b → x.tstop = none →
    ∃ t, exec (.firstPassEnd q flow c vx) s = .next t ∧ VisFrame s t
      ∧ getVis t.dev e c = { x with phase := 1, next := 0, entries := ((candidates x).take (denseListMax e x)).length }
      ∧ (∀ j : Nat, j ≠ 128 * e + c → mapGet {} j t.dev.vis = mapGet {} j s.dev.vis)
      ∧ ∃ r, t.dev.fab.reports = s.dev.fab.reports ++ [r] ∧ r.inst = i ∧ r.tag = tag ∧ r.final = false
          ∧ r.code = if x.trunc then 3 else 0)
  ∧ (∀ (s : State) (b : WriteBy) (q : Fin 4) (k : Fin 8) (v : W32) (vx : Fin 5),
    let e := engOf q k
    let c := fld v 0 (if k.val < 6 then 6 else 5)
    writesNow s b (truncAddr e) = true → setBit v 31 = true → 4 ≤ k.val → (getVis s.dev e c).live = true →
    (getVis s.dev e c).phase = 0 →
    ∃ t, exec (.visTruncate q k (some (b, v)) vx) s = .next t
      ∧ t = { s with dev := { s.dev with vis := t.dev.vis, cnts := t.dev.cnts, log := t.dev.log, ctxs := t.dev.ctxs } }
      ∧ (getVis t.dev e c).trunc = true ∧ ∀ c' < 128, c' ≠ c → getVis t.dev e c' = getVis s.dev e c')
  ∧ (∀ (s : State) (q : Fin 4) (k : Fin 8) (vx : Fin 5) (m : TruncMsg) (rest : List TruncMsg) (c : Nat),
    let e := engOf q k
    takeFirst (fun m : TruncMsg => m.unit == visUnit e && !behind s.dev m.seq m.unit m.inst.q) s.dev.fab.truncs = some (m, rest) →
    4 ≤ k.val → ctxOfTag s.dev e m.inst m.tag = some c → (getVis s.dev e c).phase = 0 →
    ∃ t, exec (.visTruncate q k none vx) s = .next t
      ∧ t = { s with dev := { s.dev with vis := t.dev.vis, fab := { s.dev.fab with truncs := rest } } }
      ∧ (getVis t.dev e c).trunc = true ∧ ∀ c' < 128, c' ≠ c → getVis t.dev e c' = getVis s.dev e c')
  ∧ (∀ (s : State) (q : Fin 4) (flow : Bool) (c : Fin 64) (vx : Fin 5),
    let e := engOf q (4 + b2n flow)
    let x := getVis s.dev e c
    truncatedReady s.dev e c vx = true →
    ∃ t, exec (.truncatedRowWrite q flow c vx) s = .next t ∧ VisFrame s t
      ∧ OthersKeep s t e c
      ∧ ∃ rel keep, getVis t.dev e c = { x with
          rel := rel, keep := keep, row := x.row + 1, level3 := x.level3 + ceilDiv (denseW x) 32
          due := vxAt s.dev vx + (if x.row + 1 < denseRows x then 64 * ceilDiv (denseW x) 64 else 0) })

/-- R138, R140, R141: a grant that no earlier message holds up reaches the context of its tag, which then holds its T_stop and refines or
retries where its first pass is over and T_stop is not 0; a tile in progress that the grant does not cover is abandoned and its patch
consumed. An idle refinement datapath takes the only context whose tile fits; a refined tile is consumed; refinement or retry ends with
its code, or with code 5 at the record of an instance that gave no grant. Of the last four, where no grant waits. The model's readings in it: log 39 and 44. -/
def Obligations.RefinementRuns : Prop :=
  (∀ (s : State) (q : Fin 4) (k : Fin 8) (m : GrantMsg) (rest : List GrantMsg) (c : Nat),
    let e := engOf q k
    let x := getVis s.dev e c
    let wait := if k.val < 6 then 1 else 2
    takeFirst (fun m : GrantMsg => m.unit == visUnit e && grantReady s.dev m) s.dev.fab.grants = some (m, rest) → 4 ≤ k.val →
    ctxOfTag s.dev e m.inst m.tag = some c → x.stop = false →
    ((visHas s.dev e 2 c = false →
      ∃ t, exec (.grantArrival q k) s = .next t
        ∧ t = { s with dev := { s.dev with vis := t.dev.vis, fab := { s.dev.fab with grants := rest } } }
        ∧ (∀ j : Nat, j ≠ 128 * e + c → mapGet {} j t.dev.vis = mapGet {} j s.dev.vis)
        ∧ getVis t.dev e c = { x with
            tstop := some m.tstop
            phase := if x.phase = wait ∧ m.tstop ≠ 0 then wait + 1 else x.phase })
    ∧ (uncovered s.dev e c m.tstop = true → k.val < 6 →
      ∃ t, exec (.grantArrival q k) s = .next t ∧ VisFrame s t ∧ visWork t.dev e 2 = none
        ∧ (∀ j : Nat, j ≠ 128 * e + c → mapGet {} j t.dev.vis = mapGet {} j s.dev.vis)
        ∧ getVis t.dev e c = { x with
            tstop := some m.tstop
            phase := if x.phase = wait ∧ m.tstop ≠ 0 then wait + 1 else x.phase
            consumed := x.consumed + 1, abandoned := x.abandoned + 1 })))
  ∧ (∀ (s : State) (q : Fin 4) (flow : Bool) (vx : Fin 5) (c : Nat),
    let e := engOf q (4 + b2n flow)
    let now := visNow s.dev e (getVis s.dev e c) vx
    engineIdle s.dev e 2 = true → noGrants s.dev e vx = true → refinableCtxs s.dev e = [c] →
    ∃ t, exec (.refineTileStart q flow vx) s = .next t
      ∧ t = { s with dev := { s.dev with eng := t.dev.eng, rr := t.dev.rr } }
      ∧ visWork t.dev e 2 = some { ctx := c, unit := 0, began := s.dev.dt, due := now + headCost s.dev e (getVis s.dev e c)
                                   start := now, counted := now })
  ∧ (∀ (s : State) (q : Fin 4) (flow : Bool) (vx : Fin 5) (w : VisWork) (x : VisCtx),
    let e := engOf q (4 + b2n flow)
    noGrants s.dev e vx = true → unitDone s.dev e 2 vx (fun x _ d => [(patchAddr d e x, patchLen e)]) w x = true →
    ∃ t, exec (.refineTileWrite q flow vx) s = .next t ∧ UnitFrame s t e w.ctx 2
      ∧ (getVis t.dev e w.ctx).consumed = x.consumed + 1 ∧ (getVis t.dev e w.ctx).refined = x.refined + 1)
  ∧ (∀ (s : State) (q k : Fin 4) (c : Fin 64) (vx : Fin 5) (code : Nat) (i : InstRef) (tag : Nat) (b : Bool),
    let e := engOf q (4 + k.val)
    let x := getVis s.dev e c
    x.live = true → x.phase = (if k.val < 2 then 2 else 3) → noGrants s.dev e vx = true → visHas s.dev e 2 c = false →
    refineCode s.dev e x = some code → x.fold = none → x.starter = .drover i tag b →
    ∃ t, exec (.refineEnd q k c vx) s = .next t ∧ VisFrame s t ∧ getVis t.dev e c = {}
      ∧ (∀ j : Nat, j ≠ 128 * e + c → mapGet {} j t.dev.vis = mapGet {} j s.dev.vis)
      ∧ ∃ r, t.dev.fab.reports = s.dev.fab.reports ++ [r] ∧ r.inst = i ∧ r.tag = tag ∧ r.code = code ∧ r.final = true)
  ∧ (∀ (s : State) (q k : Fin 4) (c : Fin 64) (vx : Fin 5) (i : InstRef) (tag : Nat) (b : Bool),
    let e := engOf q (4 + k.val)
    let x := getVis s.dev e c
    x.live = true → x.phase = (if k.val < 2 then 1 else 2) → x.fold = none → x.starter = .drover i tag b → instLive s.dev i = false →
    s.dev.fab.stops.any (fun m => m.kind == .engine && m.unit == visUnit e && m.inst == i) = false →
    ∃ t, exec (.refineNoGrantFree q k c vx) s = .next t ∧ VisFrame s t ∧ getVis t.dev e c = {}
      ∧ (∀ j : Nat, j ≠ 128 * e + c → mapGet {} j t.dev.vis = mapGet {} j s.dev.vis)
      ∧ ∃ r, t.dev.fab.reports = s.dev.fab.reports ++ [r] ∧ r.inst = i ∧ r.tag = tag ∧ r.code = 5)

/-- R154, R158, R163-R166: a feature context's units of work, each of which leaves the other contexts and engines as they are: a level's next
tile row detected; the list formed from the cell store, where the context matches; the previous list indexed; the next feature of the list
matched; IDs given to unmatched features at the end of the pass, which reports to the tag, where no grant is held; a feature retried. The model's readings in it: log 39, 45 and 131. -/
def Obligations.FeatureUnits : Prop :=
  (∀ (s : State) (q : Fin 4) (k : Fin 2) (vx : Fin 5) (w : VisWork) (x : VisCtx),
    let e := engOf q (6 + k.val)
    unitDone s.dev e 0 vx (fun x w d => feaReads d e x w.unit) w x = true → w.unit < x.rows.length →
    ∃ t, exec (.feaDetectRowDone q k vx) s = .next t ∧ UnitFrame s t e w.ctx 0
      ∧ (getVis t.dev e w.ctx).rows = setAt w.unit (x.rows.getD w.unit 0 + 1) x.rows)
  ∧ (∀ (s : State) (q : Fin 4) (k : Fin 2) (vx : Fin 5) (w : VisWork) (x : VisCtx),
    let e := engOf q (6 + k.val)
    unitDone s.dev e 1 vx (fun x _ _ => storeReads x) w x = true → w.unit = 0 → feaMatch x = true →
    ∃ t, exec (.feaListWrite q k vx) s = .next t ∧ UnitFrame s t e w.ctx 1
      ∧ getVis t.dev e w.ctx = { feaFormList { x with cells := feaStore s.dev e x } with stage := 1 })
  ∧ (∀ (s : State) (q : Fin 4) (k : Fin 2) (vx : Fin 5) (w : VisWork) (x : VisCtx),
    let e := engOf q (6 + k.val)
    unitDone s.dev e 1 vx
      (fun x _ d => [(feaPrevList x, 64 + 64 * leNat (spadPeek d (e / 8) (feaPrevList x + 8) 2))]) w x = true → w.unit = 1 →
    ∃ t, exec (.feaIndexBuild q k vx) s = .next t ∧ UnitFrame s t e w.ctx 1
      ∧ (getVis t.dev e w.ctx).stage = 2 ∧ (getVis t.dev e w.ctx).next = 0
      ∧ (getVis t.dev e w.ctx).prev = feaPrevious s.dev e x)
  ∧ (∀ (s : State) (q : Fin 4) (k : Fin 2) (vx : Fin 5) (w : VisWork) (x : VisCtx),
    let e := engOf q (6 + k.val)
    unitDone s.dev e 1 vx (fun x _ d => indexReads x ++ (if x.b 0x34 ≠ 0xFF then
      [(inAddr d e x (x.b 0x34) (feaFlowRow x (featAt x x.next)), tileRowBytes (flowPlaneW x) 4)] else [])) w x = true → w.unit = 2 →
    ∃ t, exec (.feaMatchFeature q k vx) s = .next t ∧ UnitFrame s t e w.ctx 1
      ∧ (getVis t.dev e w.ctx).next = x.next + 1 ∧ (getVis t.dev e w.ctx).flows.length = x.flows.length + 1
      ∧ (getVis t.dev e w.ctx).list = setAt x.next (feaNextMatch s.dev e x).2.1 x.list)
  ∧ (∀ (s : State) (q : Fin 4) (k : Fin 2) (c : Fin 32) (vx : Fin 5) (i : InstRef) (tag : Nat) (b : Bool),
    let e := engOf q (6 + k.val)
    let x := getVis s.dev e c
    x.live = true → x.phase = 1 → x.stage = 2 → x.next = x.list.length → visWork s.dev e 1 = none → x.fold = none →
    x.tstop = none → x.starter = .drover i tag b → spadBad s.dev q (feaCounter x) 4 = false →
    ∃ t, exec (.feaTrackAssign q k c vx) s = .next t ∧ VisFrame s t
      ∧ (∀ j : Nat, j ≠ 128 * e + c → mapGet {} j t.dev.vis = mapGet {} j s.dev.vis)
      ∧ (getVis t.dev e c).phase = 2
      ∧ (getVis t.dev e c).list = (assignIds (leNat (spadPeek s.dev q (feaCounter x) 4)) x.list).1
      ∧ ∃ r, t.dev.fab.reports = s.dev.fab.reports ++ [r] ∧ r.inst = i ∧ r.tag = tag ∧ r.final = false)
  ∧ (∀ (s : State) (q : Fin 4) (k : Fin 2) (vx : Fin 5) (w : VisWork) (x : VisCtx),
    let e := engOf q (6 + k.val)
    noGrants s.dev e vx = true → unitDone s.dev e 2 vx (fun x _ _ => indexReads x) w x = true →
    ∃ t, exec (.feaRetryFeature q k vx) s = .next t ∧ UnitFrame s t e w.ctx 2
      ∧ (getVis t.dev e w.ctx).retried = x.retried + 1 ∧ (getVis t.dev e w.ctx).next = w.unit + 1)

namespace Sys2Proof.Claims

/-- A Drover's only issuable context is c, which issues the word w of opcode op in sequencer mode in this VX cycle (R180, R203). -/
def issues (d : Dev) (q vx op c w : Nat) : Bool :=
  decide ((getDrv d q).issueAt ≤ vxAt d vx) && (getSpd d q).initDone && (List.range 64).filter (fun k => issuable d q (getCtx d q k)) == [c]
    && !(getCtx d q c).chain && drvWord d q (getCtx d q c) == w && drvOp w == op

/-- The context after an instruction is y, and every other context of the quadrant is as it was; the Drover may issue again in the
next VX cycle (R180). -/
def Issued (s t : State) (q vx c : Nat) (y : DrvCtx) : Prop :=
  getCtx t.dev q c = y ∧ (∀ k < 64, k ≠ c → getCtx t.dev q k = getCtx s.dev q k) ∧ (getDrv t.dev q).issueAt = vxAt s.dev vx + 1

/-- The context with its program counter moved on. -/
def next (s : State) (q c : Nat) : DrvCtx := { getCtx s.dev q c with pc := (getCtx s.dev q c).pc + 1 }

/-- What an instruction that acts on its context alone may change: contexts, the Drover, counters, and the sampler of the PMU. -/
def DrvFrame (s t : State) : Prop :=
  t = { s with dev := { s.dev with ctxs := t.dev.ctxs, drv := t.dev.drv, regs := t.dev.regs, cnts := t.dev.cnts, pmu := t.dev.pmu
                                   rr := t.dev.rr } }

/-- What an instruction that starts, stops or asks another unit may change beside: messages, pipe contexts, the registers of a DMA
channel and its sets, a controller's queue, the reading of scratchpad, IDLE's exit. -/
def DrvSendFrame (s t : State) : Prop :=
  t = { s with dev := { s.dev with ctxs := t.dev.ctxs, drv := t.dev.drv, regs := t.dev.regs, cnts := t.dev.cnts, pmu := t.dev.pmu
                                   rr := t.dev.rr, fab := t.dev.fab, wakeAt := t.dev.wakeAt, i3c := t.dev.i3c, mem := t.dev.mem
                                   spd := t.dev.spd, dma := t.dev.dma, serial := t.dev.serial, isp := t.dev.isp, rx := t.dev.rx
                                   threads := t.dev.threads } }
  ∧ SameDram s.dev t.dev

/-- A sealed record of an instance among those of a state (R187, R188). -/
def Sealed (t : State) (kind reason : Nat) (x : DrvCtx) : Prop :=
  ∃ o ∈ t.dev.outcomes, o.kind = kind ∧ o.reason = reason ∧ o.stream = x.stream ∧ o.index = x.index

end Sys2Proof.Claims

/-- R180, R182: NOP, LINK in sequencer mode, JOIN, WAITANY, WAITDT, BR, BROUT and EMIT, issued by the Drover's only issuable context, act on that
context as R182 says; beside it only the Drover's issue time and arbitration, counters and the PMU may change. The model's readings in it: log 48 and 51. -/
def Obligations.DroverFlowInstructions : Prop :=
  ∀ (s : State) (q : Fin 4) (vx : Fin 5) (c w : Nat),
    (issues s.dev q vx 0x00 c w = true → ∃ t, exec (.drvNop q vx) s = .next t ∧ DrvFrame s t ∧ Issued s t q vx c (next s q c))
    ∧ (issues s.dev q vx 0x15 c w = true → ∃ t, exec (.drvLink q vx) s = .next t ∧ DrvFrame s t ∧ Issued s t q vx c (next s q c))
    ∧ (issues s.dev q vx 0x01 c w = true → ∃ t, exec (.drvJoin q vx) s = .next t ∧ DrvFrame s t
        ∧ Issued s t q vx c (DrvCtx.wake { next s q c with wait := .join (BitVec.ofNat 32 (drvC w)) }))
    ∧ (issues s.dev q vx 0x02 c w = true → ∃ t, exec (.drvWaitany q vx) s = .next t ∧ DrvFrame s t
        ∧ Issued s t q vx c (DrvCtx.wake { next s q c with wait := .waitAny (drvA w % 16) (BitVec.ofNat 32 (drvC w)) }))
    ∧ (issues s.dev q vx 0x03 c w = true → ∃ t, exec (.drvWaitdt q vx) s = .next t ∧ DrvFrame s t
        ∧ Issued s t q vx c (if (getCtx s.dev q c).fs + drvC w ≤ s.dev.dt then next s q c
            else { next s q c with wait := .waitDt ((getCtx s.dev q c).fs + drvC w) }))
    ∧ (issues s.dev q vx 0x07 c w = true → ∃ t, exec (.drvBr q vx) s = .next t ∧ DrvFrame s t
        ∧ Issued s t q vx c { next s q c with pc := drvB w })
    ∧ (issues s.dev q vx 0x08 c w = true → ∃ t, exec (.drvBrout q vx) s = .next t ∧ DrvFrame s t
        ∧ Issued s t q vx c (if (getCtx s.dev q c).tagCode.getD (bits (drvA w) 0 5) 0 = 0 then next s q c
            else { next s q c with pc := drvB w }))
    ∧ (issues s.dev q vx 0x13 c w = true → ∃ t, exec (.drvEmit q vx) s = .next t ∧ DrvFrame s t
        ∧ Issued s t q vx c { next s q c with wait := .emit (drvB w % 4) })

/-- R182, R185, R89, R200: LDS, MOVI, ADDI, BRCMP and SLACK, issued by the Drover's only issuable context, write that context's Vn, pc, T_stop and
flags as R182 and R185 say; an LDS of an uncorrectable word voids its instance with reason 3; SIGNAL stamps the instance's frame as flow
complete. The model's readings in it: log 48 and 50. -/
def Obligations.DroverDataInstructions : Prop :=
  ∀ (s : State) (q : Fin 4) (vx : Fin 5) (c w : Nat),
    let x := getCtx s.dev q c
    let n := drvA w % 16
    (issues s.dev q vx 0x0A c w = true → ∃ t, exec (.drvMovi q vx) s = .next t ∧ DrvFrame s t
        ∧ Issued s t q vx c { next s q c with v := setAt n (BitVec.ofNat 32 (drvC w)) x.v })
    ∧ (issues s.dev q vx 0x0B c w = true → ∃ t, exec (.drvAddi q vx) s = .next t ∧ DrvFrame s t
        ∧ Issued s t q vx c { next s q c with v := setAt n (x.v.getD n 0 + BitVec.ofNat 32 (drvC w)) x.v })
    ∧ (issues s.dev q vx 0x0C c w = true → ∃ t, exec (.drvBrcmp q vx) s = .next t ∧ DrvFrame s t
        ∧ Issued s t q vx c (if brCond (bits (drvA w) 4 3) (x.v.getD n 0) (BitVec.ofNat 32 (drvC w)) = true
            then { next s q c with pc := drvB w } else next s q c))
    ∧ (issues s.dev q vx 0x0D c w = true → ∃ t, exec (.drvSlack q vx) s = .next t ∧ DrvFrame s t
        ∧ Issued s t q vx c (if s.dev.dt + (drvC w + instReserve s.dev (ctxRef s.dev q c)) < x.dl
            then { next s q c with tStop := x.dl - (drvC w + instReserve s.dev (ctxRef s.dev q c)) }
            else { next s q c with tStop := 0, flags := x.flags ||| 16, pc := drvB w }))
    ∧ (issues s.dev q vx 0x12 c w = true → ∃ t, exec (.drvSignal q vx) s = .next t ∧ Issued s t q vx c (next s q c)
        ∧ t = { s with dev := { s.dev with
            ctxs := t.dev.ctxs, drv := t.dev.drv, regs := t.dev.regs, cnts := t.dev.cnts, pmu := t.dev.pmu, rr := t.dev.rr
            flowDone := mapUpd [] x.stream (fun l => (x.index, s.dev.dt) :: l.take 7) s.dev.flowDone } })
    ∧ (issues s.dev q vx 0x09 c w = true → spadBad s.dev q (8 * bits (drvC w) 0 23) 8 = false →
        ∃ t, exec (.drvLds q vx) s = .next t ∧ DrvSendFrame s t ∧ SameSpad s.dev t.dev ∧ t.dev.fab = s.dev.fab
        ∧ Issued s t q vx c { next s q c with
            v := setAt n (BitVec.ofNat 32 (bits (leNat (spadPeek s.dev q (8 * bits (drvC w) 0 23) 8)) (bits (drvB w) 0 6)
              (bits (drvB w) 6 5 + 1))) x.v })
    ∧ (issues s.dev q vx 0x09 c w = true → spadBad s.dev q (8 * bits (drvC w) 0 23) 8 = true → s.dev.dt + 2 < x.dl →
        ∃ t, exec (.drvLds q vx) s = .next t ∧ (getCtx t.dev q c).live = false ∧ Sealed t 2 3 x ∧ t.fuse = s.fuse ∧ t.pending = s.pending)

/-- R17, R21, R183, R185, R228, R323: START, POST, GRANT and TRUNC send their message in the order of issue with the instance's deadline and tag, and STARTDMA
starts the channel of its own quadrant, free and of a good shape, with the image that it reads, or sends the image to a channel of
another quadrant; the context keeps a started unit. A grant arrives after the control message's latency. The model's readings in it: log 44 and 48. -/
def Obligations.DroverStartInstructions : Prop :=
  ∀ (s : State) (q : Fin 4) (vx : Fin 5) (c w : Nat),
    let x := getCtx s.dev q c
    let i := ctxRef s.dev q c
    let tag := bits (drvB w) 0 5
    let f := s.dev.fab
    (issues s.dev q vx 0x04 c w = true → ∃ t, exec (.drvStart q vx) s = .next t ∧ DrvSendFrame s t ∧ t.dev.mem = s.dev.mem
        ∧ Issued s t q vx c { next s q c with units := x.units ++ [⟨startUnit (drvA w), drvA w, tag⟩] }
        ∧ t.dev.fab = { f with
            sent := f.sent + 1
            starts := f.starts ++ [{ unit := drvA w, desc := bits (drvC w) 0 23, dl := x.dl, starter := .drover i tag (bit (drvB w) 8)
                                     plane := some x.plane, seq := f.sent }] })
    ∧ (let ch := 64 * (drvA w % 4) + bits (drvB w) 8 6
       let a := 8 * bits (drvC w) 0 23
       let d1 := loadStaging ch (spadPeek s.dev q a 128) s.dev
       let set : DmaSet := { no := s.dev.serial, regs := stagingRegs d1 ch, dl := x.dl, starter := .drover i tag false }
       issues s.dev q vx 0x05 c w = true → spadBad s.dev q a 128 = false → drvA w % 4 = q → getCh s.dev ch = {} →
        dmaShapeOk d1 ch set = true →
        ∃ t, exec (.drvStartdma q vx) s = .next t ∧ DrvSendFrame s t ∧ SameSpad s.dev t.dev ∧ t.dev.fab = f
        ∧ Issued s t q vx c { next s q c with units := x.units ++ [⟨.dma, ch, tag⟩] }
        ∧ ∃ y, (getCh t.dev ch).active = some y ∧ y.no = set.no ∧ y.regs = set.regs ∧ y.dl = set.dl ∧ y.starter = set.starter)
    ∧ (let ch := 64 * (drvA w % 4) + bits (drvB w) 8 6
       let a := 8 * bits (drvC w) 0 23
       issues s.dev q vx 0x05 c w = true → spadBad s.dev q a 128 = false → drvA w % 4 ≠ q →
        ∃ t, exec (.drvStartdma q vx) s = .next t ∧ DrvSendFrame s t ∧ SameSpad s.dev t.dev
        ∧ Issued s t q vx c { next s q c with units := x.units ++ [⟨.dma, ch, tag⟩] }
        ∧ t.dev.fab = { f with
            sent := f.sent + 1
            dmaStarts := f.dmaStarts ++ [{ ch := ch, image := spadPeek s.dev q a 128, dl := x.dl, starter := .drover i tag false
                                           seq := f.sent }] })
    ∧ (let a := 8 * bits (drvC w) 0 23
       issues s.dev q vx 0x06 c w = true → spadBad s.dev q a 16 = false →
        ∃ t, exec (.drvPost q vx) s = .next t ∧ DrvSendFrame s t ∧ SameSpad s.dev t.dev
        ∧ Issued s t q vx c { next s q c with
            units := x.units ++ [⟨.post, drvA w % 4, tag⟩]
            posted := if x.posted.contains (drvA w % 4) then x.posted else x.posted ++ [drvA w % 4] }
        ∧ t.dev.fab = { f with posts := f.posts ++
            [{ q := drvA w % 4, src := 164 + q.val, ev := { eventOf (spadPeek s.dev q a 16) with dl32 := x.dl % 2 ^ 32 }, dl := x.dl
               attach := some i, tag := some (i, tag) }] })
    ∧ (∀ u, issues s.dev q vx 0x0E c w = true → taggedEngine s.dev i (bits (drvA w) 0 5) = some u →
        let to_ := if bit (drvB w) 0 then 0 else x.tStop
        let rest := x.granted.filter (· != bits (drvA w) 0 5)
        ∃ t, exec (.drvGrant q vx) s = .next t ∧ DrvSendFrame s t ∧ t.dev.mem = s.dev.mem
        ∧ Issued s t q vx c { next s q c with granted := if to_ = 0 then rest else rest ++ [bits (drvA w) 0 5] }
        ∧ t.dev.fab = { f with
            sent := f.sent + 1
            grants := f.grants ++ [{ unit := u.idx, inst := i, tag := bits (drvA w) 0 5, tstop := to_
                                     due := vxAt s.dev vx + ctlLatency q u.idx, seq := f.sent }] })
    ∧ (∀ u, issues s.dev q vx 0x0F c w = true → taggedEngine s.dev i (bits (drvA w) 0 5) = some u →
        ∃ t, exec (.drvTrunc q vx) s = .next t ∧ DrvSendFrame s t ∧ t.dev.mem = s.dev.mem ∧ Issued s t q vx c (next s q c)
        ∧ t.dev.fab = { f with
            sent := f.sent + 1
            truncs := f.truncs ++ [{ unit := u.idx, inst := i, tag := bits (drvA w) 0 5, seq := f.sent }] })

/-- R182, R184, R195: WREG writes Vn, as data of its frame, to a context register of a home pipe or to TX_LO, TX_HI or REG of a sensor controller, or
commits that pipe context, or pushes Vn with the instance's stream to a controller's queue that has room; at any other register it is
discarded, flagged and counted. COMMIT makes the shadow set pending; VOID seals the instance with its reason. The model's readings in it: log 48 and 52. -/
def Obligations.DroverWritesAndVoids : Prop :=
  ∀ (s : State) (q : Fin 4) (vx : Fin 5) (c w : Nat),
    let x := getCtx s.dev q c
    let v := x.v.getD (drvA w % 16) 0
    (∀ r, issues s.dev q vx 0x10 c w = true → wregTarget q (drvC w) = some r → r.off ≠ (if r.blk = .cci then 0x14 else 4) →
        s.dev.pow.hubUp = true →
        ∃ t, exec (.drvWreg q vx) s = .next t ∧ DrvSendFrame s t
        ∧ Issued s t q vx c { next s q c with digest := x.digest ++ [⟨drvC w, v, 0, 0⟩] }
        ∧ regRaw t.dev (drvC w) = regRaw (storeFields (drvC w) v s.dev) (drvC w)
        ∧ SameRegsBut [drvC w, addrOf .pmu q 4] s.dev t.dev)
    ∧ (∀ r, issues s.dev q vx 0x10 c w = true → wregTarget q (drvC w) = some r → r.blk = .ispCtx → r.off = 4 → setBit v 0 = true →
        s.dev.pow.hubUp = true →
        ∃ t, exec (.drvWreg q vx) s = .next t ∧ DrvSendFrame s t
        ∧ Issued s t q vx c { next s q c with digest := x.digest ++ [⟨drvC w, v, 0, 0⟩] }
        ∧ getIsp t.dev r.idx = { getIsp s.dev r.idx with
            pending := (((getIsp s.dev r.idx).pending.filter (fun p => p.1 < s.dev.dt)).getLast?).toList
              ++ [(s.dev.dt, shadowSet s.dev r.idx)] })
    ∧ (∀ r, issues s.dev q vx 0x10 c w = true → wregTarget q (drvC w) = some r → r.blk = .cci → r.off = 0x14 → s.dev.pow.hubUp = true →
        (getCci s.dev r.idx).queue.length < 32 →
        let u : W32 := BitVec.ofNat 32 (putBits v.toNat 16 8 x.stream)
        let y := cciXferOf s.dev r.idx u (cciTx s.dev r.idx) (.drover (ctxRef s.dev q c))
        ∃ t l, exec (.drvWreg q vx) s = .next t ∧ DrvSendFrame s t
        ∧ Issued s t q vx c { next s q c with digest := x.digest ++ [⟨cciCmdAddr r.idx, u, 0, 0⟩] }
        ∧ (getCci t.dev r.idx).queue = (getCci s.dev r.idx).queue.filter (fun z => z.cycle != y.cycle) ++ l
        ∧ l.Perm ((getCci s.dev r.idx).queue.filter (fun z => z.cycle == y.cycle) ++ [y]))
    ∧ (issues s.dev q vx 0x10 c w = true → wregTarget q (drvC w) = none →
        ∃ t, exec (.drvWreg q vx) s = .next t ∧ DrvSendFrame s t
        ∧ Issued s t q vx c { next s q c with digest := x.digest ++ [⟨drvC w, v, 0, 1⟩] }
        ∧ cntAt t.dev (addrOf .drv q 0x3C) = cntAt s.dev (addrOf .drv q 0x3C) + 1 ∧ getF t.dev .drv q 0x10 1 1 = 1
        ∧ SameRegsBut [addrOf .drv q 0x10, addrOf .pmu q 4] s.dev t.dev)
    ∧ (let k := 16 * (4 * q.val + drvA w % 4) + drvB w % 16
       issues s.dev q vx 0x11 c w = true → s.dev.pow.hubUp = true →
        ∃ t, exec (.drvCommit q vx) s = .next t ∧ DrvSendFrame s t
        ∧ Issued s t q vx c { next s q c with digest := x.digest ++ [⟨ispCommitAddr k, 1, 0, 0⟩] }
        ∧ getIsp t.dev k = { getIsp s.dev k with
            pending := (((getIsp s.dev k).pending.filter (fun p => p.1 < s.dev.dt)).getLast?).toList ++ [(s.dev.dt, shadowSet s.dev k)] })
    ∧ (issues s.dev q vx 0x14 c w = true → s.dev.dt + 2 < x.dl →
        ∃ t, exec (.drvVoid q vx) s = .next t ∧ (getCtx t.dev q c).live = false ∧ Sealed t 2 (voidReason (drvC w)) x
        ∧ t.fuse = s.fuse ∧ t.pending = s.pending)

/-- R177, R178, R171, R176, R203: in a quadrant with its scratchpad initialised a notice that finds the Drover free, outside a power fail, goes into test
for its cycles; at the test's end a frame that no cause or message has come before is admitted into a context that was not held, which
begins a graph in sequencer mode at its entry; or the frame is refused with the test's reason, 33 where the stream has no graph; a
reservation that nothing uses for 2 * P_min is released. The model's readings in it: log 46, 47 and 50. -/
def Obligations.DroverAdmits : Prop :=
  (∀ (s : State) (q : Fin 4) (batch : Nat) (vx : Fin 5) (n : FsNotice), (s.dev.fab.notices.filter (fun m => m.q == q.val)).take batch = [n] →
    (getSpd s.dev q).initDone = true → s.dev.pow.fail = none → (getDrv s.dev q).test = none → (getDrv s.dev q).waiting = [] →
    ∃ t, exec (.fsNotice q batch vx) s = .next t
      ∧ t = { s with dev := { s.dev with drv := t.dev.drv, fab := t.dev.fab, rr := t.dev.rr, wakeAt := t.dev.wakeAt
                                         regs := t.dev.regs, cnts := t.dev.cnts, i3c := t.dev.i3c } }
      ∧ t.dev.fab = { s.dev.fab with notices := s.dev.fab.notices.filter (fun m => m != n) }
      ∧ getDrv t.dev q = { getDrv s.dev q with test := some (n, vxAt s.dev vx + testCycles s.dev n) })
  ∧ (∀ (s : State) (q : Fin 4) (vx : Fin 5) (n : FsNotice) (at_ : Nat) (g : Graph), (getDrv s.dev q).test = some (n, at_) →
    at_ ≤ vxAt s.dev vx → (getSpd s.dev q).initDone = true →
    noticeGraph s.dev n = some g → admissionTest s.dev q n g = .accepted → g.mode ≠ 0 →
    s.dev.rx.early = [] → s.dev.rx.earlyFlags = [] → (getDrv s.dev q).groups = [] → s.dev.peer.aborts = [] → s.dev.cfg.ispInit = [] →
    ∃ t c, exec (.admissionDecision q vx) s = .next t ∧ t.fuse = s.fuse ∧ t.pending = s.pending ∧ c < 64 ∧ (getCtx s.dev q c).held = false
      ∧ getCtx t.dev q c =
          { live := true, held := true, serial := s.dev.serial, pc := g.entry, dl := n.fs + g.bound, fs := n.fs, index := n.index
            stream := n.stream, gid := n.gid, plane := n.plane, gen := (planeOf s.dev n.plane).gen, chain := false }
      ∧ (∀ k < 64, k ≠ c → getCtx t.dev q k = getCtx s.dev q k)
      ∧ t.dev.mem = s.dev.mem ∧ t.dev.log = s.dev.log ∧ t.dev.outcomes = s.dev.outcomes)
  ∧ (∀ (s : State) (q : Fin 4) (vx : Fin 5) (n : FsNotice) (at_ : Nat), (getDrv s.dev q).test = some (n, at_) →
    at_ ≤ vxAt s.dev vx → (getSpd s.dev q).initDone = true → noticeGraph s.dev n = none →
    ∃ t, exec (.admissionDecision q vx) s = .next t ∧ t.fuse = s.fuse ∧ t.pending = s.pending ∧ t.dev.ctxs = s.dev.ctxs
      ∧ ∃ o ∈ t.dev.outcomes, o.kind = 3 ∧ o.reason = 33 ∧ o.gid = 0xFFFF ∧ o.stream = n.stream ∧ o.index = n.index)
  ∧ (∀ (s : State) (q : Fin 4) (vx : Fin 5) (n : FsNotice) (at_ : Nat) (g : Graph) (reason sub extra : Nat),
    (getDrv s.dev q).test = some (n, at_) → at_ ≤ vxAt s.dev vx → (getSpd s.dev q).initDone = true →
    noticeGraph s.dev n = some g → admissionTest s.dev q n g = .refuse reason sub extra →
    ∃ t, exec (.admissionDecision q vx) s = .next t ∧ t.fuse = s.fuse ∧ t.pending = s.pending ∧ t.dev.ctxs = s.dev.ctxs
      ∧ ∃ o ∈ t.dev.outcomes, o.kind = 3 ∧ o.reason = reason ∧ o.stream = n.stream ∧ o.index = n.index ∧ o.extra = extra)
  ∧ (∀ (s : State) (q : Fin 4) (stream : Fin 256),
    ∃ t, exec (.reservationRelease q stream) s = .next t ∧ t = { s with dev := { s.dev with drv := t.dev.drv } }
      ∧ (getDrv t.dev q).resv = (getDrv s.dev q).resv.filter (fun v => v.stream != stream.val || !resvOver s.dev v))

/-- R181, R182, R187, R198: a report that gives no cause of a void, of a unit of a live instance, sets its event bit and status code, and a final one takes the unit
from its context; WAITDT ends at its DT; a drained instance is sealed RESULT, one at its deadline - 2 is void with reason 1, and an ABORT
before that voids with reason 11. The model's readings in it: log 50 and 51. -/
def Obligations.DroverInstancesEnd : Prop :=
  (∀ (s : State) (q : Fin 4) (r : TagReport) (rest : List TagReport),
    takeFirst (fun r : TagReport => r.inst.q == q.val) s.dev.fab.reports = some (r, rest) → instLive s.dev r.inst = true → r.void = none →
    let y := takeReport r (getCtx s.dev q r.inst.ctx)
    ∃ t, exec (.tagReport q) s = .next t
      ∧ t = { s with dev := { s.dev with ctxs := t.dev.ctxs, pmu := t.dev.pmu, fab := { s.dev.fab with reports := rest } } }
      ∧ (instHeld s.dev r.inst = true →
          getCtx t.dev q r.inst.ctx = { y with units := if r.final then dropUnit r.tag y.units else y.units })
      ∧ (r.setsEv = true → (getCtx t.dev q r.inst.ctx).ev =
          (getCtx s.dev q r.inst.ctx).ev ||| BitVec.ofNat 32 (2 ^ r.tag)))
  ∧ (∀ (s : State) (q : Fin 4) (c : Fin 64) (at_ : Nat), (getCtx s.dev q c).wait = .waitDt at_ → at_ ≤ s.dev.dt →
    ∃ t, exec (.drvWaitdtExpiry q c) s = .next t
      ∧ t = { s with dev := { s.dev with ctxs := t.dev.ctxs, cnts := t.dev.cnts, pmu := t.dev.pmu } }
      ∧ getCtx t.dev q c = { getCtx s.dev q c with wait := .run } ∧ ∀ k < 64, k ≠ c.val → getCtx t.dev q k = getCtx s.dev q k)
  ∧ (∀ (s : State) (q : Fin 4) (c : Fin 64) (g : Nat), (getCtx s.dev q c).wait = .emit g → (getCtx s.dev q c).live = true →
    s.dev.dt + 3 ≤ (getCtx s.dev q c).dl → instDrained s.dev (ctxRef s.dev q c) = true →
    ∃ t, exec (.drvEmitDrainEnd q c) s = .next t ∧ (getCtx t.dev q c).live = false ∧ Sealed t 1 0 (getCtx s.dev q c)
      ∧ t.fuse = s.fuse ∧ t.pending = s.pending ∧ SameDram s.dev t.dev)
  ∧ (∀ (s : State) (q : Fin 4) (c : Fin 64), (getCtx s.dev q c).live = true → (getCtx s.dev q c).dl ≤ s.dev.dt + 2 →
    ∃ t, exec (.deadlineVoid q c) s = .next t ∧ (getCtx t.dev q c).live = false ∧ Sealed t 2 1 (getCtx s.dev q c)
      ∧ t.fuse = s.fuse ∧ t.pending = s.pending ∧ SameDram s.dev t.dev)
  ∧ (∀ (s : State) (b : WriteBy) (q : Fin 4) (v : W32), writesNow s b (drvAbortAddr q) = true → setBit v 31 = true →
    (getCtx s.dev q (fld v 0 6)).live = true → s.dev.dt + 2 < (getCtx s.dev q (fld v 0 6)).dl →
    ∃ t, exec (.drvAbort b q v) s = .next t ∧ (getCtx t.dev q (fld v 0 6)).live = false
      ∧ Sealed t 2 11 (getCtx s.dev q (fld v 0 6)) ∧ SameDram s.dev t.dev)

namespace Sys2Proof.Claims

/-- What a command of the folds may change. -/
def FoldFrame (s t : State) : Prop :=
  t = { s with dev := { s.dev with wakeAt := t.dev.wakeAt, serial := t.dev.serial, regs := t.dev.regs, cnts := t.dev.cnts
                                   mem := t.dev.mem, fab := t.dev.fab, i3c := t.dev.i3c, ctxs := t.dev.ctxs, regions := t.dev.regions
                                   audit := t.dev.audit, flocks := t.dev.flocks, folds := t.dev.folds, spd := t.dev.spd
                                   dma := t.dev.dma, tx := t.dev.tx, peer := t.dev.peer, memsys := t.dev.memsys, eng := t.dev.eng
                                   vis := t.dev.vis, me := t.dev.me, threads := t.dev.threads, pmu := t.dev.pmu, rr := t.dev.rr
                                   outcomes := t.dev.outcomes } }
  ∧ t.dev.mem.dram = s.dev.mem.dram

/-- A command that changes a fold's record alone, with its counters. -/
def FoldOnly (s t : State) : Prop := t = { s with dev := { s.dev with folds := t.dev.folds, cnts := t.dev.cnts } }

/-- A scrub turn of a bank is due, the cycle is open, and the bank has served nobody in it (R202). -/
def scrubDue (d : Dev) (q bank mx : Nat) : Bool :=
  (getSpd d q).initDone && decide (bank ≤ mxAt d mx) && openCycle d q (mxAt d mx) false
    && mapGet 0 bank (getSpd d q).scrubbed != scrubTurn (mxAt d mx) bank + 1
    && !(servedIn (getSpd d q) (mxAt d mx)).contains bank

end Sys2Proof.Claims

/-- R202, R203: the scrubber corrects a row in an open cycle and goes on to the next row; a row with an uncorrectable quarter it leaves as it
is, posts and goes on too; initialisation leaves every byte of the quadrant zero with valid check bits, and other quadrants as they were. The model's readings in it: log 55. -/
def Obligations.ScratchpadScrubAndInit : Prop :=
  (∀ (s : State) (q : Fin 4) (bank : Fin 1024) (mx : Fin 10),
    let row := mapGet 0 bank.val (getSpd s.dev q).scrub
    scrubDue s.dev q bank mx = true → (rowQuarters bank row).all (fun k => quarterState s.dev q k != 2) = true →
    ∃ t, exec (.scrubCycle q bank mx) s = .next t
      ∧ t = { s with dev := { s.dev with mem := t.dev.mem, spd := t.dev.spd, regs := t.dev.regs, cnts := t.dev.cnts } }
      ∧ SameSpad s.dev t.dev ∧ SameDram s.dev t.dev
      ∧ (∀ k ∈ rowQuarters bank row, quarterState t.dev q k = 0)
      ∧ mapGet 0 bank.val (getSpd t.dev q).scrub = (row + 1) % 1024
      ∧ cntAt t.dev (addrOf .spd q 0x28) = cntAt s.dev (addrOf .spd q 0x28) + 1)
  ∧ (∀ (s : State) (q : Fin 4) (bank : Fin 1024) (mx : Fin 10),
    let row := mapGet 0 bank.val (getSpd s.dev q).scrub
    scrubDue s.dev q bank mx = true → (rowQuarters bank row).any (fun k => quarterState s.dev q k == 2) = true →
    ∃ t p, exec (.scrubCycle q bank mx) s = .next t
      ∧ t = { s with dev := { s.dev with fab := t.dev.fab, spd := t.dev.spd, regs := t.dev.regs, cnts := t.dev.cnts, i3c := t.dev.i3c } }
      ∧ mapGet 0 bank.val (getSpd t.dev q).scrub = (row + 1) % 1024 ∧ t.dev.fab = { s.dev.fab with posts := s.dev.fab.posts ++ [p] } ∧ p.q = q ∧ p.ev.typ = 9 ∧ p.ev.payload = rowWord bank row
      ∧ cntAt t.dev (addrOf .spd q 0x24) = cntAt s.dev (addrOf .spd q 0x24) + 1)
  ∧ (∀ (s : State) (q : Fin 4) (e : Nat), (getSpd s.dev q).initEnd = some e → e ≤ s.dev.dt →
    ∃ t, exec (.spdInitDone q) s = .next t ∧ t = { s with dev := { s.dev with mem := t.dev.mem, spd := t.dev.spd } }
      ∧ SameDram s.dev t.dev ∧ getSpd t.dev q = { getSpd s.dev q with initDone := true, initEnd := none }
      ∧ (∀ a, spadByte t.dev q a = 0) ∧ (∀ k, quarterState t.dev q k = 0)
      ∧ (∀ p a : Nat, p < 4 → p ≠ q → spadByte t.dev p a = spadByte s.dev p a ∧ quarterState t.dev p a = quarterState s.dev p a))

/-- R227, R200, R206: an injection waits and then flips one or two stored bits of a word, which makes a clean quarter correctable or
uncorrectable and changes no written data; REGr.CTL zeroes the region's pointers and audit tags; the open pool grants a general core's load its data. The model's readings in it: log 57. -/
def Obligations.ScratchpadAccess : Prop :=
  (∀ (s : State) (b : WriteBy) (q : Fin 4) (v : W32), writesNow s b (injectAddr q) = true → setBit v 31 = true →
    fld v 24 2 = 1 ∨ fld v 24 2 = 2 →
    ∃ t, exec (.spdInject b q v) s = .next t
      ∧ t = { s with dev := { s.dev with spd := t.dev.spd, cnts := t.dev.cnts, log := t.dev.log, ctxs := t.dev.ctxs } }
      ∧ getSpd t.dev q = { getSpd s.dev q with inject := (getSpd s.dev q).inject ++ [(fld v 0 23, fld v 24 2)] })
  ∧ (∀ (s : State) (q : Fin 4) (mx : Fin 10) (w n : Nat) (r : List (Nat × Nat)), (getSpd s.dev q).inject = (w, n) :: r →
    openCycle s.dev q (mxAt s.dev mx) true = true → quarterState s.dev q (w / 2) = 0 → n = 1 ∨ n = 2 →
    ∃ t, exec (.spdInjectApply q mx) s = .next t ∧ t = { s with dev := { s.dev with mem := t.dev.mem, spd := t.dev.spd } }
      ∧ (getSpd t.dev q).inject = r ∧ SameSpad s.dev t.dev ∧ SameDram s.dev t.dev ∧ quarterState t.dev q (w / 2) = n)
  ∧ (∀ (s : State) (b : WriteBy) (q : Fin 4) (r : Fin 256) (v : W32), writesNow s b (regCtlAddr q r) = true → setBit v 0 = true →
    ∃ t, exec (.regionReset b q r v) s = .next t
      ∧ t = { s with dev := { s.dev with regions := t.dev.regions, audit := t.dev.audit, flocks := t.dev.flocks, cnts := t.dev.cnts
                                         log := t.dev.log, ctxs := t.dev.ctxs } }
      ∧ getRegion t.dev q r = { getRegion s.dev q r with h := 0, t := 0 }
      ∧ (∀ p k : Nat, p < 4 → k < 256 → (p, k) ≠ (q.val, r.val) → getRegion t.dev p k = getRegion s.dev p k)
      ∧ ∀ slot < 32768, auditTag t.dev q r slot = {})
  ∧ (∀ (s : State) (q : Fin 4) (mx : Fin 10) (r : PoolReq) (d1 : Dev),
    let n := 16 * r.gc + r.thread
    let bytes := spadPeek s.dev q (spadOf r.acc.addr) r.acc.size
    (getSpd s.dev q).initDone = true → openCycle s.dev q (mxAt s.dev mx) true = true →
    traceExpire q (mxAt s.dev mx) s.dev = s.dev → poolWinner q (mxAt s.dev mx) s.dev = some (r, d1) → r.unit = none → gcQuad n = q →
    r.acc.op < 3 →
    spadBad s.dev q (spadOf r.acc.addr) r.acc.size = false →
    ∃ t, exec (.openPoolGrant q mx) s = .next t
      ∧ t = { s with dev := { s.dev with regs := t.dev.regs, cnts := t.dev.cnts, mem := t.dev.mem, i3c := t.dev.i3c, spd := t.dev.spd
                                         threads := t.dev.threads, pmu := t.dev.pmu, rr := t.dev.rr } }
      ∧ SameSpad s.dev t.dev ∧ SameDram s.dev t.dev ∧ (getSpd t.dev q).pool = (getSpd s.dev q).pool.erase r
      ∧ (getThread t.dev n).x = (gcLoaded r.acc.op r.acc.rd r.acc.size (leNat bytes) (getThread s.dev n)).x
      ∧ (getThread t.dev n).f = (gcLoaded r.acc.op r.acc.rd r.acc.size (leNat bytes) (getThread s.dev n)).f
      ∧ (getThread t.dev n).park = .none)

/-- R217, R226, R225: a start with correctable descriptors becomes the next run of an idle fold, on its plane; the run begins at a wheel count
that is a multiple of 16 with its members between units; it ends when its cycles have passed and its units with them, or, stopped, when
its members are done, and its starter gets the code of the stop or 0; STOP and a void's stop stop a run with codes 3 and 1. The model's readings in it: log 60. -/
def Obligations.FoldRunsStartAndEnd : Prop :=
  (∀ (s : State) (q : Fin 4) (f : Fin 16) (mx : Fin 10) (m : StartMsg) (rest : List StartMsg) (st : FoldStartRec),
    (getFold s.dev q f).overflow = [] → (getFold s.dev q f).run = none → (getFold s.dev q f).next = none →
    (getSpd s.dev q).initDone = true →
    takeFirst (fun m : StartMsg => m.unit == foldUnitNo q f && startReady s.dev m) s.dev.fab.starts = some (m, rest) →
    (copyStart q f m s.dev).1 = some st → st.bad = false →
    ∃ t, exec (.foldStart q f mx) s = .next t ∧ FoldFrame s t ∧ t.dev.fab.starts = rest
      ∧ (getFold t.dev q f).next = some { st with plane := startPlane q f st s.dev } ∧ (getFold t.dev q f).run = none)
  ∧ (∀ (s : State) (q : Fin 4) (f : Fin 16) (mx : Fin 10) (st : FoldStartRec) (r : FoldRec), (getFold s.dev q f).run = none →
    (getFold s.dev q f).next = some st → startPlane q f st s.dev = st.plane → foldRec s.dev st.plane q f = some r →
    mxAt s.dev mx % 16 = 0 → (memberBits r).all (memberReady s.dev q mx) = true → s.dev.wakeAt ≤ s.dev.dt →
    ∃ t, exec (.foldRunBegin q f mx) s = .next t ∧ FoldFrame s t ∧ (getFold t.dev q f).run = some st
      ∧ (getFold t.dev q f).next = none ∧ (getFold t.dev q f).start = mxAt s.dev mx ∧ (getFold t.dev q f).frozen = 0
      ∧ (getFold t.dev q f).conflicts = 0 ∧ (getFold t.dev q f).holds = 0 ∧ (getFold t.dev q f).stop = none)
  ∧ (∀ (s : State) (q : Fin 4) (f : Fin 16) (mx : Fin 10) (st : FoldStartRec) (r : FoldRec), (getFold s.dev q f).run = some st →
    runRec s.dev q f = some r →
    (runOver s.dev q f mx = true ∧ (getFold s.dev q f).waiting = [] ∧ (memberBits r).all (fun b => !memberBusy s.dev q b) = true)
      ∨ ((getFold s.dev q f).stop ≠ none ∧ membersDone s.dev q f r = true) →
    ∃ t, exec (.foldRunEnd q f mx) s = .next t ∧ FoldFrame s t ∧ (getFold t.dev q f).run = none
      ∧ cntAt t.dev (addrOf .spd q (0x424 + 0x40 * f)) = cntAt s.dev (addrOf .spd q (0x424 + 0x40 * f)) + 1
      ∧ (∀ i tag b, st.starter = .drover i tag b →
          ∃ x ∈ t.dev.fab.reports, x.inst = i ∧ x.tag = tag ∧ x.code = (getFold s.dev q f).stop.getD 0))
  ∧ (∀ (s : State) (b : WriteBy) (q : Fin 4) (f : Fin 16) (mx : Fin 10) (v : W32) (st : FoldStartRec),
    writesNow s b (foldCtlAddr q f) = true → setBit v 0 = true → (getFold s.dev q f).run = some st → st.starter = .write →
    (getFold s.dev q f).stop = none → runOver s.dev q f mx = false →
    ∃ t, exec (.foldStop b q f mx v) s = .next t
      ∧ t = { s with dev := { s.dev with folds := t.dev.folds, cnts := t.dev.cnts, log := t.dev.log, ctxs := t.dev.ctxs } }
      ∧ (getFold t.dev q f).stop = some 3 ∧ (getFold t.dev q f).run = some st)
  ∧ (∀ (s : State) (q : Fin 4) (f : Fin 16) (mx : Fin 10) (m : StopMsg) (rest : List StopMsg) (st : FoldStartRec),
    takeFirst (fun m : StopMsg => m.kind == .fold && m.unit == foldUnitNo q f && stopReady s.dev m) s.dev.fab.stops = some (m, rest) →
    (getFold s.dev q f).run = some st → st.starter.inst = some m.inst → (getFold s.dev q f).next = none →
    (getFold s.dev q f).pending = [] → (getFold s.dev q f).overflow = [] →
    (getFold s.dev q f).stop = none → runOver s.dev q f mx = false →
    ∃ t, exec (.foldVoidStop q f mx) s = .next t
      ∧ t = { s with dev := { s.dev with folds := t.dev.folds, cnts := t.dev.cnts, fab := { s.dev.fab with stops := rest } } }
      ∧ (getFold t.dev q f).stop = some 1 ∧ (getFold t.dev q f).run = some st)

/-- R211, R214, R220: the steps of a run: a UNIT on a busy member waits and is counted, on a free one starts its unit, and one that waits
starts once its member is free; a CHECK that is true is passed and one that is not holds the fold; a COMMIT advances its count, and H
follows 6 MX cycles later; a RELEASE advances its count and frees its slots. The model's readings in it: log 58 and 113. -/
def Obligations.FoldSteps : Prop :=
  ∀ (s : State) (q : Fin 4) (f : Fin 16) (mx : Fin 10) (x : FoldStep),
    let fo := getFold s.dev q f
    (dueStep s.dev q f mx = some x → x.action = 0 → fo.waiting = [] → memberTakes s.dev q x.member = false →
      ∃ t, exec (.foldUnit q f mx) s = .next t ∧ FoldOnly s t
        ∧ (getFold t.dev q f).waiting = [x.member] ∧ (getFold t.dev q f).conflicts = fo.conflicts
        ∧ cntAt t.dev (addrOf .spd q (0x41C + 0x40 * f)) = cntAt s.dev (addrOf .spd q (0x41C + 0x40 * f)) + 1)
    ∧ (dueStep s.dev q f mx = some x → x.action = 0 → fo.waiting = [] → memberTakes s.dev q x.member = true →
      ∃ t, exec (.foldUnit q f mx) s = .next t ∧ FoldFrame s t ∧ t.dev.mem = s.dev.mem
        ∧ (getFold t.dev q f).waiting = [] ∧ (getFold t.dev q f).conflicts = fo.conflicts
        ∧ getFold t.dev q f = getFold (passStep q f s.dev) q f)
    ∧ (∀ b, fo.stop = none → fo.waiting.find? (memberTakes s.dev q) = some b →
      ∃ t, exec (.foldUnit q f mx) s = .next t ∧ FoldFrame s t ∧ t.dev.mem = s.dev.mem
        ∧ getFold t.dev q f = { fo with waiting := fo.waiting.erase b })
    ∧ (dueStep s.dev q f mx = some x → x.action = 1 → checkReady s.dev q f mx false x.region x.k = true →
      exec (.foldCheckIn q f mx) s = .next { s with dev := passStep q f s.dev })
    ∧ (dueStep s.dev q f mx = some x → x.action = 1 → checkReady s.dev q f mx false x.region x.k = false →
      ∃ t, exec (.foldCheckIn q f mx) s = .next t ∧ FoldOnly s t ∧ (getFold t.dev q f).hold = .check
        ∧ (getFold t.dev q f).checks = fo.checks ++ [(false, x.region, x.k)])
    ∧ (dueStep s.dev q f mx = some x → x.action = 2 → checkReady s.dev q f mx true x.region x.k = true →
      exec (.foldCheckOut q f mx) s = .next { s with dev := passStep q f s.dev })
    ∧ (dueStep s.dev q f mx = some x → x.action = 2 → checkReady s.dev q f mx true x.region x.k = false →
      ∃ t, exec (.foldCheckOut q f mx) s = .next t ∧ FoldOnly s t ∧ (getFold t.dev q f).hold = .check
        ∧ (getFold t.dev q f).checks = fo.checks ++ [(true, x.region, x.k)])
    ∧ (dueStep s.dev q f mx = some x → x.action = 3 →
      ∃ t c, exec (.foldCommit q f mx) s = .next t ∧ FoldOnly s t ∧ (getFold t.dev q f).commits = fo.commits ++ [c]
        ∧ c.region = x.region ∧ c.due = mxAt s.dev mx + 6
        ∧ mapGet 0 x.region (getFold t.dev q f).prod = addMod (getRegion s.dev q x.region) (mapGet 0 x.region fo.prod) 1)
    ∧ (∀ c r, fo.commits = c :: r → c.due ≤ mxAt s.dev mx → (getRegion s.dev q c.region).n ≠ 0 → ringFlock s.dev q c.region = none →
      ∃ t, exec (.foldCommitVisible q f mx) s = .next t ∧ FoldFrame s t ∧ (getFold t.dev q f).commits = r
        ∧ (getRegion t.dev q c.region).h = addMod (getRegion s.dev q c.region) (getRegion s.dev q c.region).h 1
        ∧ t.dev.mem = s.dev.mem)
    ∧ (dueStep s.dev q f mx = some x → x.action = 4 → (getRegion s.dev q x.region).n ≠ 0 → ringFlock s.dev q x.region = none →
      x.k ≤ (getRegion s.dev q x.region).fill →
      ∃ t, exec (.foldRelease q f mx) s = .next t ∧ FoldFrame s t ∧ t.dev.mem = s.dev.mem
        ∧ mapGet 0 x.region (getFold t.dev q f).cons = addMod (getRegion s.dev q x.region) (mapGet 0 x.region fo.cons) x.k
        ∧ (getRegion t.dev q x.region).t = addMod (getRegion s.dev q x.region) (getRegion s.dev q x.region).t x.k)

/-- R218, R220, R221: a held fold goes on when its checks are true, after whole hold steps, which are counted; a gate that is open lets the
iteration begin, at once or, once it has held the fold, after whole hold steps, and a closed one holds the fold; a conflict of a run with
a busy member costs one hold step and is counted. The model's readings in it: log 58 and 59. -/
def Obligations.FoldHolds : Prop :=
  ∀ (s : State) (q : Fin 4) (f : Fin 16) (mx : Fin 10) (r : FoldRec),
    let fo := getFold s.dev q f
    (∀ c, runRec s.dev q f = some r → fo.hold = .check → fo.cap = some c → fo.stop = none →
      fo.start + fo.frozen + c + 1 ≤ mxAt s.dev mx →
      fo.checks.all (fun k => checkReady s.dev q f mx k.1 k.2.1 k.2.2) = true →
      let n := frozenFor (holdStep r) (fo.start + fo.frozen + c + 1) (mxAt s.dev mx)
      ∃ t, exec (.foldHoldResume q f mx) s = .next t ∧ FoldOnly s t ∧ (getFold t.dev q f).hold = .none
        ∧ (getFold t.dev q f).checks = [] ∧ (getFold t.dev q f).frozen = fo.frozen + n ∧ (getFold t.dev q f).holds = fo.holds + n)
    ∧ (∀ st, fo.run = some st → runRec s.dev q f = some r → fo.hold = .none → fo.conflictEnd ≤ mxAt s.dev mx →
      fo.start + fo.frozen ≤ mxAt s.dev mx → (memberBits r).any (memberBusy s.dev q) = true →
      ∃ t, exec (.foldConflict q f mx) s = .next t ∧ FoldOnly s t
        ∧ cntAt t.dev (addrOf .spd q (0x41C + 0x40 * f)) = cntAt s.dev (addrOf .spd q (0x41C + 0x40 * f)) + 1
        ∧ getFold t.dev q f = { fo with frozen := fo.frozen + holdStep r, holds := fo.holds + holdStep r
                                        conflicts := fo.conflicts + 1, conflictEnd := mxAt s.dev mx + holdStep r })
    ∧ (∀ st, fo.run = some st → runRec s.dev q f = some r → fo.phase = 1 → fo.entered = false → fo.stop = none → fo.hold ≠ .check →
      let first := fo.start + fo.frozen + groupStart r (runN st) fo
      first ≤ mxAt s.dev mx → fo.step < r.body.length →
      checkReady s.dev q f mx false (byteAt st.desc 5) (field st.desc 6 2) = true →
      ∃ t, exec (.foldGateOpen q f mx) s = .next t ∧ FoldOnly s t ∧ (getFold t.dev q f).entered = true
        ∧ (getFold t.dev q f).hold = .none
        ∧ (getFold t.dev q f).frozen = fo.frozen + (if mxAt s.dev mx = first then 0 else frozenFor (holdStep r) first (mxAt s.dev mx)))
    ∧ (∀ st, fo.run = some st → runRec s.dev q f = some r → fo.phase = 1 → fo.entered = false → fo.stop = none → fo.hold ≠ .check →
      fo.start + fo.frozen + groupStart r (runN st) fo ≤ mxAt s.dev mx →
      checkReady s.dev q f mx false (byteAt st.desc 5) (field st.desc 6 2) = false →
      ∃ t, exec (.foldGateOpen q f mx) s = .next t ∧ FoldOnly s t ∧ getFold t.dev q f = { fo with hold := .gate })

namespace Sys2Proof.Claims

/-- A channel with one write of CTL: the write takes effect, and asks for what its three bits say (R229). -/
def chWrites (s : State) (b : WriteBy) (ch : Fin 256) (v : W32) (start abort next : Bool) : Prop :=
  writesNow s b (chCtlAddr ch) = true ∧ setBit v 0 = start ∧ setBit v 1 = abort ∧ setBit v 2 = next

/-- The set that a start of the staging registers makes (R228). -/
def stagedSet (s : State) (ch : Fin 256) : DmaSet :=
  { no := s.dev.serial, regs := stagingRegs s.dev ch, dl := getPair s.dev .ch ch 0x48 0x4C, starter := .write }

/-- What a command of a DMA channel may change. -/
def DmaFrame (s t : State) : Prop :=
  t = { s with dev := { s.dev with serial := t.dev.serial, freeCount := t.dev.freeCount, regs := t.dev.regs, cnts := t.dev.cnts
                                   mem := t.dev.mem, log := t.dev.log, fab := t.dev.fab, i3c := t.dev.i3c, ctxs := t.dev.ctxs
                                   regions := t.dev.regions, audit := t.dev.audit, flocks := t.dev.flocks, spd := t.dev.spd
                                   dma := t.dev.dma, memsys := t.dev.memsys, tx := t.dev.tx, peer := t.dev.peer, vis := t.dev.vis
                                   threads := t.dev.threads, pmu := t.dev.pmu, rr := t.dev.rr, outcomes := t.dev.outcomes } }

/-- The other channels of the module hold what they held. -/
def OtherChannels (s t : State) (ch : Nat) : Prop := ∀ k, k ≠ ch → getCh t.dev k = getCh s.dev k

/-- The burst that a channel's ACTIVE set hands to its destination in this VX cycle (R233): neither side a ring, data arrived, no fault. -/
def burstAt (s : State) (ch : Fin 256) (vx : Fin 5) (x : DmaSet) (b : DmaBurst) (rest : List DmaBurst) (bs : List Byte) : Prop :=
  (getCh s.dev ch).active = some x ∧ x.bursts = b :: rest ∧ b.data = some bs ∧ bs.length = b.len ∧ 0 < b.len ∧ b.len ≤ 256
    ∧ (getCh s.dev ch).nextAt ≤ vxAt s.dev vx ∧ x.fault = none ∧ srcBound x = false ∧ dstBound x = false ∧ setSrcKind x ≠ 3

end Sys2Proof.Claims

/-- R21, R228, R229, R231, R238, R239: in a quadrant that takes work, a write's start of a free channel makes the staged set ACTIVE, of a busy one NEXT;
of a full one it ends with code 8 and of an invalid shape with code 7, and the channel's sets stay; a start that another quadrant's Drover has sent
makes a free channel's set of its image ACTIVE. ABORT ends ACTIVE with code 1, or with that of a fault known already, ABORT_NEXT drops NEXT
with code 1, and a void's stop ends a set of its instance that knows no fault with code 1, and reports it. The model's readings in it: log 6, 61, 62 and 65. -/
def Obligations.DmaSetsStartAndStop : Prop :=
  ∀ (s : State) (b : WriteBy) (ch : Fin 256) (v : W32),
    (chWrites s b ch v true false false → (getSpd s.dev (ch / 64)).initDone = true → (getCh s.dev ch).active = none →
      (getCh s.dev ch).next = none → dmaShapeOk s.dev ch (stagedSet s ch) = true →
      ∃ t x, exec (.dmaStart (some b) ch v) s = .next t
        ∧ t = { s with dev := { s.dev with serial := s.dev.serial + 1, dma := t.dev.dma, cnts := t.dev.cnts, log := t.dev.log
                                           ctxs := t.dev.ctxs } }
        ∧ (getCh t.dev ch).active = some x ∧ x.regs = stagingRegs s.dev ch ∧ x.dl = getPair s.dev .ch ch 0x48 0x4C ∧ x.starter = .write
        ∧ x.issued = 0 ∧ x.written = 0 ∧ (getCh t.dev ch).next = none ∧ OtherChannels s t ch)
    ∧ (∀ a, chWrites s b ch v true false false → (getSpd s.dev (ch / 64)).initDone = true → (getCh s.dev ch).active = some a →
      (getCh s.dev ch).next = none → dmaShapeOk s.dev ch (stagedSet s ch) = true →
      ∃ t, exec (.dmaStart (some b) ch v) s = .next t ∧ (getCh t.dev ch).active = some a ∧ (getCh t.dev ch).next = some (stagedSet s ch)
        ∧ t = { s with dev := { s.dev with serial := s.dev.serial + 1, dma := t.dev.dma, cnts := t.dev.cnts, log := t.dev.log
                                           ctxs := t.dev.ctxs } }
        ∧ OtherChannels s t ch)
    ∧ (∀ a n, chWrites s b ch v true false false → (getSpd s.dev (ch / 64)).initDone = true → (getCh s.dev ch).active = some a →
      (getCh s.dev ch).next = some n →
      ∃ t, exec (.dmaStart (some b) ch v) s = .next t ∧ DmaFrame s t ∧ getCh t.dev ch = { getCh s.dev ch with lastCode := 8 }
        ∧ SameDram s.dev t.dev
        ∧ cntAt t.dev (addrOf .dmac (ch / 64) 0x20) = cntAt s.dev (addrOf .dmac (ch / 64) 0x20) + 1
        ∧ bit (getR t.dev .dmac (ch / 64) 8).toNat 0 = true ∧ OtherChannels s t ch)
    ∧ (chWrites s b ch v true false false → (getSpd s.dev (ch / 64)).initDone = true → (getCh s.dev ch).active = none →
      (getCh s.dev ch).next = none → dmaShapeOk s.dev ch (stagedSet s ch) = false →
      ∃ t, exec (.dmaStart (some b) ch v) s = .next t ∧ DmaFrame s t ∧ getCh t.dev ch = { getCh s.dev ch with lastCode := 7 }
        ∧ SameDram s.dev t.dev
        ∧ bit (getR t.dev .dmac (ch / 64) 8).toNat 1 = true ∧ OtherChannels s t ch)
    ∧ (∀ m rest, takeFirst (fun m : DmaStartMsg => m.ch == ch.val && dmaStartReady s.dev m) s.dev.fab.dmaStarts = some (m, rest) →
      (getSpd s.dev (ch / 64)).initDone = true → (getCh s.dev ch).active = none → (getCh s.dev ch).next = none →
      let d1 := loadStaging ch m.image s.dev
      dmaShapeOk d1 ch { no := s.dev.serial, regs := stagingRegs d1 ch, dl := m.dl, starter := m.starter } = true →
      ∃ t x, exec (.dmaStart none ch v) s = .next t
        ∧ t = { s with dev := { s.dev with serial := s.dev.serial + 1, dma := t.dev.dma, regs := t.dev.regs, cnts := t.dev.cnts
                                           fab := { s.dev.fab with dmaStarts := rest } } }
        ∧ (getCh t.dev ch).active = some x ∧ x.regs = stagingRegs d1 ch ∧ x.dl = m.dl ∧ x.starter = m.starter
        ∧ x.issued = 0 ∧ x.written = 0 ∧ (getCh t.dev ch).next = none ∧ OtherChannels s t ch)
    ∧ (∀ a, chWrites s b ch v false true false → (getCh s.dev ch).active = some a →
      ∃ t, exec (.dmaAbort b ch v) s = .next t ∧ DmaFrame s t ∧ SameDram s.dev t.dev ∧ OtherChannels s t ch
        ∧ getCh t.dev ch = { getCh s.dev ch with active := none, ended := true
                                                 lastCode := (match a.fault with
                                                  | some f => f.code
                                                  | none => 1) })
    ∧ (∀ n, chWrites s b ch v false false true → (getCh s.dev ch).next = some n →
      ∃ t, exec (.dmaAbortNext b ch v) s = .next t ∧ DmaFrame s t ∧ SameDram s.dev t.dev ∧ OtherChannels s t ch
        ∧ getCh t.dev ch = { getCh s.dev ch with next := none, lastCode := 1 })
    ∧ (∀ m rest a i tag sub, takeFirst (fun m : StopMsg => m.kind == .dma && m.unit == ch.val && stopReady s.dev m) s.dev.fab.stops = some (m, rest) →
      (getCh s.dev ch).active = some a → (getCh s.dev ch).next = none → a.starter = .drover i tag sub → m.inst = i → a.fault = none →
      ∃ t, exec (.dmaVoidStop ch) s = .next t ∧ DmaFrame s t ∧ SameDram s.dev t.dev ∧ OtherChannels s t ch ∧ t.dev.fab.stops = rest
        ∧ getCh t.dev ch = { getCh s.dev ch with active := none, ended := true, lastCode := 1 }
        ∧ t.dev.fab.reports = s.dev.fab.reports ++ [{ inst := i, tag := tag, code := 1, remote := i.q != ch.val / 64 }])

/-- R233, R236, R237, R240: the ready burst of the quadrant's only channel at work is issued and counted; data that arrives without an error goes
to the burst that waited for it; a burst of sides that are no rings into the scratchpad, or into DRAM through a cached page with a free
queue entry, writes exactly its bytes at the place that its set's shape gives, and the channel accepts the next 4 cycles later; the last
byte ends the set with code 0; an ended set makes way for NEXT, which ends at once where it has moved all its bytes. The model's readings in it: log 63, 65, 66 and 67. -/
def Obligations.DmaBurstsMove : Prop :=
  ∀ (s : State) (ch : Fin 256) (vx : Fin 5),
    (∀ x c, mapGet 0 (ch.val / 64) s.dev.memsys.issueAt ≤ vxAt s.dev vx → (getCh s.dev ch).active = some x → (prepare ch vx false s.dev).1 = some c →
      (∀ k : Nat, k < 64 → 64 * (ch.val / 64) + k ≠ ch → (getCh s.dev (64 * (ch.val / 64) + k)).active = none
        ∧ (getCh s.dev (64 * (ch.val / 64) + k)).next = none) →
      ∃ t y, exec (.dmaBurstIssue ⟨ch.val / 64, by omega⟩ vx) s = .next t
        ∧ t = { s with dev := { s.dev with regs := t.dev.regs, cnts := t.dev.cnts, dma := t.dev.dma, memsys := t.dev.memsys
                                           pmu := t.dev.pmu, rr := t.dev.rr } }
        ∧ (getCh t.dev ch).active = some y ∧ y.issued = x.issued + c.len ∧ y.bursts.length = x.bursts.length + 1 ∧ OtherChannels s t ch
        ∧ cntAt t.dev (addrOf .dmac (ch.val / 64) 0x10) = cntAt s.dev (addrOf .dmac (ch.val / 64) 0x10) + 1)
    ∧ (∀ x b bytes d1, (getCh s.dev ch).active = some x → x.fault = none → walkFault (purgeReturns ch s.dev) ch x.no (vxAt s.dev vx) = none →
      burstArrive ch (vxAt s.dev vx) x (purgeReturns ch s.dev) = some (b, bytes, none, d1) →
      ∃ t, exec (.dmaReadReturn ch vx) s = .next t ∧ DmaFrame s t ∧ SameSpad s.dev t.dev ∧ SameDram s.dev t.dev ∧ OtherChannels s t ch
        ∧ (getCh t.dev ch).active =
          some { x with bursts := x.bursts.map (fun y => if y.pos = b.pos then { y with data := some bytes } else y) })
    ∧ (∀ x b rest bs, burstAt s ch vx x b rest bs → setDstKind x = 1 → x.written + b.len ≠ setVolume x →
      let a := endAddr s.dev ch x false (dstPlace x b.pos)
      ∃ t y, exec (.dmaBurstAccept ch vx) s = .next t ∧ DmaFrame s t ∧ SameDram s.dev t.dev ∧ OtherChannels s t ch
        ∧ spadPeek t.dev (dstQuad x) a b.len = bs
        ∧ (∀ q c : Nat, (∀ i, i < b.len → spadKey q c ≠ spadKey (dstQuad x) (a + i)) → spadByte t.dev q c = spadByte s.dev q c)
        ∧ (getCh t.dev ch).active = some y ∧ y.written = x.written + b.len ∧ y.bursts = rest
        ∧ (getCh t.dev ch).nextAt = vxAt s.dev vx + 4 ∧ (getCh t.dev ch).moved = (getCh s.dev ch).moved + b.len)
    ∧ (∀ x b rest bs e, burstAt s ch vx x b rest bs → setDstKind x = 0 → x.written + b.len ≠ setVolume x →
      let dva := endAddr s.dev ch x false (dstPlace x b.pos)
      let pa := paOf dva e
      dva / 2 ^ 38 = 0 → (getCache s.dev (ch / 8)).find? (fun c => c.1 == pageOf dva) = some (pageOf dva, e) → pteCause e .write = 0 →
      dramRoom s.dev pa = true →
      ∃ t y, exec (.dmaBurstAccept ch vx) s = .next t ∧ DmaFrame s t ∧ SameSpad s.dev t.dev ∧ OtherChannels s t ch
        ∧ dramPeek t.dev pa b.len = bs
        ∧ (∀ c, (∀ i, i < b.len → c % 2 ^ 38 ≠ (pa + i) % 2 ^ 38) → dramByte t.dev c = dramByte s.dev c)
        ∧ (getCh t.dev ch).active = some y ∧ y.written = x.written + b.len ∧ y.bursts = rest)
    ∧ (∀ x b rest bs, burstAt s ch vx x b rest bs → setDstKind x = 1 → x.written + b.len = setVolume x →
      ∃ t, exec (.dmaBurstAccept ch vx) s = .next t ∧ DmaFrame s t ∧ SameDram s.dev t.dev ∧ OtherChannels s t ch ∧ (getCh t.dev ch).active = none
        ∧ (getCh t.dev ch).next = (getCh s.dev ch).next ∧ (getCh t.dev ch).ended = true ∧ (getCh t.dev ch).lastCode = 0
        ∧ (getCh t.dev ch).moved = (getCh s.dev ch).moved + b.len)
    ∧ (∀ n, (getCh s.dev ch).active = none → (getCh s.dev ch).next = some n → (getCh s.dev ch).ended = true → n.fault = none →
      setSrcKind n = 3 ∨ n.written ≠ setVolume n →
      ∃ t y, exec (.dmaNextActivate ch) s = .next t ∧ t = { s with dev := { s.dev with dma := t.dev.dma } } ∧ OtherChannels s t ch
        ∧ getCh t.dev ch = { getCh s.dev ch with active := some y, next := none, ended := false } ∧ y.regs = n.regs ∧ y.no = n.no)
    ∧ (∀ n, (getCh s.dev ch).active = none → (getCh s.dev ch).next = some n → (getCh s.dev ch).ended = true → n.fault = none →
      setSrcKind n ≠ 3 → n.written = setVolume n →
      ∃ t, exec (.dmaNextActivate ch) s = .next t ∧ DmaFrame s t ∧ SameDram s.dev t.dev ∧ OtherChannels s t ch
        ∧ getCh t.dev ch = { getCh s.dev ch with active := none, next := none, ended := true, lastCode := 0 })

namespace Sys2Proof.Claims

/-- The requests of a channel's queue whose bank is ready, as the arbiter sees them (R27, R241). -/
def readyReqs (d : Dev) (c : Nat) (ready : BitVec 32) : List ArbReq :=
  (List.range 32).filterMap (fun i =>
    match mapGet none i (getChan d c).queue with
    | some r => if ready.getLsbD i then some ⟨i, r.dl, 0⟩ else none
    | none => none)

/-- What a memory controller's own work may change; the bytes of DRAM stay. -/
def MemFrame (s t : State) : Prop :=
  t = { s with dev := { s.dev with regs := t.dev.regs, cnts := t.dev.cnts, mem := t.dev.mem, i3c := t.dev.i3c, memsys := t.dev.memsys
                                   rr := t.dev.rr } }
  ∧ SameDram s.dev t.dev ∧ SameSpad s.dev t.dev

end Sys2Proof.Claims

/-- R242-R245, R251: a walk that is due first, of a line without an uncorrectable block, gives the page's address to a general core and its line
to the cache, or returns to its reader the fault that the entry gives; where the line has one, the reader gets an error. PTE_CTL writes an entry into DRAM, so that no cache holds it, and reads one; INV_CTL drops a range of pages from a quadrant's caches. The model's readings in it: log 69. -/
def Obligations.TranslationWalksAndTables : Prop :=
  (∀ (s : State) (q : Fin 4) (vx : Fin 5) (w : Walk) (g th n : Nat),
    let p := pageOf w.dva
    let e := pteAt s.dev p
    (walksOf s.dev q).find? (fun w => w.due ≤ vxAt s.dev vx && (walksOf s.dev q).all (fun o => w.due ≤ o.due)) = some w →
    badPteBlock s.dev p = none → pteCause e (pageUse w.use) = 0 → w.who = .gcData g th n → w.len = 0 →
    ∃ t, exec (.translationWalkDone q vx) s = .next t ∧ t = { s with dev := { s.dev with memsys := t.dev.memsys } }
      ∧ t.dev.memsys.returns = s.dev.memsys.returns ++ [{ who := w.who, pa := paOf w.dva e, due := vxAt s.dev vx }]
      ∧ walksOf t.dev q = (walksOf s.dev q).erase w ∧ (getCache t.dev w.cache).head? = some (p, e))
  ∧ (∀ (s : State) (q : Fin 4) (vx : Fin 5) (w : Walk),
    let p := pageOf w.dva
    let c := pteCause (pteAt s.dev p) (pageUse w.use)
    (walksOf s.dev q).find? (fun w => w.due ≤ vxAt s.dev vx && (walksOf s.dev q).all (fun o => w.due ≤ o.due)) = some w →
    badPteBlock s.dev p = none → c ≠ 0 →
    ∃ t, exec (.translationWalkDone q vx) s = .next t
      ∧ t = { s with dev := { s.dev with memsys := t.dev.memsys, regs := t.dev.regs, cnts := t.dev.cnts } }
      ∧ t.dev.memsys.returns = s.dev.memsys.returns ++ [{ who := w.who, fault := some (c, w.dva), due := vxAt s.dev vx }]
      ∧ walksOf t.dev q = (walksOf s.dev q).erase w ∧ (∀ k, getCache t.dev k = getCache s.dev k)
      ∧ getPair t.dev .xlt q 0x20 0x24 = w.dva % 2 ^ 64)
  ∧ (∀ (s : State) (q : Fin 4) (vx : Fin 5) (w : Walk) (blk : Nat),
    (walksOf s.dev q).find? (fun w => w.due ≤ vxAt s.dev vx && (walksOf s.dev q).all (fun o => w.due ≤ o.due)) = some w →
    badPteBlock s.dev (pageOf w.dva) = some blk →
    ∃ t, exec (.translationWalkDone q vx) s = .next t ∧ MemFrame s t
      ∧ t.dev.memsys.returns = s.dev.memsys.returns ++ [{ who := w.who, fault := some (0, w.dva), bad := true, due := vxAt s.dev vx }]
      ∧ walksOf t.dev q = (walksOf s.dev q).erase w ∧ (∀ k, getCache t.dev k = getCache s.dev k))
  ∧ (∀ (s : State) (b : WriteBy) (v : W32), writesNow s b pteCtlAddr = true → setBit v 0 = true → setBit v 1 = false →
    let i := getF s.dev .xlt 0 0x10 0 24
    ∃ t, exec (.pteWrite b v) s = .next t
      ∧ t = { s with dev := { s.dev with mem := { s.dev.mem with dram := t.dev.mem.dram }, memsys := t.dev.memsys, cnts := t.dev.cnts
                                         log := t.dev.log, ctxs := t.dev.ctxs } }
      ∧ pteAt t.dev i = getPair s.dev .xlt 0 0x14 0x18
      ∧ (∀ a, (∀ j, j < 8 → a % 2 ^ 38 ≠ pteAddr i + j) → dramByte t.dev a = dramByte s.dev a)
      ∧ ∀ c, ∀ x ∈ getCache t.dev c, x.1 ≠ i)
  ∧ (∀ (s : State) (b : WriteBy) (v : W32), writesNow s b pteCtlAddr = true → setBit v 1 = true → setBit v 0 = false →
    ∃ t, exec (.pteRead b v) s = .next t
      ∧ t = { s with dev := { s.dev with regs := t.dev.regs, cnts := t.dev.cnts, log := t.dev.log, ctxs := t.dev.ctxs } }
      ∧ getPair t.dev .xlt 0 0x14 0x18 = pteAt s.dev (getF s.dev .xlt 0 0x10 0 24)
      ∧ SameRegsBut [addrOf .xlt 0 0x14, addrOf .xlt 0 0x18] s.dev t.dev)
  ∧ (∀ (s : State) (b : WriteBy) (q : Fin 4) (v : W32), writesNow s b (invCtlAddr q) = true → setBit v 0 = true →
    let first := getF s.dev .xlt q 0 0 24
    let n := getF s.dev .xlt q 4 0 25
    ∃ t, exec (.xltInvalidate b q v) s = .next t
      ∧ t = { s with dev := { s.dev with memsys := t.dev.memsys, cnts := t.dev.cnts, log := t.dev.log, ctxs := t.dev.ctxs } }
      ∧ (∀ c, cacheQuad c = q → ∀ x ∈ getCache t.dev c, n ≠ 0 ∧ (x.1 < first ∨ first + n ≤ x.1))
      ∧ ∀ c, cacheQuad c ≠ q → getCache t.dev c = getCache s.dev c)

/-- R241, R247, R249, R391, R399: a memory channel that works serves the request that the arbiter chooses, and hands an error-free read's bytes
back after its delay; reserved slots refresh, patrol and calibrate when they are due; an oscillator read with drift starts retraining; the
fullest channel is reported once the imbalance has lasted a millisecond; training ends in a lit module whose clocks run. The model's readings in it: log 67 and 68. -/
def Obligations.MemoryChannelsWork : Prop :=
  (∀ (s : State) (c : Fin 64) (ready : BitVec 32) (vx : Fin 5) (i : Nat) (r : DramReq),
    chanWorks s.dev c = true → (getChan s.dev c).slot < 197 + (getChan s.dev c).reserved →
    (arbitrate arbDram c 32 (readyReqs s.dev c ready) s.dev).1 = some i → mapGet none i (getChan s.dev c).queue = some r →
    r.write = false → r.who ≠ .posted → ((blocksOf r.pa r.len).any (blockBad s.dev)) = false → s.dev.memsys.stalled = [] →
    ∃ t x, exec (.dramRequestServe c ready .clean vx) s = .next t ∧ MemFrame s t ∧ t.dev.mem = s.dev.mem
      ∧ t.dev.memsys.returns = s.dev.memsys.returns ++ [x] ∧ x.who = r.who ∧ x.pa = r.pa ∧ x.bytes = dramPeek s.dev r.pa r.len
      ∧ x.bad = false ∧ x.fault = none ∧ x.due = vxAt s.dev vx + readDelay r.who r.pa false ∧ mapGet none i (getChan t.dev c).queue = none)
  ∧ (∀ (s : State) (c : Fin 64) (ready : BitVec 32) (e : EccResult) (vx : Fin 5), chanWorks s.dev c = true → (getChan s.dev c).reserved < 3 →
    ∃ t, exec (.dramReservedSlot c .refresh ready e vx) s = .next t ∧ t = { s with dev := { s.dev with cnts := t.dev.cnts, memsys := t.dev.memsys } }
      ∧ (getChan t.dev c).queue = (getChan s.dev c).queue ∧ (getChan t.dev c).slot = ((getChan s.dev c).slot + 1) % 200
      ∧ cntAt t.dev (addrOf .memc (c / 16) 0xD8) = cntAt s.dev (addrOf .memc (c / 16) 0xD8) + 1)
  ∧ (∀ (s : State) (c : Fin 64) (e : EccResult), chanWorks s.dev c = true → (getChan s.dev c).reserved < 3 → patrolDue s.dev c = true →
    ∃ t, exec (.patrolRead c e) s = .next t ∧ MemFrame s t ∧ (getChan t.dev c).patrolAt = s.dev.dt
      ∧ (getChan t.dev c).patrol = (if (getChan s.dev c).patrol + 1 = 15728640 then 0 else (getChan s.dev c).patrol + 1))
  ∧ (∀ (s : State) (c : Fin 64), chanWorks s.dev c = true → (getChan s.dev c).reserved < 3 → zqDueNow s.dev c = true →
    ∃ t, exec (.zqCalibration c) s = .next t ∧ MemFrame s t ∧ t.dev.mem = s.dev.mem ∧ (getChan t.dev c).zqAt = s.dev.dt
      ∧ (getChan t.dev c).queue = (getChan s.dev c).queue)
  ∧ (∀ (s : State) (c : Fin 64) (drift : Bool), chanWorks s.dev c = true → (getChan s.dev c).oscAt + 125000 ≤ s.dev.dt →
    ∃ t, exec (.dqsOscillatorRead c drift) s = .next t ∧ t = { s with dev := { s.dev with memsys := t.dev.memsys } }
      ∧ getChan t.dev c = { getChan s.dev c with oscAt := s.dev.dt, retrain := (getChan s.dev c).retrain || drift })
  ∧ (∀ (s : State) (q : Fin 4), mapGet 0 q.val s.dev.memsys.imbMs = 0 → 125000 ≤ mapGet 0 q.val s.dev.memsys.imb →
    ∃ t p, exec (.imbalance q) s = .next t
      ∧ t = { s with dev := { s.dev with memsys := t.dev.memsys, cnts := t.dev.cnts, regs := t.dev.regs, fab := t.dev.fab } }
      ∧ t.dev.fab = { s.dev.fab with posts := s.dev.fab.posts ++ [p] } ∧ p.q = q ∧ p.ev.typ = 0x0A ∧ p.ev.payload = (fullest s.dev q).1
      ∧ bit (getR t.dev .memc q 4).toNat 2 = true ∧ cntAt t.dev (addrOf .memc q 0x28) = cntAt s.dev (addrOf .memc q 0x28) + 1
      ∧ mapGet 0 q.val t.dev.memsys.imbMs = 1)
  ∧ (∀ (s : State) (q : Fin 4), s.dev.pow.computeUp = true → s.dev.pow.gated = false → getF s.dev .clk 0 4 0 2 ≠ 1 →
    getF s.dev .clk 0 4 0 2 ≠ 2 →
    ∃ t, exec (.memoryTrainingDone q) s = .next t ∧ t.dev.mem = s.dev.mem ∧ t.fuse = s.fuse ∧ t.pending = s.pending
      ∧ (powerState s.dev ≠ 2 → t = { s with dev := { s.dev with regs := t.dev.regs, memsys := t.dev.memsys } }) ∧ getF t.dev .memc q 0 0 1 = 1
      ∧ t.dev.memsys = { s.dev.memsys with selfRefresh := s.dev.memsys.selfRefresh.filter (· != q.val) })

namespace Sys2Proof.Claims

/-- The run r of a context, a launch's or its part of a fold's, may issue its next command, an operation of a code, in this MX cycle
(R271, R273, R274). -/
def meTurn (s : State) (m : Fin 32) (c : Fin 2) (mx : Fin 10) (r : MeRun) (op : Nat) : Prop :=
  meActive s.dev m c = some r ∧ r.fold.isSome = (getMeCtx s.dev m c).frun.isSome ∧ meReady s.dev m c (meNow s.dev m mx) r = true
    ∧ opOf (r.cmds.getD r.index 0) = op

/-- The command at hand. -/
def meCmd (r : MeRun) : Nat := r.cmds.getD r.index 0

/-- The run has gone on by a command, and issues again from a cycle (R271). -/
def meWent (t : State) (m : Fin 32) (c : Fin 2) (r : MeRun) (bases : List Nat) (at_ : Nat) : Prop :=
  ∃ y, meActive t.dev m c = some y ∧ y.index = r.index + 1 ∧ y.completed = r.completed + 1 ∧ y.cmds = r.cmds ∧ y.launch = r.launch
    ∧ y.bases = bases ∧ y.stop = none ∧ (getMeCtx t.dev m c).issueAt = at_

/-- What a command that sets a context may change: that context of its engine, the engine's lanes, ports and counts, fetches, counters,
registers and the sampler. -/
def MeFrame (s t : State) (m : Fin 32) (c : Fin 2) : Prop :=
  t = { s with dev := { s.dev with regs := t.dev.regs, cnts := t.dev.cnts, memsys := t.dev.memsys, me := t.dev.me, pmu := t.dev.pmu } }
  ∧ (∀ k : Nat, k ≠ m → getMe t.dev k = getMe s.dev k) ∧ getMeCtx t.dev m (1 - c.val) = getMeCtx s.dev m (1 - c.val)

/-- What a command that reads the scratchpad may change: the same with the audit's record, and for one that takes the array input the
cycles of the context that makes way (R271). -/
def MePassFrame (s t : State) (m : Fin 32) : Prop :=
  t = { s with dev := { s.dev with regs := t.dev.regs, cnts := t.dev.cnts, spd := t.dev.spd, memsys := t.dev.memsys, me := t.dev.me
                                   pmu := t.dev.pmu } }
  ∧ ∀ k : Nat, k ≠ m → getMe t.dev k = getMe s.dev k

/-- What a command that moves a region's count may change beside: the region, its flock and tags, credits to the peer, and the vision
contexts that wait to let go of its slots (R114, R211, R338). -/
def MeRingFrame (s t : State) (m : Fin 32) (c : Fin 2) (q reg : Nat) : Prop :=
  t = { s with dev := { s.dev with regs := t.dev.regs, cnts := t.dev.cnts, regions := t.dev.regions, audit := t.dev.audit
                                   flocks := t.dev.flocks, memsys := t.dev.memsys, peer := t.dev.peer, vis := t.dev.vis, me := t.dev.me
                                   pmu := t.dev.pmu } }
  ∧ (∀ k : Nat, k ≠ m → getMe t.dev k = getMe s.dev k) ∧ getMeCtx t.dev m (1 - c.val) = getMeCtx s.dev m (1 - c.val)
  ∧ ∀ j : Nat, j < 256 → j ≠ reg → getRegion t.dev q j = getRegion s.dev q j

/-- The end, the stop and the output rows of a launch: what they may change. -/
def MeEndFrame (s t : State) (m : Fin 32) : Prop :=
  t = { s with dev := { s.dev with regs := t.dev.regs, cnts := t.dev.cnts, mem := t.dev.mem, fab := t.dev.fab, spd := t.dev.spd
                                   me := t.dev.me, threads := t.dev.threads, pmu := t.dev.pmu } }
  ∧ SameDram s.dev t.dev ∧ ∀ k : Nat, k ≠ m → getMe t.dev k = getMe s.dev k

/-- The context but for its runs and its next issue. -/
def meRest (x : MeCtx) : MeCtx := { x with run := none, frun := none, issueAt := 0 }

/-- No quarter of a quadrant's scratchpad is uncorrectable. -/
def spadSound (d : Dev) (q : Nat) : Prop := ∀ k, quarterState d q k ≠ 2

/-- A load of a tile buffer is under way (R272). -/
def awaitsTile (x : MeCtx) (b : Nat) : Bool := x.loads.any (fun l => match l with
  | .tile k _ _ => k == b
  | .table _ _ _ => false)

/-- The launches of a context's queue as its arbiter sees them (R269). -/
def meReqs (d : Dev) (m c : Nat) : List ArbReq :=
  (List.range 16).filterMap (fun i => (mapGet none i (getMeCtx d m c).queue).map (fun l => ⟨i, l.dl, 0⟩))

/-- The output rows of a command on their way: for each row that its mask leaves, when it entered, when it is visible and where (R264,
R272). -/
def rowsOut (r : MeRun) (x : MeCtx) (delay : Nat) (places : List (Nat × Nat)) (outs : List MeOut) : Prop :=
  ∀ (j : Nat) (p : Nat × Nat) (o : MeOut), places[j]? = some p → outs[j]? = some o → o.entered = p.2 ∧ o.due = p.2 + delay ∧ o.ofmt = meOutFmt x ∧ o.sr = x.sr
    ∧ o.word = (meAddr r (bits (meCmd r) 75 25) + p.1 * bits (meCmd r) 100 16) % 2 ^ 23

end Sys2Proof.Claims

/-- R269, R278-R281: a start whose block can be read takes the lowest free entry of its context's queue, and waits where there is none; an idle
context begins the launch that its arbiter chooses, with its start values as bases; commands that come back are appended, and a fault or an error
of the fetch stops the launch; a launch that is over writes its status word and signals; STOP and a void stop a launch with code 1. The model's readings in it: log 73. -/
def Obligations.MatrixLaunches : Prop :=
  (∀ (s : State) (m : Fin 32) (mx : Fin 10) (st : StartMsg) (rest : List StartMsg) (i : Nat),
    takeFirst (fun x : StartMsg => x.unit == 64 * (m.val / 8) + m.val % 8 && startReady s.dev x) s.dev.fab.starts = some (st, rest) →
    (getMe s.dev m).waiting.all (fun x => (freeLaunch s.dev m (startCtx s.dev m x)).isNone) = true → meTakes s.dev m = true →
    freeLaunch s.dev m (startCtx s.dev m st) = some i → spadBad s.dev (m.val / 8) (8 * st.desc) 128 = false →
    ∃ t, exec (.meLaunchStart m mx) s = .next t
      ∧ t = { s with dev := { s.dev with wakeAt := t.dev.wakeAt, regs := t.dev.regs, cnts := t.dev.cnts, i3c := t.dev.i3c
                                         fab := { s.dev.fab with starts := rest }, spd := t.dev.spd, me := t.dev.me } }
      ∧ (∀ k : Nat, k ≠ m → getMe t.dev k = getMe s.dev k)
      ∧ getMe t.dev m = { getMe s.dev m with ctxs := (updAt (fun x => { x with queue := mapSet none i (some
          { addr := st.desc, block := spadPeek s.dev (m.val / 8) (8 * st.desc) 128, dl := st.dl, starter := st.starter }) x.queue })
          (startCtx s.dev m st) (getMe s.dev m).ctxs) })
  ∧ (∀ (s : State) (m : Fin 32) (mx : Fin 10) (st : StartMsg) (rest : List StartMsg),
    takeFirst (fun x : StartMsg => x.unit == 64 * (m.val / 8) + m.val % 8 && startReady s.dev x) s.dev.fab.starts = some (st, rest) →
    (getMe s.dev m).waiting.all (fun x => (freeLaunch s.dev m (startCtx s.dev m x)).isNone) = true →
    freeLaunch s.dev m (startCtx s.dev m st) = none →
    ∃ t, exec (.meLaunchStart m mx) s = .next t
      ∧ t = { s with dev := { s.dev with cnts := t.dev.cnts, fab := { s.dev.fab with starts := rest }, me := t.dev.me } }
      ∧ (∀ k : Nat, k ≠ m → getMe t.dev k = getMe s.dev k)
      ∧ getMe t.dev m = { getMe s.dev m with waiting := (getMe s.dev m).waiting ++ [st] }
      ∧ cntAt t.dev (addrOf .me m 0x3C) = cntAt s.dev (addrOf .me m 0x3C) + 1)
  ∧ (∀ (s : State) (m : Fin 32) (mx : Fin 10) (st : StartMsg) (rest : List StartMsg) (i : Nat), meTakes s.dev m = true →
    takeFirst (fun x => (freeLaunch s.dev m (startCtx s.dev m x)).isSome) (getMe s.dev m).waiting = some (st, rest) →
    freeLaunch s.dev m (startCtx s.dev m st) = some i → spadBad s.dev (m.val / 8) (8 * st.desc) 128 = false →
    ∃ t, exec (.meLaunchStart m mx) s = .next t
      ∧ t = { s with dev := { s.dev with wakeAt := t.dev.wakeAt, regs := t.dev.regs, cnts := t.dev.cnts, i3c := t.dev.i3c
                                         spd := t.dev.spd, me := t.dev.me } }
      ∧ (∀ k : Nat, k ≠ m → getMe t.dev k = getMe s.dev k)
      ∧ getMe t.dev m = { getMe s.dev m with waiting := rest, ctxs := (updAt (fun x => { x with queue := mapSet none i (some
          { addr := st.desc, block := spadPeek s.dev (m.val / 8) (8 * st.desc) 128, dl := st.dl, starter := st.starter }) x.queue })
          (startCtx s.dev m st) (getMe s.dev m).ctxs) })
  ∧ (∀ (s : State) (m : Fin 32) (c : Fin 2) (mx : Fin 10) (i : Nat) (l : MeLaunch),
    let x := getMeCtx s.dev m c
    x.run = none → x.frun = none → (getMe s.dev m).fold = none → s.dev.wakeAt ≤ s.dev.dt → (getSpd s.dev (m.val / 8)).initDone = true →
    (arbitrate arbMe (2 * m.val + c.val) 16 (meReqs s.dev m c) s.dev).1 = some i → mapGet none i x.queue = some l →
    ∃ t y, exec (.meLaunchBegin m c mx) s = .next t
      ∧ t = { s with dev := { s.dev with serial := s.dev.serial + 1, regs := t.dev.regs, cnts := t.dev.cnts, memsys := t.dev.memsys
                                         me := t.dev.me, rr := t.dev.rr } }
      ∧ (∀ k : Nat, k ≠ m → getMe t.dev k = getMe s.dev k) ∧ getMeCtx t.dev m (1 - c.val) = getMeCtx s.dev m (1 - c.val)
      ∧ (getMeCtx t.dev m c).run = some y ∧ y.no = s.dev.serial ∧ y.launch = l ∧ y.fold = none ∧ y.index = 0 ∧ y.cmds = [] ∧ y.bases = l.starts
      ∧ y.completed = 0 ∧ y.skipped = 0 ∧ y.stop = none ∧ meRest (getMeCtx t.dev m c) = { meRest x with queue := mapSet none i none x.queue }
      ∧ (bit (byteAt l.block 0xD) 0 = true → l.count ≠ 0 →
          (getMe t.dev m).lanes.getLast? = some (mxAt s.dev mx, seedLanes (field l.block 0xE 2))))
  ∧ (∀ (s : State) (m : Fin 32) (c : Fin 2) (mx : Fin 10) (r : MeRun) (x : MemReturn) (rest : List MemReturn),
    meActive s.dev m c = some r → r.fold.isSome = (getMeCtx s.dev m c).frun.isSome →
    takeFirst (fun x : MemReturn => x.who == .meFetch m c r.no && decide (x.due ≤ vxAt s.dev (mx.val / 2))) s.dev.memsys.returns = some (x, rest) →
    x.fault = none → x.bad = false →
    ∃ t y, exec (.meCommandFetchReturn m c mx) s = .next t ∧ MeFrame s t m c ∧ meActive t.dev m c = some y
      ∧ y.cmds = r.cmds ++ (chunks 16 4 x.bytes).map leNat ∧ y.index = r.index ∧ y.launch = r.launch ∧ y.bases = r.bases ∧ y.stop = r.stop
      ∧ meRest (getMeCtx t.dev m c) = meRest (getMeCtx s.dev m c))
  ∧ (∀ (s : State) (m : Fin 32) (c : Fin 2) (mx : Fin 10) (r : MeRun) (x : MemReturn) (rest : List MemReturn),
    (getMe s.dev m).fold = none → (getMeCtx s.dev m c).frun = none → (getMeCtx s.dev m c).run = some r → r.fold = none → r.stop = none →
    takeFirst (fun x : MemReturn => x.who == .meFetch m c r.no && decide (x.due ≤ vxAt s.dev (mx.val / 2))) s.dev.memsys.returns = some (x, rest) →
    x.fault.isSome = true ∨ x.bad = true → (getMeCtx s.dev m (1 - c.val)).entering.all (fun e => e.key / 2 ^ 40 != r.no) = true →
    ∃ t y, exec (.meCommandFetchReturn m c mx) s = .next t ∧ MeFrame s t m c ∧ (getMeCtx t.dev m c).run = some y ∧ y.launch = r.launch
      ∧ y.stop = some (match x.fault with
        | some (0, _) => 4
        | some _ => 3
        | none => 4)
      ∧ y.index = r.index ∧ bit (getR t.dev .me m 0xC).toNat 3 = true)
  ∧ (∀ (s : State) (m : Fin 32) (c : Fin 2) (mx : Fin 10) (r : MeRun),
    let d := enterRows m (fun e => e.at_ ≤ mxAt s.dev mx) s.dev
    (getMe s.dev m).fold = none → (getMeCtx d m c).run = some r → meOver d m c mx r = true →
    ∃ t, exec (.meLaunchEnd m c mx) s = .next t ∧ MeEndFrame s t m
      ∧ getMeCtx t.dev m c = { getMeCtx d m c with run := none, was := none }
      ∧ (∀ i tag sub, r.launch.starter = .drover i tag sub → t.dev.fab = { s.dev.fab with reports := s.dev.fab.reports ++
          [{ inst := i, tag := tag, code := r.stop.getD 0, void := meVoidReason (r.stop.getD 0), remote := i.q != m.val / 8 }] })
      ∧ (r.launch.starter = .write → ∃ p, t.dev.fab = { s.dev.fab with posts := s.dev.fab.posts ++ [p] } ∧ p.q = m.val / 8
          ∧ p.src = 128 + m.val % 8 ∧ p.ev.typ = 1 ∧ p.ev.flags = errorFlag (r.stop.getD 0))
      ∧ (bit r.launch.status 31 = true →
          spadWord t.dev (m.val / 8) (bits r.launch.status 0 23) = BitVec.ofNat 64 (meStatusWord (r.stop.getD 0) r))
      ∧ (∀ p a : Nat, (bit r.launch.status 31 = true → ∀ i, i < 8 → spadKey p a ≠ spadKey (m.val / 8) (8 * bits r.launch.status 0 23 + i)) →
          spadByte t.dev p a = spadByte s.dev p a))
  ∧ (∀ (s : State) (m : Fin 32) (mx : Fin 10) (b : WriteBy) (v : W32) (r : MeRun), writesNow s b (meStopAddr m) = true → setBit v 31 = true →
    (getMeCtx s.dev m (fld v 0 1)).run = some r → r.launch.starter = .write → r.stop = none → r.ended = false →
    meOver s.dev m (fld v 0 1) mx r = false →
    ∃ t y, exec (.meStop m (some (b, v)) mx) s = .next t
      ∧ t = { s with dev := { s.dev with regs := t.dev.regs, me := t.dev.me, pmu := t.dev.pmu, cnts := t.dev.cnts, log := t.dev.log
                                         ctxs := t.dev.ctxs } }
      ∧ (∀ k : Nat, k ≠ m → getMe t.dev k = getMe s.dev k)
      ∧ (getMeCtx t.dev m (fld v 0 1)).run = some y ∧ y.stop = some 1 ∧ y.launch = r.launch ∧ y.index = r.index)
  ∧ (∀ (s : State) (m : Fin 32) (c : Fin 2) (mx : Fin 10) (x : StopMsg) (rest : List StopMsg) (r : MeRun),
    takeFirst (fun x : StopMsg => x.kind == .me && x.unit == 64 * (m.val / 8) + m.val % 8 && stopReady s.dev x) s.dev.fab.stops = some (x, rest) →
    (getMeCtx s.dev m c).run = some r → r.launch.starter.inst = some x.inst → r.stop = none → r.ended = false →
    meOver s.dev m c mx r = false →
    ∃ t y, exec (.meStop m none mx) s = .next t ∧ MeEndFrame s t m ∧ t.dev.fab.stops = rest
      ∧ t.dev.fab.starts = s.dev.fab.starts.filter (fun y => !(y.unit == 64 * (m.val / 8) + m.val % 8 && y.starter.inst == some x.inst))
      ∧ (getMeCtx t.dev m c).run = some y ∧ y.stop = some 1 ∧ y.launch = r.launch ∧ y.index = r.index)

/-- R270, R273, R274, R276, R277: the commands that set a context, move a ring or end the launch, in a launch or in a fold's part. A NOP changes
nothing of the context, and an unknown code sets ERR.CMD beside; CFG, POST, MASK, SEED and SETBASE set what they name; RWAIT and RSPACE go on
once the ring allows and wait otherwise; RREL and RCOMMIT move the ring's counts; in a fold these four move no ring; END ends the launch, or in a
fold the setup or the unit. The model's readings in it: log 70 and 113. -/
def Obligations.MatrixCommands : Prop :=
  ∀ (s : State) (m : Fin 32) (c : Fin 2) (mx : Fin 10) (r : MeRun),
    let x := getMeCtx s.dev m c
    let cmd := meCmd r
    let now := meNow s.dev m mx
    let q := m.val / 8
    let reg := bits cmd 16 8
    let ring := getRegion s.dev q reg
    let seen := ring.asOf (mxAt s.dev mx)
    let noted := getRegion (noteMove q reg (mxAt s.dev mx) s.dev) q reg
    (meTurn s m c mx r 0 → ∃ t, exec (.meNop m c mx) s = .next t ∧ MeFrame s t m c ∧ meWent t m c r r.bases (now + 1)
      ∧ meRest (getMeCtx t.dev m c) = meRest x)
    ∧ (∀ op, 0xF ≤ op → meTurn s m c mx r op → ∃ t, exec (.meNop m c mx) s = .next t ∧ MeFrame s t m c ∧ meWent t m c r r.bases (now + 1)
      ∧ meRest (getMeCtx t.dev m c) = meRest x ∧ bit (getR t.dev .me m 0xC).toNat 1 = true)
    ∧ (meTurn s m c mx r 1 → ∃ t, exec (.meCfg m c mx) s = .next t ∧ MeFrame s t m c ∧ meWent t m c r r.bases (now + 1)
      ∧ meRest (getMeCtx t.dev m c) = { meRest x with afmt := bits cmd 16 4, wfmt := bits cmd 20 4, ofmt := bits cmd 24 4, sr := bit cmd 28
                                                      eps := bits cmd 32 32 })
    ∧ (meTurn s m c mx r 4 → ∃ t, exec (.mePost m c mx) s = .next t ∧ MeFrame s t m c ∧ meWent t m c r r.bases (now + 1)
      ∧ meRest (getMeCtx t.dev m c) =
          { meRest x with post := cmd, postAt := [meAddr r (bits cmd 16 25), meAddr r (bits cmd 41 25), meAddr r (bits cmd 66 25)] })
    ∧ (meTurn s m c mx r 7 → ∃ t, exec (.meSeed m c mx) s = .next t ∧ MeFrame s t m c ∧ meWent t m c r r.bases (now + 1)
      ∧ meRest (getMeCtx t.dev m c) = meRest x ∧ (getMe t.dev m).lanes.getLast? = some (now, seedLanes (bits cmd 16 16)))
    ∧ (meTurn s m c mx r 8 → ∃ t, exec (.meMask m c mx) s = .next t ∧ MeFrame s t m c ∧ meWent t m c r r.bases (now + 1)
      ∧ meRest (getMeCtx t.dev m c) = { meRest x with mask := cmd, maskAt := meAddr r (bits cmd 16 25) })
    ∧ (meTurn s m c mx r 9 → ∃ t, exec (.meSetbase m c mx) s = .next t ∧ MeFrame s t m c
      ∧ meWent t m c r (setAt (bits cmd 16 2) (bits cmd 18 23) r.bases) (now + 1) ∧ meRest (getMeCtx t.dev m c) = meRest x)
    ∧ (meTurn s m c mx r 0xA → r.fold ≠ none ∨ (ring.n ≠ 0 ∧ bits cmd 24 16 < meLag s.dev q reg (meRecv m) (mxAt s.dev mx)) →
      ∃ t, exec (.meRwait m c mx) s = .next t ∧ MeFrame s t m c ∧ meWent t m c r r.bases (now + 1) ∧ meRest (getMeCtx t.dev m c) = meRest x)
    ∧ (meTurn s m c mx r 0xA → r.fold = none → ring.n = 0 ∨ meLag s.dev q reg (meRecv m) (mxAt s.dev mx) ≤ bits cmd 24 16 →
      exec (.meRwait m c mx) s = .next s)
    ∧ (ringFlock s.dev q reg = none → meLag s.dev q reg (meRecv m) (mxAt s.dev mx) = lagOf seen seen.t)
    ∧ (meTurn s m c mx r 0xB → r.fold ≠ none ∨ (ring.n ≠ 0 ∧ seen.fill + bits cmd 24 16 < ring.n) →
      ∃ t, exec (.meRspace m c mx) s = .next t ∧ MeFrame s t m c ∧ meWent t m c r r.bases (now + 1) ∧ meRest (getMeCtx t.dev m c) = meRest x)
    ∧ (meTurn s m c mx r 0xB → r.fold = none → ring.n = 0 ∨ ring.n ≤ seen.fill + bits cmd 24 16 → exec (.meRspace m c mx) s = .next s)
    ∧ (meTurn s m c mx r 0xC → r.fold = none →
      ∃ t, exec (.meRrel m c mx) s = .next t ∧ MeRingFrame s t m c q reg ∧ meWent t m c r r.bases (now + 1)
        ∧ meRest (getMeCtx t.dev m c) = meRest x
        ∧ (ring.n ≠ 0 → ringFlock s.dev q reg = none → bits cmd 24 16 ≤ ring.fill →
            getRegion t.dev q reg = { noted with t := addMod ring ring.t (bits cmd 24 16) })
        ∧ (ring.n ≠ 0 → ringFlock s.dev q reg = none → ring.fill < bits cmd 24 16 →
            getRegion t.dev q reg = { noted with t := ring.h } ∧ bit (getR t.dev .spd q 8).toNat 3 = true)
        ∧ (ring.n = 0 → getRegion t.dev q reg = noted))
    ∧ (meTurn s m c mx r 0xC → r.fold ≠ none → ∃ t, exec (.meRrel m c mx) s = .next t ∧ MeFrame s t m c
      ∧ meWent t m c r r.bases (now + 1) ∧ meRest (getMeCtx t.dev m c) = meRest x)
    ∧ (meTurn s m c mx r 0xD → r.fold = none → meQuiet x = true → ringFlock s.dev q reg = none →
      ∃ t, exec (.meRcommit m c mx) s = .next t ∧ MeRingFrame s t m c q reg ∧ meWent t m c r r.bases (now + 1)
        ∧ meRest (getMeCtx t.dev m c) = meRest x
        ∧ (ring.n ≠ 0 → (getRegion t.dev q reg).h = addMod ring ring.h 1 ∧ (getRegion t.dev q reg).fills = ring.fills + 1)
        ∧ (ring.n = 0 → getRegion t.dev q reg = noted))
    ∧ (meTurn s m c mx r 0xD → r.fold = none → meQuiet x = true →
      ∃ t, exec (.meRcommit m c mx) s = .next t ∧ meWent t m c r r.bases (now + 1) ∧ meRest (getMeCtx t.dev m c) = meRest x)
    ∧ (meTurn s m c mx r 0xD → r.fold = none → meQuiet x = false → exec (.meRcommit m c mx) s = .next s)
    ∧ (meTurn s m c mx r 0xD → r.fold ≠ none → ∃ t, exec (.meRcommit m c mx) s = .next t ∧ MeFrame s t m c
      ∧ meWent t m c r r.bases (now + 1) ∧ meRest (getMeCtx t.dev m c) = meRest x)
    ∧ (meTurn s m c mx r 0xE → meQuiet x = true → r.fold = none →
      ∃ t y, exec (.meEnd m c mx) s = .next t ∧ MeFrame s t m c ∧ meActive t.dev m c = some y ∧ y.ended = true
        ∧ y.completed = r.completed + 1 ∧ meRest (getMeCtx t.dev m c) = meRest x)
    ∧ (meTurn s m c mx r 0xE → meQuiet x = true → r.fold ≠ none → r.setup = true →
      ∃ t y, exec (.meEnd m c mx) s = .next t ∧ MeFrame s t m c ∧ meActive t.dev m c = some y ∧ y.inUnit = false
        ∧ y.completed = r.completed + 1 ∧ meRest (getMeCtx t.dev m c) = meRest x)
    ∧ (meTurn s m c mx r 0xE → meQuiet x = true → r.fold ≠ none → r.setup = false →
      ∃ t y, exec (.meEnd m c mx) s = .next t ∧ MeFrame s t m c ∧ meActive t.dev m c = some y ∧ y.setup = true
        ∧ y.index = r.setupCount ∧ y.completed = r.completed + 1 ∧ meRest (getMeCtx t.dev m c) = meRest x)
    ∧ (meTurn s m c mx r 0xE → meQuiet x = false → exec (.meEnd m c mx) s = .next s)

/-- R255, R258-R261, R271-R273: LDW and LDLUT, once the port is theirs, read what they load and hand it over when the port has passed it; MM adds
the products of each row that its mask leaves to its accumulator row and leaves the other rows, and with POST sends its rows out, visible 142
cycles after each enters; ELTW sends its rows out, visible 14 cycles after; an output row is written where it says, and nowhere else. The
model's readings in it: log 70 and 71. -/
def Obligations.MatrixPasses : Prop :=
  ∀ (s : State) (m : Fin 32) (c : Fin 2) (mx : Fin 10),
    let x := getMeCtx s.dev m c
    let now := meNow s.dev m mx
    let q := m.val / 8
    (∀ r, meTurn s m c mx r 2 → spadSound s.dev q → portFree s.dev m c now = true → bufClear x (meCmd r) now = true →
      let cmd := meCmd r
      let a := (meFormats x).1
      let w := (meFormats x).2.1
      let kr := min (bits cmd 57 8 + 1) (meMaxKr a w)
      let nc := min (bits cmd 65 7 + 1) (meMaxNc w)
      let sr := if meIsMx w then ceilDiv kr 32 else 0
      let at_ (i : Nat) := 8 * ((meAddr r (bits cmd 16 25) + i * max 1 (bits cmd 41 16)) % 2 ^ 23)
      ∃ t tile, exec (.meLdw m c mx) s = .next t ∧ MePassFrame s t m ∧ meWent t m c r r.bases (now + 1)
        ∧ getMeCtx t.dev m (1 - c.val) = getMeCtx s.dev m (1 - c.val)
        ∧ (getMe t.dev m).portUntil = now + ceilDiv (kr * portBytes (meElemBytes w nc) + sr * portBytes nc) 256
        ∧ meRest (getMeCtx t.dev m c) = { meRest x with loads := x.loads ++ [.tile (bits cmd 10 1) tile (getMe t.dev m).portUntil] }
        ∧ tile.fmt = w
        ∧ (∀ i, i < kr → tile.elems.getD i [] = meElems w nc (spadPeek s.dev q (at_ i) (meElemBytes w nc)))
        ∧ (∀ i, i < sr → tile.scales.getD i [] = (spadPeek s.dev q (at_ (kr + i)) nc).map (·.toNat))
        ∧ ((meFormats x).2.2 = true → bit (getR t.dev .me m 0xC).toNat 1 = true))
    ∧ (∀ r, meTurn s m c mx r 6 → spadSound s.dev q → portFree s.dev m c now = true →
      let cmd := meCmd r
      ∃ t, exec (.meLdlut m c mx) s = .next t ∧ MePassFrame s t m ∧ meWent t m c r r.bases (now + 1) ∧ (getMe t.dev m).portUntil = now + 5
        ∧ getMeCtx t.dev m (1 - c.val) = getMeCtx s.dev m (1 - c.val)
        ∧ meRest (getMeCtx t.dev m c) = { meRest x with loads := x.loads ++ [.table (bits cmd 16 1)
            { bytes := spadPeek s.dev q (8 * meAddr r (bits cmd 17 25)) 1040 } (now + 5)] })
    ∧ (∀ r, meTurn s m c mx r 3 → spadSound s.dev q → inputFree (getMe s.dev m) c now = true →
      let cmd := meCmd r
      let b := x.bufs.getD (bits cmd 10 1) {}
      b.usable ≤ now → awaitsTile x (bits cmd 10 1) = false →
      let a := (meFormats x).1
      let w := meWeightFmt a (meFormats x).2.1
      let n := bits cmd 57 9 + 1
      let kr := min b.tile.elems.length (meMaxKr a w)
      let nc := min (b.tile.elems.getD 0 []).length (meMaxNc w)
      let row (i : Nat) := (bits cmd 66 9 + i) % 512
      let left := maskRows s.dev m x cmd n
      let k := if r.fold.isSome then n else left.length
      let src (i : Nat) := spadPeek s.dev q (8 * ((meAddr r (bits cmd 16 25) + i * bits cmd 41 16) % 2 ^ 23)) (meRowBytes a kr)
      let scales := if meIsMx w then b.tile.scales else []
      ∃ t outs, exec (.meMm m c mx) s = .next t ∧ MePassFrame s t m ∧ meWent t m c r r.bases (now + max 1 k)
        ∧ (∀ i j, i ∈ left → j < nc → (accRow (getMeCtx t.dev m c) (row i)).getD j 0 =
            (let o := if bit cmd 11 then 0 else (accRow x (row i)).getD j 0
             let col := (b.tile.elems.take kr).map (fun l => l.getD j 0)
             if meFamily a = 0 then (accInt o (dotInt a w (meElems a kr (src i)) col)).1
             else accFloat o (dotFloat a w (meElems a kr (src i)) col (meScales a kr (src i)) (scales.map (fun l => l.getD j 127)))))
        ∧ (∀ i j, i ∈ left → nc ≤ j → (accRow (getMeCtx t.dev m c) (row i)).getD j 0 = (accRow x (row i)).getD j 0)
        ∧ (∀ i, (∀ j ∈ left, i ≠ row j) → accRow (getMeCtx t.dev m c) i = accRow x i)
        ∧ (getMeCtx t.dev m c).red = x.red ∧ (getMeCtx t.dev m c).luts = x.luts ∧ (getMeCtx t.dev m c).loads = x.loads
        ∧ (getMeCtx t.dev m c).outs = x.outs ++ outs
        ∧ outs.length = (if bit cmd 12 then left.length else 0) + (if bit cmd 15 = true ∧ left ≠ [] then 1 else 0)
        ∧ (bit cmd 12 = true → rowsOut r x 142 (rowPlaces r.fold.isSome now left) outs))
    ∧ (∀ r, meTurn s m c mx r 5 → spadSound s.dev q → inputFree (getMe s.dev m) c now = true →
      let cmd := meCmd r
      let a := if 13 ≤ x.afmt then 12 else x.afmt
      let n := bits cmd 57 9 + 1
      let len := bits cmd 116 7 + 1
      let left := maskRows s.dev m x cmd n
      let k := if r.fold.isSome then n else left.length
      let src (i : Nat) := spadPeek s.dev q (8 * ((meAddr r (bits cmd 16 25) + i * bits cmd 41 16) % 2 ^ 23)) (meRowBytes a len)
      ∃ t outs, exec (.meEltw m c mx) s = .next t ∧ MePassFrame s t m ∧ meWent t m c r r.bases (now + max 1 k)
        ∧ meRest (getMeCtx t.dev m c) =
            { meRest x with outs := x.outs ++ outs, was := none, entering := (getMeCtx t.dev m c).entering }
        ∧ outs.length = left.length + (if bit cmd 15 = true ∧ left ≠ [] then 1 else 0)
        ∧ rowsOut r x 14 (rowPlaces r.fold.isSome now left) outs
        ∧ ∀ (j i : Nat) (o : MeOut), left[j]? = some i → outs[j]? = some o → o.vals =
            (if meOutFmt x = 13 then (accRow x ((bits cmd 66 9 + i) % 512)).take len
             else (List.range len).map (fun e => eltwVal a (if meIsMx a then (meScales a len (src i)).getD (e / 32) 127 else 127)
               ((meElems a len (src i)).getD e 0))))
    ∧ (∀ b tile due rest, x.loads = .tile b tile due :: rest → due ≤ now →
      ∃ t, exec (.meLoadComplete m c mx) s = .next t ∧ t = { s with dev := { s.dev with me := t.dev.me } }
        ∧ (∀ k : Nat, k ≠ m → getMe t.dev k = getMe s.dev k) ∧ getMeCtx t.dev m (1 - c.val) = getMeCtx s.dev m (1 - c.val)
        ∧ getMeCtx t.dev m c = { x with loads := rest, bufs := updAt (fun y => { y with tile := tile, usable := due }) b x.bufs })
    ∧ (∀ b lut due rest, x.loads = .table b lut due :: rest → due ≤ now →
      ∃ t, exec (.meLoadComplete m c mx) s = .next t ∧ t = { s with dev := { s.dev with me := t.dev.me } }
        ∧ (∀ k : Nat, k ≠ m → getMe t.dev k = getMe s.dev k) ∧ getMeCtx t.dev m (1 - c.val) = getMeCtx s.dev m (1 - c.val)
        ∧ getMeCtx t.dev m c = { x with loads := rest, luts := setAt b { lut with usable := due } x.luts
                                        outs := x.outs.map (keepTable b due (x.luts.getD b {}).bytes) })
    ∧ (∀ o0, firstOut x = some o0 → o0.due ≤ now →
      (firstOut (getMeCtx s.dev m (1 - c.val))).all (fun p => if c = 0 then decide (o0.due ≤ p.due) else decide (o0.due < p.due)) = true →
      let o := (postOut x o0).1
      let bs := (quantOut (getMe s.dev m).lanes o).1
      ∃ t, exec (.meOutputRowVisible m c mx) s = .next t ∧ MeEndFrame s t m ∧ t.dev.fab = s.dev.fab
        ∧ getMeCtx t.dev m c = { x with outs := x.outs.erase o0, red := (postOut x o0).2 }
        ∧ getMeCtx t.dev m (1 - c.val) = getMeCtx s.dev m (1 - c.val)
        ∧ (o.emits = [] → o.vals ≠ [] → o.vals.length ≤ 128 → spadPeek t.dev q (8 * o.word) bs.length = bs)
        ∧ (o.vals = [] → (o.emits.map (fun w => (w.1 % 2 ^ 23, w.2.1))).Nodup →
            ∀ w ∈ o.emits, spadPeek t.dev q (8 * w.1 + (if w.2.1 then 4 else 0)) 4 = leBytes 4 w.2.2)
        ∧ ∀ p a : Nat, (o.vals ≠ [] → ∀ i, i < bs.length → spadKey p a ≠ spadKey q (8 * o.word + i)) →
            (∀ w ∈ o.emits, ∀ i, i < 4 → spadKey p a ≠ spadKey q (8 * w.1 + (if w.2.1 then 4 else 0) + i)) →
            spadByte t.dev p a = spadByte s.dev p a)

namespace Sys2Proof.Claims

/-- A core's cycle goes to one of its threads, which takes no interrupt and stands at a word of a length (R27, R300). -/
def gcTurn (s : State) (g : Fin 256) (mx : Fin 10) (k w len : Nat) : Prop :=
  coreWorks g (mxAt s.dev mx) s.dev = true ∧ (gcSelect g (mxAt s.dev mx) s.dev).1 = some k
    ∧ gcInterrupt (getThread s.dev (16 * g + k)) = false ∧ gcFetch s.dev (16 * g + k) = .word w len

/-- The module when an instruction that issues in a core's cycle takes effect: the cycle used, the instruction counted (R312). -/
def gcAt (s : State) (g : Fin 256) (mx : Fin 10) (k w : Nat) : Dev :=
  gcIssued (16 * g + k) w (icacheTouch g ((getThread s.dev (16 * g + k)).pc / 64 * 64)
    (gcCycle g (mxAt s.dev mx) (gcSelect g (mxAt s.dev mx) s.dev).2))

/-- What an instruction that works on registers may change: its own thread, the core's cycle, counts, the sampler, the pointer of R27. -/
def GcFrame (s t : State) (n : Nat) : Prop :=
  t = { s with dev := { s.dev with regs := t.dev.regs, cnts := t.dev.cnts, threads := t.dev.threads, cores := t.dev.cores
                                   pmu := t.dev.pmu, rr := t.dev.rr } }
  ∧ ∀ m, m ≠ n → getThread t.dev m = getThread s.dev m

/-- What an instruction that waits for the open pool may change beside: the requests there. -/
def GcPoolFrame (s t : State) (n : Nat) : Prop :=
  t = { s with dev := { s.dev with regs := t.dev.regs, cnts := t.dev.cnts, spd := t.dev.spd, threads := t.dev.threads
                                   cores := t.dev.cores, pmu := t.dev.pmu, rr := t.dev.rr } }
  ∧ ∀ m, m ≠ n → getThread t.dev m = getThread s.dev m

/-- What an access to DRAM may change beside: the memory subsystem and DRAM's bytes and check bits. -/
def GcDramFrame (s t : State) (n : Nat) : Prop :=
  t = { s with dev := { s.dev with regs := t.dev.regs, cnts := t.dev.cnts, mem := t.dev.mem, memsys := t.dev.memsys
                                   threads := t.dev.threads, cores := t.dev.cores, pmu := t.dev.pmu, rr := t.dev.rr } }
  ∧ SameSpad s.dev t.dev ∧ ∀ m, m ≠ n → getThread t.dev m = getThread s.dev m

/-- What RCOMMIT and RREL may change beside: the region, its flock and tags, credits to the peer, and the vision contexts that wait to let
go of its slots (R114, R211, R338). -/
def GcRingFrame (s t : State) (n q r : Nat) : Prop :=
  t = { s with dev := { s.dev with regs := t.dev.regs, cnts := t.dev.cnts, regions := t.dev.regions, audit := t.dev.audit
                                   flocks := t.dev.flocks, peer := t.dev.peer, vis := t.dev.vis, threads := t.dev.threads
                                   cores := t.dev.cores, pmu := t.dev.pmu, rr := t.dev.rr } }
  ∧ (∀ m, m ≠ n → getThread t.dev m = getThread s.dev m) ∧ ∀ j : Nat, j < 256 → j ≠ r → getRegion t.dev q j = getRegion s.dev q j

/-- What YIELD and KREL may change beside: keys, the trace entries on their way, and reports. -/
def GcKeyFrame (s t : State) (n : Nat) : Prop :=
  t = { s with dev := { s.dev with regs := t.dev.regs, cnts := t.dev.cnts, fab := t.dev.fab, shp := t.dev.shp, threads := t.dev.threads
                                   cores := t.dev.cores, pmu := t.dev.pmu, rr := t.dev.rr } }
  ∧ ∀ m, m ≠ n → getThread t.dev m = getThread s.dev m

/-- What a save, a restore or a start may change: the slots' bytes, the Shepherd, threads, counts, IDLE's exit. -/
def GcSlotFrame (s t : State) : Prop :=
  t = { s with dev := { s.dev with wakeAt := t.dev.wakeAt, regs := t.dev.regs, cnts := t.dev.cnts, mem := t.dev.mem, i3c := t.dev.i3c
                                   spd := t.dev.spd, shp := t.dev.shp, threads := t.dev.threads, pmu := t.dev.pmu } }
  ∧ SameDram s.dev t.dev

/-- A thread after an instruction that completes: the next PC, usable again from an MX cycle, one more retired. -/
def gcNext (th : GcThread) (pc at_ : Nat) : GcThread := { th with pc := pc, readyAt := at_, instret := th.instret + 1 }

/-- A thread after an exception (R299). -/
def gcEntered (th : GcThread) (cause tval now : Nat) : GcThread := { th.enter cause tval th.pc with readyAt := now + 1 }

/-- Opcodes that are no register operation: branches, jumps, loads, stores, atomics, fences, SYSTEM and floats. -/
def otherOps : List Nat := [0x63, 0x67, 0x6F, 0x03, 0x07, 0x23, 0x27, 0x2F, 0x0F, 0x73, 0x43, 0x47, 0x4B, 0x4F, 0x53]

/-- A page that a core's cache holds, whose entry allows the use (R242-R244). -/
def gcCached (s : State) (g : Fin 256) (a : Nat) (e : Nat) (use : PageUse) : Prop :=
  a / 2 ^ 38 = 0 ∧ (getCache s.dev (128 + g)).find? (fun c => c.1 == pageOf a) = some (pageOf a, e) ∧ pteCause e use = 0

end Sys2Proof.Claims

/-- R298-R300, R304: the cycle of a core: an integer instruction writes its result and goes on after the cycles of R304; a branch goes to its
target or past itself; a jump links; a CSR instruction reads and writes its CSR; ECALL, a reserved or unlisted word and an interrupt enter M mode
with cause, value and PC saved; MRET restores; a line that is not in the cache is asked for; with no thread ready the cycle is counted idle. The
model's readings in it: log 74, 75 and 78. -/
def Obligations.GeneralCoreIssues : Prop :=
  ∀ (s : State) (g : Fin 256) (mx : Fin 10) (k w len : Nat),
    let n := 16 * g.val + k
    let th := getThread s.dev n
    let now := mxAt s.dev mx
    let chosen := coreWorks g now s.dev = true ∧ (gcSelect g now s.dev).1 = some k
    (∀ v, gcTurn s g mx k w len → aluResult w th.pc (th.reg (rvRs1 w)) (th.reg (rvRs2 w)) = some v →
      ∃ t, exec (.gcInstruction g mx) s = .next t ∧ GcFrame s t n
        ∧ getThread t.dev n = gcNext (th.setReg (rvRd w) v) (th.pc + len) (now + aluCost w))
    ∧ (∀ b, gcTurn s g mx k w len → rvOp w = 0x63 → brTaken w (th.reg (rvRs1 w)) (th.reg (rvRs2 w)) = some b →
      ∃ t, exec (.gcInstruction g mx) s = .next t ∧ GcFrame s t n
        ∧ getThread t.dev n = gcNext th (if b then (BitVec.ofNat 64 th.pc + w64 (immB w)).toNat else th.pc + len) (now + 1))
    ∧ (gcTurn s g mx k w len → rvOp w = 0x6F →
      ∃ t, exec (.gcInstruction g mx) s = .next t ∧ GcFrame s t n
        ∧ getThread t.dev n = gcNext (th.setReg (rvRd w) (BitVec.ofNat 64 (th.pc + len)))
            (BitVec.ofNat 64 th.pc + w64 (immJ w)).toNat (now + 1))
    ∧ (gcTurn s g mx k w len → rvOp w = 0x67 → rvF3 w = 0 →
      ∃ t, exec (.gcInstruction g mx) s = .next t ∧ GcFrame s t n
        ∧ getThread t.dev n = gcNext (th.setReg (rvRd w) (BitVec.ofNat 64 (th.pc + len)))
            ((th.reg (rvRs1 w) + w64 (immI w)).toNat / 2 * 2) (now + 1))
    ∧ (∀ old, gcTurn s g mx k w 4 → rvOp w = 0x73 → rvF3 w = 1 → csrRead s.dev n now (bits w 20 12) = some old → bits w 30 2 ≠ 3 →
      ∃ t, exec (.gcInstruction g mx) s = .next t ∧ GcFrame s t n
        ∧ getThread t.dev n = gcNext ((csrWrite (coreCycle s.dev now) (bits w 20 12) (th.reg (rvRs1 w)).toNat th).setReg (rvRd w)
            (BitVec.ofNat 64 old)) (th.pc + 4) (now + 1))
    ∧ (gcTurn s g mx k 0x73 4 →
      ∃ t, exec (.gcInstruction g mx) s = .next t ∧ GcFrame s t n
        ∧ getThread t.dev n = gcEntered th (if th.mode = 3 then 11 else 8) 0 now)
    ∧ (∀ h, chosen → gcInterrupt th = false → gcFetch s.dev n = .reserved h →
      ∃ t, exec (.gcInstruction g mx) s = .next t ∧ GcFrame s t n
        ∧ getThread t.dev n = gcEntered th 2 (Config.trapValue 2 h).toNat now)
    ∧ (gcTurn s g mx k w len → rvOp w ∉ otherOps → (len = 4 → devOp w = none) →
      aluResult w th.pc (th.reg (rvRs1 w)) (th.reg (rvRs2 w)) = none →
      ∃ t, exec (.gcInstruction g mx) s = .next t ∧ GcFrame s t n
        ∧ getThread t.dev n = gcEntered th 2 (Config.trapValue 2 w).toNat now)
    ∧ (gcTurn s g mx k 0x30200073 4 → th.mode = 3 →
      ∃ t, exec (.gcInstruction g mx) s = .next t ∧ GcFrame s t n ∧ (getThread t.dev n).pc = th.mepc
        ∧ (getThread t.dev n).mode = bits th.mstatus 11 2 ∧ bit (getThread t.dev n).mstatus 3 = bit th.mstatus 7
        ∧ bit (getThread t.dev n).mstatus 7 = true ∧ bits (getThread t.dev n).mstatus 11 2 = 0 ∧ (getThread t.dev n).x = th.x)
    ∧ (chosen → gcInterrupt th = true →
      ∃ t, exec (.gcInstruction g mx) s = .next t ∧ GcFrame s t n ∧ getThread t.dev n = gcEntered th (2 ^ 63 + 11) 0 now)
    ∧ (∀ line e, k < 16 → chosen → gcInterrupt th = false → gcFetch s.dev n = .miss line → gcCached s g line e .fetch →
      ∃ t, exec (.gcInstruction g mx) s = .next t ∧ GcDramFrame s t n ∧ SameDram s.dev t.dev
        ∧ getThread t.dev n = { th with wait := th.wait + 1, park := .fetch line })
    ∧ (coreWorks g now s.dev = true → (gcSelect g now s.dev).1 = none →
      ∃ t, exec (.gcInstruction g mx) s = .next t ∧ t = { s with dev := { s.dev with cnts := t.dev.cnts, cores := t.dev.cores } }
        ∧ (getCore t.dev g).issueAt = now + 1)

/-- R23, R303, R305, R306: an access that is not a multiple of its size, or in control space of 4, is misaligned; an address of no target, and one
that its target does not take, is an access fault with ERR.ACCESS; a scratchpad load waits for the open pool with a request; a scratchpad store
with room in the core's buffer of 16 leaves a request and goes on, and without room waits; on a page that the core's cache holds, a DRAM load asks for
its data and waits, and a DRAM store is accepted; a control-space load returns its register. The model's readings in it: log 77. -/
def Obligations.GeneralCoreAccesses : Prop :=
  ∀ (s : State) (g : Fin 256) (mx : Fin 10) (k w len : Nat) (acc : GcAcc),
    let n := 16 * g.val + k
    let th := getThread s.dev n
    let now := mxAt s.dev mx
    let target := gcTarget th.dataMode acc.addr
    k < 16 → gcTurn s g mx k w len → rvOp w ∈ [0x03, 0x07, 0x23, 0x27, 0x2F] → (rvOp w = 0x07 ∨ rvOp w = 0x27 → bits th.mstatus 13 2 ≠ 0) →
    gcAccOf s.dev n w len = some acc →
    (acc.addr % acc.size ≠ 0 ∨ (target = .control ∧ acc.addr % 4 ≠ 0) →
      ∃ t, exec (.gcInstruction g mx) s = .next t ∧ GcFrame s t n ∧ getThread t.dev n = gcEntered th (causeMisaligned acc.op) acc.addr now)
    ∧ (acc.addr % acc.size = 0 →
      target = .fault ∨ (target = .control ∧ acc.addr % 4 = 0 ∧ (acc.size ≠ 4 ∨ 4 ≤ acc.op)) ∨ (target = .dram ∧ (acc.op = 4 ∨ acc.op = 5)) →
      ∃ t, exec (.gcInstruction g mx) s = .next t ∧ GcFrame s t n ∧ getThread t.dev n = gcEntered th (causeAccess acc.op) acc.addr now
        ∧ bit (getR t.dev .gcx (gcQuad n) 0xC).toNat 1 = true)
    ∧ (acc.addr % acc.size = 0 → target = .spad → acc.op ≠ 3 →
      ∃ t r, exec (.gcInstruction g mx) s = .next t ∧ GcPoolFrame s t n
        ∧ getThread t.dev n = { th with park := .pool }
        ∧ (getSpd t.dev (gcQuad n)).pool = (getSpd s.dev (gcQuad n)).pool ++ [r] ∧ r.acc = acc ∧ r.at_ = now ∧ r.gc = g.val ∧ r.thread = k
        ∧ r.unit = none)
    ∧ (acc.addr % acc.size = 0 → target = .spad → acc.op = 3 → coreStores s.dev (gcOf n) < 16 →
      ∃ t r, exec (.gcInstruction g mx) s = .next t ∧ GcPoolFrame s t n
        ∧ getThread t.dev n = gcNext th (th.pc + len) (now + 1)
        ∧ (getSpd t.dev (gcQuad n)).pool = (getSpd s.dev (gcQuad n)).pool ++ [r] ∧ r.acc = acc ∧ r.at_ = now ∧ r.gc = g.val ∧ r.thread = k)
    ∧ (acc.addr % acc.size = 0 → target = .spad → acc.op = 3 → 16 ≤ coreStores s.dev (gcOf n) →
      ∃ t, exec (.gcInstruction g mx) s = .next t ∧ GcFrame s t n ∧ getThread t.dev n = { th with park := .stores })
    ∧ (∀ e, acc.addr % acc.size = 0 → target = .dram → acc.op < 3 → gcCached s g acc.addr e .read →
      ∃ t, exec (.gcInstruction g mx) s = .next t ∧ GcDramFrame s t n ∧ SameDram s.dev t.dev
        ∧ getThread t.dev n = { th with wait := th.wait + 1, park := .data acc })
    ∧ (∀ e, acc.addr % acc.size = 0 → target = .dram → acc.op = 3 → gcCached s g acc.addr e .write →
      let pa := paOf acc.addr e
      ∃ t, exec (.gcInstruction g mx) s = .next t ∧ GcDramFrame s t n
        ∧ getThread t.dev n = gcNext { th with wait := th.wait + 1 } (th.pc + len) (now + 1)
        ∧ dramPeek t.dev pa acc.size = leBytes acc.size acc.val
        ∧ ∀ c, (∀ i, i < acc.size → c % 2 ^ 38 ≠ (pa + i) % 2 ^ 38) → dramByte t.dev c = dramByte s.dev c)
    ∧ (acc.addr % 4 = 0 → target = .control → acc.size = 4 → acc.op < 3 →
      ∃ t, exec (.gcInstruction g mx) s = .next t
        ∧ t = { s with dev := { s.dev with regs := t.dev.regs, cnts := t.dev.cnts, threads := t.dev.threads, cores := t.dev.cores
                                           pmu := t.dev.pmu, rr := t.dev.rr, latch := t.dev.latch } }
        ∧ getThread t.dev n = gcNext (gcLoaded acc.op acc.rd 4
            (readRegAs s.fuse (.thread n) (acc.addr % 2 ^ 32) (gcAt s g mx k w)).1.toNat th) (th.pc + len) (now + 1))

/-- R308-R310, R322, R323: the device instructions. RSPACE and RFILL give a slot's address once their test holds and park otherwise;
RCOMMIT waits for the thread's stores, and it and RREL move a ring's counts; SRMV and SPOST ask the open pool; TBR and TBRDL read the DT and
the event's deadline; YIELD waits for the thread's stores and makes the thread idle; WAITEV returns for an event or a limit that has come and waits
otherwise; KREL releases the key of an ATOMIC event; CNTR reads a counter. The model's readings in it: log 79, 80 and 113. -/
def Obligations.DeviceInstructions : Prop :=
  ∀ (s : State) (g : Fin 256) (mx : Fin 10) (k w : Nat), k < 16 → gcTurn s g mx k w 4 →
    let n := 16 * g.val + k
    let q := gcQuad n
    let th := getThread s.dev n
    let now := mxAt s.dev mx
    let a := (th.reg (rvRs1 w)).toNat
    let b := (th.reg (rvRs2 w)).toNat
    let r := a % 256
    let ring := getRegion s.dev q r
    let seen := ring.asOf now
    let noted := getRegion (noteMove q r now s.dev) q r
    let done (v : W64) := gcNext (th.setReg (rvRd w) v) (th.pc + 4) (now + 1)
    let gone := (getShp s.dev q).keys.filter (fun x => !(x.thread == n && x.mailbox == false))
    (devOp w = some .rspace → ringTest seen true (b % 65536) = true →
      ∃ t, exec (.gcRspace g mx) s = .next t ∧ GcFrame s t n
        ∧ getThread t.dev n = done (BitVec.ofNat 64 (apertureOf (slotAddr seen (seen.h + b % 65536)))))
    ∧ (devOp w = some .rspace → ringTest seen true (b % 65536) = false →
      ∃ t, exec (.gcRspace g mx) s = .next t ∧ GcFrame s t n ∧ getThread t.dev n = { th with park := .ring true r (b % 65536) })
    ∧ (devOp w = some .rfill → ringTest seen false (b % 65536) = true →
      ∃ t, exec (.gcRfill g mx) s = .next t ∧ GcFrame s t n
        ∧ getThread t.dev n = done (BitVec.ofNat 64 (apertureOf (slotAddr seen (seen.t + b % 65536)))))
    ∧ (devOp w = some .rfill → ringTest seen false (b % 65536) = false →
      ∃ t, exec (.gcRfill g mx) s = .next t ∧ GcFrame s t n ∧ getThread t.dev n = { th with park := .ring false r (b % 65536) })
    ∧ (devOp w = some .rcommit → ownStores s.dev n = 0 → ringFlock s.dev q r = none →
      ∃ t, exec (.gcRcommit g mx) s = .next t ∧ GcRingFrame s t n q r ∧ getThread t.dev n = gcNext th (th.pc + 4) (now + 1)
        ∧ (ring.n ≠ 0 → (getRegion t.dev q r).h = addMod ring ring.h 1 ∧ (getRegion t.dev q r).fills = ring.fills + 1)
        ∧ (ring.n = 0 → getRegion t.dev q r = noted))
    ∧ (devOp w = some .rcommit → ownStores s.dev n = 0 →
      ∃ t, exec (.gcRcommit g mx) s = .next t ∧ (getThread t.dev n).pc = th.pc + 4 ∧ (getThread t.dev n).x = th.x
        ∧ (getThread t.dev n).park = th.park)
    ∧ (devOp w = some .rcommit → ownStores s.dev n ≠ 0 →
      ∃ t, exec (.gcRcommit g mx) s = .next t ∧ GcFrame s t n ∧ getThread t.dev n = { th with park := .stores })
    ∧ (devOp w = some .rrel →
      ∃ t, exec (.gcRrel g mx) s = .next t ∧ GcRingFrame s t n q r ∧ getThread t.dev n = gcNext th (th.pc + 4) (now + 1)
        ∧ (b % 65536 = 0 → getRegion t.dev q r = ring)
        ∧ (ring.n = 0 → b % 65536 ≠ 0 → getRegion t.dev q r = noted)
        ∧ (ring.n ≠ 0 → ringFlock s.dev q r = none → b % 65536 ≠ 0 → b % 65536 ≤ ring.fill →
            getRegion t.dev q r = { noted with t := addMod ring ring.t (b % 65536) })
        ∧ (ring.n ≠ 0 → ringFlock s.dev q r = none → ring.fill < b % 65536 →
            getRegion t.dev q r = { noted with t := ring.h } ∧ bit (getR t.dev .spd q 8).toNat 3 = true))
    ∧ (devOp w = some .srmv → a % 64 = 0 → b % 64 = 0 → gcTarget 0 a = .spad → gcTarget 0 b = .spad →
      ∃ t x, exec (.gcSrmv g mx) s = .next t ∧ GcPoolFrame s t n ∧ getThread t.dev n = { th with park := .pool }
        ∧ (getSpd t.dev q).pool = (getSpd s.dev q).pool ++ [x] ∧ x.acc.addr = a ∧ x.acc.aux = b ∧ x.acc.size = 64)
    ∧ (devOp w = some .srmv → a % 64 ≠ 0 ∨ b % 64 ≠ 0 →
      ∃ t, exec (.gcSrmv g mx) s = .next t ∧ GcFrame s t n
        ∧ getThread t.dev n = (if a % 64 ≠ 0 then gcEntered th 4 a now else gcEntered th 6 b now))
    ∧ (devOp w = some .tbr → ∃ t, exec (.gcTbr g mx) s = .next t ∧ GcFrame s t n ∧ getThread t.dev n = done (BitVec.ofNat 64 s.dev.dt))
    ∧ (devOp w = some .tbrdl → th.attach = none →
      ∃ t, exec (.gcTbrdl g mx) s = .next t ∧ GcFrame s t n ∧ getThread t.dev n = done (BitVec.ofNat 64 (2 ^ 64 - 1)))
    ∧ (∀ i, devOp w = some .tbrdl → th.attach = some i →
      ∃ t, exec (.gcTbrdl g mx) s = .next t ∧ GcFrame s t n
        ∧ getThread t.dev n = done (BitVec.ofNat 64 (widenDeadline s.dev.dt th.ev.dl32)))
    ∧ (devOp w = some .spost → a % 16 = 0 → gcTarget 0 a = .spad →
      ∃ t x, exec (.gcSpost g mx) s = .next t ∧ GcPoolFrame s t n
        ∧ getThread t.dev n = { th with pc := th.pc + 4, park := .pool }
        ∧ (getSpd t.dev q).pool = (getSpd s.dev q).pool ++ [x] ∧ x.acc.addr = a ∧ x.acc.size = 16)
    ∧ (devOp w = some .spost → a % 16 ≠ 0 →
      ∃ t, exec (.gcSpost g mx) s = .next t ∧ GcFrame s t n ∧ getThread t.dev n = gcEntered th 4 a now)
    ∧ (devOp w = some .yield → ownStores s.dev n = 0 →
      ∃ t, exec (.gcYield g mx) s = .next t ∧ GcKeyFrame s t n
        ∧ getThread t.dev n = { gcNext th (th.pc + 4) (now + 1) with busy := false, attach := none, tag := none, dl := noDeadline, resv := none }
        ∧ (∀ i tag, th.tag = some (i, tag) →
          t.dev.fab = { s.dev.fab with reports := s.dev.fab.reports ++ [{ inst := i, tag := tag, code := 0, remote := i.q != q }] })
        ∧ (th.tag = none → t.dev.fab = s.dev.fab) ∧ (getShp t.dev q).keys = gone)
    ∧ (devOp w = some .yield → ownStores s.dev n ≠ 0 →
      ∃ t, exec (.gcYield g mx) s = .next t ∧ GcFrame s t n ∧ getThread t.dev n = { th with park := .stores })
    ∧ (devOp w = some .waitev → mailFull s.dev n = true →
      ∃ t, exec (.gcWaitev g mx) s = .next t ∧ GcFrame s t n ∧ getThread t.dev n = done (BitVec.ofNat 64 (2 ^ 63 + mailWord s.dev n)))
    ∧ (devOp w = some .waitev → mailFull s.dev n = false → a ≠ 0 → a ≤ s.dev.dt →
      ∃ t, exec (.gcWaitev g mx) s = .next t ∧ GcFrame s t n ∧ getThread t.dev n = done 0)
    ∧ (devOp w = some .waitev → mailFull s.dev n = false → a = 0 ∨ s.dev.dt < a →
      ∃ t, exec (.gcWaitev g mx) s = .next t ∧ GcFrame s t n ∧ getThread t.dev n = { th with park := .event a (rvRd w) })
    ∧ (devOp w = some .krel →
      ∃ t, exec (.gcKrel g mx) s = .next t ∧ GcKeyFrame s t n ∧ t.dev.fab = s.dev.fab
        ∧ getThread t.dev n = gcNext th (th.pc + 4) (now + 1)
        ∧ (getShp t.dev q).keys = if 2 ≤ th.ev.order then gone else (getShp s.dev q).keys)
    ∧ (∀ off grp, devOp w = some .cntr → cntrSelect a = some (off, grp) → th.mode = 3 ∨ cntrGranted s.dev q grp = true →
      ∃ t, exec (.gcCntr g mx) s = .next t ∧ GcFrame s t n ∧ getThread t.dev n = done (BitVec.ofNat 64 (pmuCount (gcAt s g mx k w) q off)))
    ∧ (devOp w = some .cntr → cntrSelect a = none → th.mode = 3 →
      ∃ t, exec (.gcCntr g mx) s = .next t ∧ GcFrame s t n ∧ getThread t.dev n = done 0)
    ∧ (devOp w = some .cntr → th.mode ≠ 3 → (cntrSelect a).all (fun x => !cntrGranted s.dev q x.2) = true →
      ∃ t, exec (.gcCntr g mx) s = .next t ∧ GcFrame s t n ∧ getThread t.dev n = gcEntered th 2 (Config.trapValue 2 w).toNat now)

/-- R304, R309, R310, R311, R312: what ends a thread's waits, saves and restores, and IINV. The model's readings in it: log 79 and 82. -/
def Obligations.GeneralCoreWaitsEnd : Prop :=
  (∀ (s : State) (g : Fin 256) (k : Fin 16) (vx : Fin 5) (acc : GcAcc) (r : MemReturn) (d1 : Dev),
    let n := 16 * g.val + k.val
    let th := getThread s.dev n
    th.park = .data acc → takeReturn (.gcData g k th.wait) (vxAt s.dev vx) s.dev = some (r, d1) → acc.op < 3 → r.fault = none →
    r.bytes ≠ [] → r.bad = false →
    ∃ t, exec (.gcDramLoadReturn g k vx) s = .next t
      ∧ t = { s with dev := { s.dev with cnts := t.dev.cnts, memsys := d1.memsys, threads := t.dev.threads, pmu := t.dev.pmu } }
      ∧ (∀ m, m ≠ n → getThread t.dev m = getThread s.dev m)
      ∧ getThread t.dev n = { gcNext (gcLoaded acc.op acc.rd acc.size (leNat r.bytes) th) (th.pc + accLen acc) (2 * vxAt s.dev vx + 1) with
                              park := .none })
  ∧ (∀ (s : State) (g : Fin 256) (k : Fin 16) (vx : Fin 5) (acc : GcAcc) (r : MemReturn) (d1 : Dev) (c : Nat × Nat),
    let n := 16 * g.val + k.val
    let th := getThread s.dev n
    th.park = .data acc → takeReturn (.gcData g k th.wait) (vxAt s.dev vx) s.dev = some (r, d1) → r.fault = some c → r.bad = false →
    ∃ t, exec (.gcDramLoadReturn g k vx) s = .next t
      ∧ t = { s with dev := { s.dev with cnts := t.dev.cnts, memsys := d1.memsys, threads := t.dev.threads, pmu := t.dev.pmu } }
      ∧ (∀ m, m ≠ n → getThread t.dev m = getThread s.dev m)
      ∧ getThread t.dev n = { th.enter (causePage acc.op) acc.addr acc.pc with readyAt := 2 * vxAt s.dev vx + 1 })
  ∧ (∀ (s : State) (g : Fin 256) (k : Fin 16) (vx : Fin 5) (acc : GcAcc) (r : MemReturn) (d1 : Dev),
    let n := 16 * g.val + k.val
    let th := getThread s.dev n
    th.park = .data acc → takeReturn (.gcData g k th.wait) (vxAt s.dev vx) s.dev = some (r, d1) → r.bad = true →
    r.fault ≠ none ∨ (accKind acc.op = 0 ∧ r.bytes ≠ []) →
    ∃ t, exec (.gcDramLoadReturn g k vx) s = .next t
      ∧ t = { s with dev := { s.dev with regs := t.dev.regs, cnts := t.dev.cnts, memsys := d1.memsys, threads := t.dev.threads
                                         pmu := t.dev.pmu } }
      ∧ (∀ m, m ≠ n → getThread t.dev m = getThread s.dev m)
      ∧ getThread t.dev n = { th.enter (causeAccess acc.op) acc.addr acc.pc with readyAt := 2 * vxAt s.dev vx + 1 }
      ∧ bit (getR t.dev .gcx (gcQuad n) 0xC).toNat 0 = true)
  ∧ (∀ (s : State) (g : Fin 256) (k : Fin 16) (vx : Fin 5) (acc : GcAcc) (r : MemReturn) (d1 : Dev),
    let n := 16 * g.val + k.val
    let th := getThread s.dev n
    th.park = .data acc → takeReturn (.gcData g k th.wait) (vxAt s.dev vx) s.dev = some (r, d1) → r.fault = none → acc.op = 18 →
    ∃ t, exec (.gcDramLoadReturn g k vx) s = .next t
      ∧ t = { s with dev := { s.dev with cnts := t.dev.cnts, memsys := d1.memsys, threads := t.dev.threads, pmu := t.dev.pmu } }
      ∧ (∀ m, m ≠ n → getThread t.dev m = getThread s.dev m)
      ∧ getThread t.dev n = { gcNext (gcLoaded 0 acc.rd acc.size acc.val th) (th.pc + 4) (2 * vxAt s.dev vx + 1) with park := .none })
  ∧ (∀ (s : State) (g : Fin 256) (k : Fin 16) (vx : Fin 5) (line : Nat) (r : MemReturn) (d1 : Dev),
    let n := 16 * g.val + k.val
    let th := getThread s.dev n
    th.park = .fetch line → takeReturn (.gcFetch g k th.wait) (vxAt s.dev vx) s.dev = some (r, d1) → r.fault = none → r.bad = false →
    ∃ t, exec (.gcIcacheRefill g k vx) s = .next t
      ∧ t = { s with dev := { s.dev with memsys := d1.memsys, threads := t.dev.threads, cores := t.dev.cores } }
      ∧ (∀ m, m ≠ n → getThread t.dev m = getThread s.dev m) ∧ (∀ p : Nat, p ≠ g → getCore t.dev p = getCore s.dev p)
      ∧ icacheLine t.dev g line = some r.bytes ∧ getThread t.dev n = { th with park := .none, readyAt := 2 * vxAt s.dev vx + 1 })
  ∧ (∀ (s : State) (g : Fin 256) (k : Fin 16) (mx : Fin 10) (space : Bool) (r j : Nat),
    let n := 16 * g.val + k.val
    let th := getThread s.dev n
    th.park = .ring space r j → ringTest ((getRegion s.dev (gcQuad n) r).asOf (mxAt s.dev mx)) space j = true →
    ∃ t, exec (.gcParkWake g k mx) s = .next t ∧ t = { s with dev := { s.dev with threads := t.dev.threads } }
      ∧ (∀ m, m ≠ n → getThread t.dev m = getThread s.dev m)
      ∧ getThread t.dev n = { th with park := .none, readyAt := max th.readyAt (mxAt s.dev mx + 1) })
  ∧ (∀ (s : State) (g : Fin 256) (k : Fin 16) (mx : Fin 10) (limit rd : Nat),
    let n := 16 * g.val + k.val
    let th := getThread s.dev n
    th.park = .event limit rd → limit ≠ 0 → limit ≤ s.dev.dt →
    ∃ t, exec (.gcWaitevTimeout g k mx) s = .next t
      ∧ t = { s with dev := { s.dev with cnts := t.dev.cnts, threads := t.dev.threads, pmu := t.dev.pmu } }
      ∧ (∀ m, m ≠ n → getThread t.dev m = getThread s.dev m)
      ∧ getThread t.dev n = { gcNext (th.setReg rd 0) (th.pc + 4) (mxAt s.dev mx + 1) with park := .none })
  ∧ (∀ (s : State) (b : WriteBy) (g : Fin 256) (v : W32), writesNow s b (coreCtlAddr g) = true → setBit v 1 = true →
    ∃ t, exec (.gcIinv b g v) s = .next t
      ∧ t = { s with dev := { s.dev with regs := t.dev.regs, cores := t.dev.cores, cnts := t.dev.cnts, log := t.dev.log, ctxs := t.dev.ctxs } }
      ∧ (getCore t.dev g).icache = [] ∧ (∀ p, p ≠ g.val → getCore t.dev p = getCore s.dev p)
      ∧ SameRegsBut [coreCtlAddr g] s.dev t.dev)
  ∧ (∀ (s : State) (g : Fin 256) (k : Fin 16) (mx : Fin 10) (e : ReadyEnt) (slot : Nat),
    let n := 16 * g.val + k.val
    let q := gcQuad n
    let th := getThread s.dev n
    th.save = some (e, none, slot) → saveReady th = true → th.readyAt + 64 ≤ mxAt s.dev mx →
    ∃ t, exec (.gcSaveDone g k mx) s = .next t ∧ GcSlotFrame s t
      ∧ (getShp t.dev q).resume = (getShp s.dev q).resume ++
          [⟨{ ev := th.ev, dl := th.dl, attach := th.attach, tag := th.tag, vx := mxAt s.dev mx / 2 }, slot⟩]
      ∧ spadPeek t.dev q (8 * saveWord s.dev q slot) 640 = saveBytes s.dev th
      ∧ (∀ p a : Nat, (∀ i, i < 640 → spadKey p a ≠ spadKey q (8 * saveWord s.dev q slot + i)) → spadByte t.dev p a = spadByte s.dev p a)
      ∧ (∀ m, m ≠ n → ∃ v, getThread t.dev m = { getThread s.dev m with resv := v })
      ∧ (getThread t.dev n).save = none ∧ (getThread t.dev n).busy = true ∧ (getThread t.dev n).ev = e.ev
      ∧ (getThread t.dev n).dl = e.dl ∧ (getThread t.dev n).attach = e.attach ∧ (getThread t.dev n).pc = (entryOf s.dev q e.ev).1
      ∧ (getThread t.dev n).reg 10 = BitVec.ofNat 64 e.ev.payload)
  ∧ (∀ (s : State) (g : Fin 256) (k : Fin 16) (mx : Fin 10) (e : ReadyEnt) (from_ slot : Nat),
    let n := 16 * g.val + k.val
    let q := gcQuad n
    let th := getThread s.dev n
    th.save = some (e, some from_, slot) → saveReady th = true → th.readyAt + 64 ≤ mxAt s.dev mx →
    ∃ t, exec (.gcSaveDone g k mx) s = .next t ∧ GcSlotFrame s t
      ∧ (getShp t.dev q).resume = (getShp s.dev q).resume ++
          [⟨{ ev := th.ev, dl := th.dl, attach := th.attach, tag := th.tag, vx := mxAt s.dev mx / 2 }, slot⟩]
      ∧ spadPeek t.dev q (8 * saveWord s.dev q slot) 640 = saveBytes s.dev th
      ∧ (∀ m, m ≠ n → ∃ v, getThread t.dev m = { getThread s.dev m with resv := v })
      ∧ getThread t.dev n = { th with save := none, busy := false, park := .none, resv := none
                                      restore := some (e, from_, 2 * (mxAt s.dev mx / 2) + 64) })
  ∧ (∀ (s : State) (g : Fin 256) (k : Fin 16) (mx : Fin 10) (e : ReadyEnt) (slot due : Nat),
    let n := 16 * g.val + k.val
    let q := gcQuad n
    let th := getThread s.dev n
    th.restore = some (e, slot, due) → due ≤ mxAt s.dev mx → spadBad s.dev q (8 * saveWord s.dev q slot) 640 = false →
    ∃ t, exec (.gcRestoreDone g k mx) s = .next t
      ∧ t = { s with dev := { s.dev with regs := t.dev.regs, cnts := t.dev.cnts, spd := t.dev.spd, shp := t.dev.shp, threads := t.dev.threads } }
      ∧ (∀ m, m ≠ n → getThread t.dev m = getThread s.dev m)
      ∧ getThread t.dev n = { restoreFrom (spadPeek s.dev q (8 * saveWord s.dev q slot) 640) e th with readyAt := due + 10 }
      ∧ (getShp t.dev q).keys = (getShp s.dev q).keys.map (fun x =>
          if x.thread = slotHolder slot ∧ x.mailbox = false then { x with thread := n } else x))

namespace Sys2Proof.Claims

/-- What accepting or moving events may change. -/
def ShpFrame (s t : State) : Prop :=
  t = { s with dev := { s.dev with regs := t.dev.regs, cnts := t.dev.cnts, fab := t.dev.fab, shp := t.dev.shp, threads := t.dev.threads
                                   pmu := t.dev.pmu, rr := t.dev.rr } }

/-- What a decision may change: the list, threads, the mailbox's bytes, counts, the trace entries on their way, IDLE's exit. -/
def DispatchFrame (s t : State) : Prop :=
  t = { s with dev := { s.dev with wakeAt := t.dev.wakeAt, regs := t.dev.regs, cnts := t.dev.cnts, mem := t.dev.mem, fab := t.dev.fab
                                   i3c := t.dev.i3c, spd := t.dev.spd, shp := t.dev.shp, threads := t.dev.threads, pmu := t.dev.pmu
                                   rr := t.dev.rr } }
  ∧ SameDram s.dev t.dev

/-- Nothing in the paddocks of a quadrant is due in a VX cycle (R325). -/
def padsQuiet (s : State) (q : Fin 4) (vx : Fin 5) : Bool := (List.range 4).all (fun p => (padDue s.dev q p (vxAt s.dev vx)).isEmpty)

/-- A wait of w VX cycles is counted in its bin of the class's histogram (R328). -/
def waitCounted (s t : State) (q w cls : Nat) : Prop :=
  let b := if w < 16 then 0 else if w < 2 ^ 18 then Nat.log2 w - 3 else 15
  cntAt t.dev (addrOf .shp q (0x400 + 0x40 * cls + 4 * b)) = cntAt s.dev (addrOf .shp q (0x400 + 0x40 * cls + 4 * b)) + 1

/-- The Shepherd of a quadrant takes a decision in this VX cycle, and a list entry comes first (R317). -/
def dispatchTurn (s : State) (q : Fin 4) (vx : Fin 5) (e : ReadyEnt) : Prop :=
  getF s.dev .shp q 0 0 1 = 1 ∧ (getShp s.dev q).decideAt ≤ vxAt s.dev vx ∧ (getSpd s.dev q).initDone = true
    ∧ (candidatesAt s.dev q (vxAt s.dev vx)).head? = some { ent := e, slot := none }

end Sys2Proof.Claims

/-- R314, R315, R318, R325, R327: a post reaches the list, a paddock, or is dropped with its bit of ERR; HOST_GO posts the event of the
four registers; spilled events are written out, and come back when there is room; due paddock entries arrive. The model's readings in it: log 83. -/
def Obligations.ShepherdTakesEvents : Prop :=
  (∀ (s : State) (q : Fin 4) (vx : Fin 5) (p : Post) (rest : List Post),
    takeFirst (fun p : Post => p.q == q.val) s.dev.fab.posts = some (p, rest) → p.src < 172 → padsQuiet s q vx = true → p.pad = none → p.ret = none → p.ev.typ ≠ 0 →
    spillDepth (getSpill s.dev q 0) = 0 → (getShp s.dev q).ready.length < 3840 →
    ∃ t e, exec (.shpPostAccept q 1 vx) s = .next t ∧ ShpFrame s t ∧ t.dev.fab = { s.dev.fab with posts := rest }
      ∧ (getShp t.dev q).ready = (getShp s.dev q).ready ++ [e]
      ∧ e.ev = { p.ev with flags := b2n p.attach.isSome + 16 * bits p.ev.flags 4 1 } ∧ e.dl = p.dl ∧ e.attach = p.attach ∧ e.tag = p.tag
      ∧ e.vx = vxAt s.dev vx ∧ (getShp t.dev q).pads = (getShp s.dev q).pads ∧ e.avail = vxAt s.dev vx + 1
      ∧ cntAt t.dev (addrOf .shp q 0x80) = cntAt s.dev (addrOf .shp q 0x80) + 1)
  ∧ (∀ (s : State) (q : Fin 4) (vx : Fin 5) (p : Post) (rest : List Post),
    takeFirst (fun p : Post => p.q == q.val) s.dev.fab.posts = some (p, rest) → p.src < 172 → padsQuiet s q vx = true → p.ret = none → p.ev.typ = 0 →
    p.tag = none →
    ∃ t, exec (.shpPostAccept q 1 vx) s = .next t ∧ ShpFrame s t ∧ t.dev.fab = { s.dev.fab with posts := rest } ∧ (∀ k, getShp t.dev k = getShp s.dev k)
      ∧ bit (getR t.dev .shp q 0xC).toNat 0 = true ∧ cntAt t.dev (addrOf .shp q 0x98) = cntAt s.dev (addrOf .shp q 0x98) + 1)
  ∧ (∀ (s : State) (q : Fin 4) (vx : Fin 5) (p : Post) (rest : List Post) (k : Fin 4) (due : Nat),
    takeFirst (fun p : Post => p.q == q.val) s.dev.fab.posts = some (p, rest) → p.src < 172 → padsQuiet s q vx = true → p.pad = some (k.val, due) → p.ret = none →
    p.ev.typ ≠ 0 → (padOf s.dev q k).length < 16384 →
    ∃ t e, exec (.shpPostAccept q 1 vx) s = .next t ∧ ShpFrame s t ∧ (getShp t.dev q).pads = updAt (insertDue e) k (getShp s.dev q).pads ∧ e.due = due
      ∧ e.rel = ceilDiv due (padTick s.dev q k) * padTick s.dev q k ∧ e.ev.typ = p.ev.typ ∧ (getShp t.dev q).ready = (getShp s.dev q).ready)
  ∧ (∀ (s : State) (b : WriteBy) (q : Fin 4) (v : W32), writesNow s b (hostGoAddr q) = true → setBit v 31 = true →
    let ev := eventOf ((List.range 4).flatMap (fun i => leBytes 4 (getR s.dev .shp q (0x30 + 4 * i)).toNat))
    ∃ t p, exec (.hostGo b q v) s = .next t
      ∧ t = { s with dev := { s.dev with fab := t.dev.fab, cnts := t.dev.cnts, log := t.dev.log, ctxs := t.dev.ctxs } }
      ∧ t.dev.fab = { s.dev.fab with posts := s.dev.fab.posts ++ [p] } ∧ p.q = q ∧ p.attach = none ∧ p.ev.payload = ev.payload
      ∧ p.ev.cls = ev.cls ∧ p.ev.key = ev.key ∧ p.ev.typ = (if ev.typ = 0 then 0x0D else ev.typ))
  ∧ (∀ (s : State) (q : Fin 4) (ring vx : Fin 5) (e : ReadyEnt),
    let x := getSpill s.dev q ring
    let dva := spillAddr s.dev q ring x.tail
    let pa := dvaPa s.dev dva
    x.wbuf = [e] → x.last + 64 ≤ vxAt s.dev vx → issuerFree s.dev q (vxAt s.dev vx) = true → dvaFault s.dev dva 32 .write = none →
    ∃ t, exec (.shpSpillWrite q ring vx) s = .next t
      ∧ t = { s with dev := { s.dev with cnts := t.dev.cnts, mem := t.dev.mem, shp := t.dev.shp, memsys := t.dev.memsys } }
      ∧ SameSpad s.dev t.dev ∧ issuerFree t.dev q (vxAt s.dev vx) = false ∧ dramPeek t.dev pa 32 = spillBytes e
      ∧ (∀ a, (∀ i, i < 32 → a % 2 ^ 38 ≠ (pa + i) % 2 ^ 38) → dramByte t.dev a = dramByte s.dev a)
      ∧ getSpill t.dev q ring = { x with wbuf := [], ring := x.ring ++ [e], tail := x.tail + 1 })
  ∧ (∀ (s : State) (q : Fin 4) (vx : Fin 5), (getSpill s.dev q 0).ring = [] →
    (getSpill s.dev q 0).wbuf ≠ [] → (getShp s.dev q).ready.length ≤ 3832 →
    ∃ t new, exec (.shpRefill q vx) s = .next t ∧ ShpFrame s t ∧ (getShp t.dev q).ready = (getShp s.dev q).ready ++ new
      ∧ new.length = min 8 (getSpill s.dev q 0).wbuf.length ∧ (getSpill t.dev q 0).wbuf = (getSpill s.dev q 0).wbuf.drop 8
      ∧ ∀ e ∈ new, bit e.ev.flags 2 = true ∧ e.avail = vxAt s.dev vx + 1)
  ∧ (∀ (s : State) (q : Fin 4) (vx : Fin 5) (e : ReadyEnt),
    let x := getSpill s.dev q 0
    let dva := spillAddr s.dev q 0 x.head
    x.ring = [e] → x.wbuf = [] → (getShp s.dev q).ready.length ≤ 3832 → issuerFree s.dev q (vxAt s.dev vx) = true →
    dvaFault s.dev dva 32 .read = none → dvaBad s.dev dva 32 = false →
    ∃ t i, exec (.shpRefill q vx) s = .next t
      ∧ t = { s with dev := { s.dev with cnts := t.dev.cnts, shp := t.dev.shp, memsys := t.dev.memsys } }
      ∧ (getShp t.dev q).ready = (getShp s.dev q).ready ++ [{ readEntry s.dev q 0 x.head e with idx := i, avail := vxAt s.dev vx + 1 }]
      ∧ getSpill t.dev q 0 = { x with ring := [], head := x.head + 1 } ∧ issuerFree t.dev q (vxAt s.dev vx) = false)
  ∧ (∀ (s : State) (q p : Fin 4) (vx : Fin 5) (e : ReadyEnt), padOf s.dev q p = [e] → e.rel ≤ s.dev.dt →
    e.vx < vxAt s.dev vx → spillDepth (getSpill s.dev q 0) = 0 → (getShp s.dev q).ready.length < 3840 →
    ∃ t x, exec (.paddockRelease q p vx) s = .next t ∧ ShpFrame s t ∧ padOf t.dev q p = []
      ∧ (getShp t.dev q).ready = (getShp s.dev q).ready ++ [x] ∧ x.ev.payload = e.ev.payload ∧ bit x.ev.flags 3 = true)
  ∧ (∀ (s : State) (q p : Fin 4) (vx : Fin 5) (e : ReadyEnt),
    (getSpill s.dev q (1 + p)).ring = [] → (getSpill s.dev q (1 + p)).wbuf = [e] → (padOf s.dev q p).length < 8192 → s.dev.dt ≤ e.rel →
    ∃ t x, exec (.paddockRefill q p vx) s = .next t ∧ ShpFrame s t
      ∧ (getShp t.dev q).pads = updAt (insertDue x) p (getShp s.dev q).pads ∧ x.due = e.due
      ∧ bit x.ev.flags 2 = true ∧ (getSpill t.dev q (1 + p)).wbuf = [])

/-- R301, R317, R320-R322, R324, R328: a decision starts the first event on an idle thread, at its type's entry point and mode or else its
class's, restores it there where it is a resume entry, saves a busy thread that serves a later event where none is idle, or delivers it to
its mailbox thread; a start or delivery adds 1 to the histogram bin of its wait; a void's notice marks the events of the instance. The model's readings in it: log 83. -/
def Obligations.ShepherdDispatches : Prop :=
  (∀ (s : State) (q : Fin 4) (vx : Fin 5) (e : ReadyEnt) (n : Nat), dispatchTurn s q vx e → e.ev.cls < 8 →
    bit (shpCfg s.dev q 2 1) e.ev.cls = false → idleThread s.dev q = some n →
    ∃ t, exec (.shpDispatch q vx) s = .next t ∧ DispatchFrame s t ∧ SameSpad s.dev t.dev
      ∧ (∀ m, m ≠ n → getThread t.dev m = getThread s.dev m)
      ∧ (getShp t.dev q).ready = (getShp s.dev q).ready.filter (fun x => x.arr != e.arr) ∧ (getShp t.dev q).decideAt = vxAt s.dev vx + 1
      ∧ (getThread t.dev n).busy = true ∧ (getThread t.dev n).ev = e.ev ∧ (getThread t.dev n).dl = e.dl
      ∧ (getThread t.dev n).attach = e.attach
      ∧ (let typed := shpCfg s.dev q (0x100 + 16 * e.ev.typ) 8
         let byType := e.ev.typ < 0x40 ∧ typed ≠ 0
         (getThread t.dev n).pc = (if byType then typed else shpCfg s.dev q (0x60 + 16 * e.ev.cls) 8)
           ∧ (getThread t.dev n).mode
             = (if (if byType then shpCfg s.dev q (0x108 + 16 * e.ev.typ) 1 else shpCfg s.dev q (0x68 + 16 * e.ev.cls) 1) = 3 then 3 else 0))
      ∧ waitCounted s t q (vxAt s.dev vx - e.vx) e.ev.cls
      ∧ (getThread t.dev n).reg 11 = BitVec.ofNat 64 (leNat ((eventBytes e.ev).take 8))
      ∧ (∀ x : Nat, x ≠ 10 → x ≠ 11 → (getThread t.dev n).reg x = (getThread s.dev n).reg x)
      ∧ (getThread t.dev n).reg 10 = BitVec.ofNat 64 e.ev.payload ∧ (getThread t.dev n).park = .none
      ∧ (getShp t.dev q).keys = (getShp s.dev q).keys
          ++ (if 2 ≤ e.ev.order then [{ key := e.ev.key, thread := n, mailbox := false }] else []))
  ∧ (∀ (s : State) (q : Fin 4) (vx : Fin 5) (e : ReadyEnt) (slot n : Nat), getF s.dev .shp q 0 0 1 = 1 →
    (getShp s.dev q).decideAt ≤ vxAt s.dev vx → (getSpd s.dev q).initDone = true →
    (candidatesAt s.dev q (vxAt s.dev vx)).head? = some { ent := e, slot := some slot } → idleThread s.dev q = some n →
    ∃ t, exec (.shpDispatch q vx) s = .next t ∧ DispatchFrame s t ∧ SameSpad s.dev t.dev
      ∧ (∀ m, m ≠ n → getThread t.dev m = getThread s.dev m)
      ∧ getThread t.dev n = { getThread s.dev n with restore := some (e, slot, 2 * vxAt s.dev vx + 64) }
      ∧ (getShp t.dev q).resume = (getShp s.dev q).resume.filter (fun r => r.slot != slot) ∧ (getShp t.dev q).decideAt = vxAt s.dev vx + 1)
  ∧ (∀ (s : State) (q : Fin 4) (vx : Fin 5) (e : ReadyEnt) (n slot : Nat), dispatchTurn s q vx e →
    bit (shpCfg s.dev q 2 1) e.ev.cls = false → idleThread s.dev q = none → shpCfg s.dev q 0 1 ≤ e.ev.cls → victimOf s.dev q = some n →
    freeSlot s.dev q = some slot → laterThan e.dl e.ev.cls (getThread s.dev n) = true →
    ∃ t, exec (.shpDispatch q vx) s = .next t ∧ DispatchFrame s t ∧ SameSpad s.dev t.dev
      ∧ (∀ m, m ≠ n → getThread t.dev m = getThread s.dev m)
      ∧ getThread t.dev n = { getThread s.dev n with save := some (e, none, slot)
                                                     readyAt := max (getThread s.dev n).readyAt (2 * vxAt s.dev vx) }
      ∧ (getShp t.dev q).ready = (getShp s.dev q).ready.filter (fun x => x.arr != e.arr) ∧ (getShp t.dev q).decideAt = vxAt s.dev vx + 1)
  ∧ (∀ (s : State) (q : Fin 4) (vx : Fin 5) (e : ReadyEnt), dispatchTurn s q vx e → e.ev.cls < 8 → bit (shpCfg s.dev q 2 1) e.ev.cls = true →
    let n := mailThread s.dev q e.ev.cls
    mailFull s.dev n = false →
    ∃ t, exec (.shpDispatch q vx) s = .next t ∧ DispatchFrame s t
      ∧ (getShp t.dev q).ready = (getShp s.dev q).ready.filter (fun x => x.arr != e.arr)
      ∧ (getThread t.dev n).mail = some (e.ev, e.tag) ∧ (getThread t.dev n).meip = true
      ∧ waitCounted s t q (vxAt s.dev vx - e.vx) e.ev.cls
      ∧ spadPeek t.dev q (8 * mailWord s.dev n) 16 = eventBytes e.ev
      ∧ ∀ p a : Nat, (∀ i, i < 16 → spadKey p a ≠ spadKey q (8 * mailWord s.dev n + i)) → spadByte t.dev p a = spadByte s.dev p a)
  ∧ (∀ (s : State) (q : Fin 4) (m : StopMsg) (rest : List StopMsg),
    takeFirst (fun m : StopMsg => m.kind == .shepherd && m.unit == q.val && stopReady s.dev m) s.dev.fab.stops = some (m, rest) →
    ∃ t, exec (.shpVoidNotice q) s = .next t ∧ t = { s with dev := { s.dev with shp := t.dev.shp, fab := t.dev.fab } }
      ∧ t.dev.fab.stops = rest ∧ (getShp t.dev q).ready = staleIn m.inst (getShp s.dev q).ready
      ∧ (getShp t.dev q).pads = (getShp s.dev q).pads.map (staleIn m.inst)
      ∧ (getShp t.dev q).spills = (getShp s.dev q).spills.map (fun x => { x with ring := staleIn m.inst x.ring, wbuf := staleIn m.inst x.wbuf })
      ∧ (m.event = none → t.dev.fab = { s.dev.fab with stops := rest })
      ∧ ∀ ev, m.event = some ev → ∃ p : Post, t.dev.fab = { s.dev.fab with stops := rest, posts := s.dev.fab.posts ++ [p] } ∧ p.q = q.val
          ∧ p.ev = ev)

/-- R330, R332-R337, R353: enabling a port makes it ready at once; the scheduler's choice sends its next packet, at a Frame End its frame is
gone; a closed frame sends its record and Frame End; calibration goes out between frames once it is due. The model's readings in it: log 84 and 86. -/
def Obligations.TransmitPortsSend : Prop :=
  (∀ (s : State) (b : WriteBy) (p : Fin 8) (v : W32), writesNow s b (txpCtlAddr p) = true → setBit v 0 = true → txEnabled s.dev p = false →
    ∃ t, exec (.txPortEnable b p v) s = .next t
      ∧ t = { s with dev := { s.dev with regs := t.dev.regs, tx := t.dev.tx, cnts := t.dev.cnts, log := t.dev.log, ctxs := t.dev.ctxs } }
      ∧ SameRegsBut [txpCtlAddr p] s.dev t.dev ∧ (∀ k : Nat, k ≠ p → getTx t.dev k = getTx s.dev k)
      ∧ getTx t.dev p = { getTx s.dev p with ready := true, lastCal := s.dev.dt
                                             cals := if 1500 < (getTx s.dev p).rate then (getTx s.dev p).cals + 1 else (getTx s.dev p).cals })
  ∧ (∀ (s : State) (p : Fin 8) (cycles : Nat) (f f1 : TxFrame) (k : TxPacket), (txChoose p s.dev).1 = some f → f.closed = false →
    nextPacket f = some (k, f1) →
    ∃ t, exec (.txPacketSend p cycles) s = .next t
      ∧ t = { s with dev := { s.dev with tx := t.dev.tx, cnts := t.dev.cnts, rr := t.dev.rr } }
      ∧ getTx t.dev p = { getTx s.dev p with wire := (getTx s.dev p).wire ++ [k]
                                             frames := if k.typ = 0x01 then dropHead f.vc (getTx s.dev p).frames
                                                       else setHead f1 (getTx s.dev p).frames }
      ∧ (∀ n : Nat, n ≠ p → getTx t.dev n = getTx s.dev n)
      ∧ (0x10 ≤ k.typ → cntAt t.dev (addrOf .txp p 0x28) = cntAt s.dev (addrOf .txp p 0x28) + 1))
  ∧ (∀ (s : State) (p : Fin 8) (cycles : Nat) (f : TxFrame) (r : List Byte), (txChoose p s.dev).1 = some f → f.closed = true →
    f.record = some r → f.recordSent = false → f.parts.find? (partReady f) = none → f.header ≠ [] →
    ∃ t ks, exec (.txFrameClose p cycles) s = .next t
      ∧ t = { s with dev := { s.dev with tx := t.dev.tx, cnts := t.dev.cnts, regs := t.dev.regs, rr := t.dev.rr } }
      ∧ (getTx t.dev p).wire = (getTx s.dev p).wire ++ ks ++ [{ vc := f.vc, typ := 0x36, payload := r }
                                                              , { vc := f.vc, typ := 0x01, payload := leBytes 2 f.frameNo }]
      ∧ (f.fsSent = true → f.headerSent = true → ks = [])
      ∧ (getTx t.dev p).frames = dropHead f.vc (getTx s.dev p).frames
      ∧ cntAt t.dev (addrOf .txp p 0x24) = cntAt s.dev (addrOf .txp p 0x24) + 1)
  ∧ (∀ (s : State) (p : Fin 8), txEnabled s.dev p = true → (getTx s.dev p).ready = true → txBetween (getTx s.dev p) = true →
    (getTx s.dev p).lastCal + 1048576 ≤ s.dev.dt →
    ∃ t, exec (.txPeriodicCalibration p) s = .next t ∧ t = { s with dev := { s.dev with tx := t.dev.tx } }
      ∧ getTx t.dev p = { getTx s.dev p with lastCal := s.dev.dt, cals := (getTx s.dev p).cals + 1 }
      ∧ ∀ n : Nat, n ≠ p → getTx t.dev n = getTx s.dev n)

namespace Sys2Proof.Claims

/-- A flit of a type comes in its turn on a link that carries it (R345, R346). -/
def peerTurn (s : State) (n : Fin 6) (typ : Nat) (seq : BitVec 12) : Prop :=
  plEnabled s.dev n = true ∧ (getLink s.dev n).trained = true ∧ seq.toNat = (getLink s.dev n).rxSeq
    ∧ ((getLink s.dev n).up = true ∨ typ = 8 ∨ sequenced typ = false)

/-- The retry buffer after an acknowledgement (R345). -/
def peerAcked (l : Link) (ack : BitVec 12) : List (Nat × FlitBody) :=
  match l.retry.findIdx? (fun e => e.1 == ack.toNat) with
  | some k => l.retry.drop (k + 1)
  | none => l.retry

/-- The link has accepted the flit: the next one is expected, the acknowledgement taken, the flit counted (R345, R354). -/
def peerTook (s t : State) (n : Fin 6) (typ : Nat) (seq ack : BitVec 12) : Prop :=
  (getLink t.dev n).rxSeq = (if sequenced typ then (seq.toNat + 1) % 4096 else seq.toNat)
    ∧ (getLink t.dev n).retry = peerAcked (getLink s.dev n) ack
    ∧ cntAt t.dev (addrOf .pl n 0x24) = cntAt s.dev (addrOf .pl n 0x24) + 1

/-- What a flit that only concerns its link may change. -/
def LinkFrame (s t : State) : Prop := t = { s with dev := { s.dev with cnts := t.dev.cnts, peer := t.dev.peer } }

/-- What a link that goes down may change beside: sets over it and their rings, instances void with reason 12 with their records and
messages, releases of planes. -/
def DownFrame (s t : State) : Prop :=
  t = { s with dev := { s.dev with serial := t.dev.serial, freeCount := t.dev.freeCount, regs := t.dev.regs, cnts := t.dev.cnts
                                   mem := t.dev.mem, log := t.dev.log, fab := t.dev.fab, i3c := t.dev.i3c, cfg := t.dev.cfg
                                   ctxs := t.dev.ctxs, regions := t.dev.regions, audit := t.dev.audit, flocks := t.dev.flocks
                                   spd := t.dev.spd, dma := t.dev.dma, memsys := t.dev.memsys, tx := t.dev.tx, peer := t.dev.peer
                                   rx := t.dev.rx, isp := t.dev.isp, vis := t.dev.vis, threads := t.dev.threads, pmu := t.dev.pmu
                                   rr := t.dev.rr, outcomes := t.dev.outcomes } }
  ∧ SameDram s.dev t.dev

/-- What bytes that land in a scratchpad window may change beside the link. -/
def LandFrame (s t : State) : Prop :=
  t = { s with dev := { s.dev with regs := t.dev.regs, cnts := t.dev.cnts, mem := t.dev.mem, fab := t.dev.fab, spd := t.dev.spd
                                   peer := t.dev.peer, threads := t.dev.threads } }
  ∧ SameDram s.dev t.dev

/-- The live instances of a step whose graph carries a job ID (R296, R351). -/
def stepInsts (d : Dev) (job step : Nat) : List InstRef :=
  (liveInsts d).filter (fun i => (getCtx d i.q i.ctx).index == step
    && carriesJob d (getCtx d i.q i.ctx).gen (getCtx d i.q i.ctx).gid (getCtx d i.q i.ctx).stream job)

/-- The other links and every window are as before. -/
def OtherLinks (s t : State) (n : Nat) : Prop :=
  (∀ k, k ≠ n → getLink t.dev k = getLink s.dev k) ∧ t.dev.peer.windows = s.dev.peer.windows ∧ t.dev.peer.aborts = s.dev.peer.aborts

/-- A link that is down: nothing waits, and it is to train again (R345). -/
def linkFresh (l : Link) : Prop :=
  l.up = false ∧ l.trained = false ∧ l.txSeq = 0 ∧ l.rxSeq = 0 ∧ l.retry = [] ∧ l.queue = [] ∧ l.seg = none ∧ l.nakDue = false

/-- The segment at the head of a flit is whole and belongs in an inbound scratchpad window of this module (R346-R348). -/
def segmentFits (s : State) (body : List Byte) : Prop :=
  let h := body.take 24
  let e := winEntry s.dev (byteAt h 6)
  body.length = 248 ∧ segLen h ≤ 224 ∧ byteAt h 1 = moduleId s.dev ∧ byteAt h 6 < 64 ∧ winUsed e = true ∧ bit (byteAt e 0) 0 = true
    ∧ byteAt h 0 = byteAt e 1 ∧ field h 8 4 + segLen h ≤ field e 4 4 ∧ bit (byteAt e 0) 2 = false ∧ winRing e = false
    ∧ bit (byteAt e 0) 5 = true

end Sys2Proof.Claims

/-- R344-R346, R352, R354: training ends with HELLO; a slot sends the next flit of the queue and keeps it until it is acknowledged, or IDLE;
IDLE, NAK, HELLO and bad flits do what they say to the link, and a slot sends a NAK that is due or what is to be sent again first; without progress, and by RETRAIN, the link goes down. The model's readings in it: log 87 and 89. -/
def Obligations.PeerLinksRun : Prop :=
  ∀ (s : State) (n : Fin 6),
    let l := getLink s.dev n
    (plEnabled s.dev n = true → l.trained = false →
      ∃ t, exec (.peerTrainingDone n) s = .next t ∧ LinkFrame s t ∧ OtherLinks s t n ∧ (getLink t.dev n).trained = true
        ∧ (getLink t.dev n).queue = [helloFlit s.fuse s.dev] ∧ (getLink t.dev n).up = l.up ∧ (getLink t.dev n).txSeq = 0
        ∧ (getLink t.dev n).rxSeq = 0)
    ∧ (∀ b rest, plEnabled s.dev n = true → l.trained = true → l.nakDue = false → l.retry[l.sent]? = none → l.queue = b :: rest →
      l.retry.length < 2047 →
      ∃ t, exec (.peerFlitSlot n) s = .next t ∧ LinkFrame s t ∧ OtherLinks s t n ∧ (getLink t.dev n).queue = rest
        ∧ (getLink t.dev n).retry = l.retry ++ [(l.txSeq, b)] ∧ (getLink t.dev n).txSeq = (l.txSeq + 1) % 4096
        ∧ (getLink t.dev n).wire = (b.typ, l.txSeq, (l.rxSeq + 4095) % 4096, b.body) :: l.wire)
    ∧ (plEnabled s.dev n = true → l.trained = true → l.nakDue = true → (∀ k, l.lastNak = some k → k + 64 ≤ s.dev.dt) →
      ∃ t, exec (.peerFlitSlot n) s = .next t ∧ LinkFrame s t ∧ OtherLinks s t n
        ∧ getLink t.dev n = { l with nakDue := false, lastNak := some s.dev.dt
                                     wire := (3, l.txSeq, (l.rxSeq + 4095) % 4096, leBytes 2 l.rxSeq) :: l.wire })
    ∧ (∀ k b, plEnabled s.dev n = true → l.trained = true → l.nakDue = false → l.retry[l.sent]? = some (k, b) →
      ∃ t, exec (.peerFlitSlot n) s = .next t ∧ LinkFrame s t ∧ OtherLinks s t n
        ∧ getLink t.dev n = { l with sent := l.sent + 1, wire := (b.typ, k, (l.rxSeq + 4095) % 4096, b.body) :: l.wire }
        ∧ cntAt t.dev (addrOf .pl n 0x30) = cntAt s.dev (addrOf .pl n 0x30) + 1)
    ∧ (plEnabled s.dev n = true → l.trained = true → l.nakDue = false → l.retry[l.sent]? = none → l.queue = [] →
      ∃ t, exec (.peerFlitSlot n) s = .next t ∧ LinkFrame s t ∧ OtherLinks s t n
        ∧ getLink t.dev n = { l with wire := (0, l.txSeq, (l.rxSeq + 4095) % 4096, []) :: l.wire })
    ∧ (∀ seq ack, peerTurn s n 0 seq →
      ∃ t, exec (.peerIdle n seq ack) s = .next t ∧ LinkFrame s t ∧ OtherLinks s t n ∧ peerTook s t n 0 seq ack
        ∧ (getLink t.dev n).queue = l.queue)
    ∧ (∀ seq ack expected k, peerTurn s n 3 seq → (peerAcked l ack).findIdx? (fun e => e.1 == expected.toNat) = some k →
      ∃ t, exec (.peerNak n seq ack expected) s = .next t ∧ LinkFrame s t ∧ OtherLinks s t n ∧ peerTook s t n 3 seq ack
        ∧ (getLink t.dev n).sent ≤ k ∧ cntAt t.dev (addrOf .pl n 0x2C) = cntAt s.dev (addrOf .pl n 0x2C) + 1)
    ∧ (∀ seq ack install module, peerTurn s n 8 seq → install.toNat = fuseInstallId s.fuse →
      ∃ t, exec (.peerHello n seq ack install module) s = .next t ∧ peerTook s t n 8 seq ack ∧ OtherLinks s t n
        ∧ t = { s with dev := { s.dev with cnts := t.dev.cnts, peer := t.dev.peer, regs := t.dev.regs, i3c := t.dev.i3c } }
        ∧ (getLink t.dev n).up = true ∧ (getLink t.dev n).peer = module.toNat ∧ (getLink t.dev n).foreign = false)
    ∧ (∀ seq ack install module, peerTurn s n 8 seq → install.toNat ≠ fuseInstallId s.fuse →
      ∃ t, exec (.peerHello n seq ack install module) s = .next t ∧ DownFrame s t ∧ linkFresh (getLink t.dev n)
        ∧ (getLink t.dev n).foreign = true ∧ (getLink t.dev n).peer = module.toNat)
    ∧ (∀ bad, (∀ q a, bad ≠ .flitType q a) → plEnabled s.dev n = true → l.trained = true →
      ∃ t, exec (.peerBadFlit n bad) s = .next t ∧ LinkFrame s t ∧ OtherLinks s t n ∧ getLink t.dev n = { l with nakDue := true }
        ∧ cntAt t.dev (addrOf .pl n 0x28) = cntAt s.dev (addrOf .pl n 0x28) + 1)
    ∧ (∀ seq ack, plEnabled s.dev n = true → l.trained = true → seq.toNat = l.rxSeq →
      ∃ t, exec (.peerBadFlit n (.flitType seq ack)) s = .next t ∧ LinkFrame s t ∧ OtherLinks s t n
        ∧ (getLink t.dev n).rxSeq = (seq.toNat + 1) % 4096 ∧ (getLink t.dev n).retry = peerAcked l ack ∧ (getLink t.dev n).nakDue = l.nakDue
        ∧ cntAt t.dev (addrOf .pl n 0x28) = cntAt s.dev (addrOf .pl n 0x28) + 1)
    ∧ (l.retry ≠ [] → l.progress + getF s.dev .peer 0 4 0 24 ≤ s.dev.dt →
      ∃ t, exec (.peerLinkDown n) s = .next t ∧ DownFrame s t ∧ linkFresh (getLink t.dev n) ∧ (getLink t.dev n).wire = l.wire)
    ∧ (∀ b v, writesNow s b (plCtlAddr n) = true → setBit v 1 = true →
      ∃ t, exec (.peerRetrain b n v) s = .next t ∧ DownFrame s t ∧ linkFresh (getLink t.dev n))

/-- R346-R351: a segment that goes on is kept and one that is whole lands in its window, and nowhere else; CREDIT gives slots back; RECORD goes
to the window's next record slot; ABORT is remembered and noticed to the home Drover of each instance of its step; LOAD_DONE ends the bytes of a load; REJECT is recorded. The model's readings in it: log 88 and 90. -/
def Obligations.PeerFlitsTakeEffect : Prop :=
  ∀ (s : State) (n : Fin 6) (seq ack : BitVec 12),
    (∀ body, peerTurn s n 1 seq → body.length = 248 → 224 < segLen (body.take 24) →
      ∃ t x, exec (.peerHead n seq ack body) s = .next t ∧ LinkFrame s t ∧ OtherLinks s t n ∧ peerTook s t n 1 seq ack
        ∧ (getLink t.dev n).seg = some x ∧ x.header = body.take 24 ∧ x.data = body.drop 24)
    ∧ (∀ body, peerTurn s n 1 seq → segmentFits s body → bit (byteAt (body.take 24) 7) 1 = false →
      let h := body.take 24
      let e := winEntry s.dev (byteAt h 6)
      let q := byteAt e 2 % 4
      let a := 8 * (field e 8 8 % 2 ^ 23) + field h 8 4
      ∃ t, exec (.peerHead n seq ack body) s = .next t ∧ LandFrame s t ∧ t.dev.fab = s.dev.fab ∧ peerTook s t n 1 seq ack ∧ (getLink t.dev n).seg = none
        ∧ spadPeek t.dev q a (segLen h) = (body.drop 24).take (segLen h)
        ∧ ∀ p c : Nat, (∀ i, i < segLen h → spadKey p c ≠ spadKey q (a + i)) → spadByte t.dev p c = spadByte s.dev p c)
    ∧ (∀ body x, peerTurn s n 2 seq → body.length = 248 → (getLink s.dev n).seg = some x → x.data.length + 248 < segLen x.header →
      ∃ t, exec (.peerData n seq ack body) s = .next t ∧ LinkFrame s t ∧ OtherLinks s t n ∧ peerTook s t n 2 seq ack
        ∧ (getLink t.dev n).seg = some { x with data := x.data ++ body })
    ∧ (∀ w k i, peerTurn s n 4 seq → (farWindows s.dev n w.toNat).find? (fun i => (getWin s.dev i).used != 0) = some i →
      ∃ t, exec (.peerCredit n seq ack w k) s = .next t ∧ LinkFrame s t ∧ peerTook s t n 4 seq ack
        ∧ getWin t.dev i = { getWin s.dev i with used := (getWin s.dev i).used - k.toNat }
        ∧ ∀ j, j ≠ i → getWin t.dev j = getWin s.dev j)
    ∧ (∀ (w dest : Byte) body, peerTurn s n 5 seq → dest.toNat = moduleId s.dev → w.toNat < 64 → body.length = 64 →
      let e := winEntry s.dev w.toNat
      let q := byteAt e 2 % 4
      let a := 8 * (field e 8 8 % 2 ^ 23) + (field e 4 4 - 4096 + 64 * ((getWin s.dev w.toNat).records % 64))
      winUsed e = true → bit (byteAt e 0) 0 = true → bit (byteAt e 0) 4 = true → bit (byteAt e 0) 5 = true → 4096 ≤ field e 4 4 →
      ∃ t, exec (.peerRecord n seq ack w dest body) s = .next t ∧ LandFrame s t ∧ peerTook s t n 5 seq ack
        ∧ (getWin t.dev w.toNat).records = (getWin s.dev w.toNat).records + 1 ∧ spadPeek t.dev q a 64 = body
        ∧ ∀ p c : Nat, (∀ i, i < 64 → spadKey p c ≠ spadKey q (a + i)) → spadByte t.dev p c = spadByte s.dev p c)
    ∧ (∀ job step module, peerTurn s n 6 seq →
      ∃ t, exec (.peerAbort n seq ack job step module) s = .next t
        ∧ t = { s with dev := { s.dev with cnts := t.dev.cnts, peer := t.dev.peer, fab := t.dev.fab } } ∧ peerTook s t n 6 seq ack
        ∧ t.dev.fab = { s.dev.fab with reports := s.dev.fab.reports ++ (stepInsts s.dev job.toNat step.toNat).map (fun i =>
            { inst := i, tag := 31, code := 0, final := false, setsEv := false, void := some 6, remote := true }) }
        ∧ t.dev.peer.aborts = (s.dev.peer.aborts ++ [(job.toNat, step.toNat)]).drop (s.dev.peer.aborts.length - 15))
    ∧ (∀ w : Byte, peerTurn s n 7 seq → s.dev.pow.hubUp = true → s.dev.log.sealing = false → slotFree s.dev = true → w.toNat < 64 →
      let e := winEntry s.dev w.toNat
      winUsed e = true → bit (byteAt e 0) 0 = true → bit (byteAt e 0) 2 = true → byteAt e 1 = (getLink s.dev n).peer →
      setBit (regRaw s.dev loadCtlAddr) 0 = false → setBit (regRaw s.dev loadCtlAddr) 1 = false → s.dev.cfg.load.state = 1 →
      s.dev.cfg.load.src = 2 →
      ∃ t, exec (.peerLoadDone n seq ack w) s = .next t
        ∧ t = { s with dev := { s.dev with cfg := t.dev.cfg, regs := t.dev.regs, cnts := t.dev.cnts, log := t.dev.log, peer := t.dev.peer } }
        ∧ t.dev.cfg = { s.dev.cfg with load := { s.dev.cfg.load with ended := true } }
        ∧ peerTook s t n 7 seq ack ∧ t.dev.log.next = s.dev.log.next + 1)
    ∧ (∀ w off, peerTurn s n 9 seq → (∀ ch, ch < 256 → (getCh s.dev ch).active = none) →
      ∃ t, exec (.peerReject n seq ack w off) s = .next t
        ∧ t = { s with dev := { s.dev with regs := t.dev.regs, cnts := t.dev.cnts, peer := t.dev.peer } } ∧ peerTook s t n 9 seq ack
        ∧ bit (getR t.dev .pl n 8).toNat 1 = true ∧ getF t.dev .pl n 8 8 6 = w.toNat % 64)

namespace Sys2Proof.Claims

/-- What the I3C target changes where no register and no record is concerned: its own state, counters, and what reads latch. -/
def I3cFrame (s t : State) : Prop := t = { s with dev := { s.dev with i3c := t.dev.i3c, cnts := t.dev.cnts, latch := t.dev.latch } }

/-- What a command that asks for records may change beside: the log, and EVSUM where the journal is full. -/
def I3cLogFrame (s t : State) : Prop :=
  t = { s with dev := { s.dev with i3c := t.dev.i3c, cnts := t.dev.cnts, log := t.dev.log, regs := t.dev.regs } }
    ∧ SameRegsBut [evsumAddr] s.dev t.dev

/-- A frame in form of a code reaches the target (R360, R364 steps 1 to 3). -/
def frameComes (s : State) (bytes : List Byte) (code : Nat) (fr : Frame) : Prop :=
  i3cHears s.dev = true ∧ frameKind bytes = code ∧ parseFrame bytes = .ok fr ∧ fr.code = code

/-- The frame passes the checks of R364 as a new one. -/
def frameIsNew (s : State) (fr : Frame) : Prop :=
  let x := getSess s.dev fr.session
  x.isOpen = true ∧ x.ctl = s.dev.i3c.activeCtl ∧ fr.seq = (x.count + 1) % 256
    ∧ fr.mac = frameMac x.key 0 ((x.count + 1) % 2 ^ 32) fr.body

/-- The response to a new frame: its MAC under the session's key and the request's counter. -/
def sealedAnswer (s : State) (fr : Frame) (status last : Nat) (data : List Byte) : List Byte :=
  let x := getSess s.dev fr.session
  sealResp (some (x.key, (x.count + 1) % 2 ^ 32)) (respBody status fr.seq last data)

/-- The response to a request that is not acted on (R364). -/
def plainAnswer (status seq : Nat) : List Byte := sealResp none (respBody status seq 0 [])

/-- The session's counter has advanced by one and nothing else of its binding has changed (R364). -/
def countAdvanced (s t : State) (fr : Frame) : Prop :=
  let x := getSess s.dev fr.session
  let y := getSess t.dev fr.session
  y.count = (x.count + 1) % 2 ^ 32 ∧ y.isOpen = x.isOpen ∧ y.warrant = x.warrant ∧ y.ctl = x.ctl ∧ y.key = x.key
    ∧ ∀ k, k ≠ fr.session → getSess t.dev k = getSess s.dev k

/-- The wake that a write request tries again is not pending (R390). -/
def noBlockedWake (s : State) : Prop := s.dev.pow.blocked = none ∨ (s.dev.pow.computeUp = true ∧ powerState s.dev ≠ 2)

end Sys2Proof.Claims

/-- R359-R365, R368: a frame out of form is answered 0x07 or 0x01; a new READ is carried out at once; a new WRITE of registers whose writes are
logged asks for their records in order and waits; one beyond its session's privilege is answered 0x05; OPEN and CLOSE ask for their record; a
retry runs nothing; a private read gives the response held. The model's readings in it: log 18 and 93. -/
def Obligations.SessionFramesRun : Prop :=
  (∀ (s : State) (bytes : List Byte), i3cHears s.dev = true → frameKind bytes = 0 →
    ∃ t st, exec (.i3cMalformedFrame bytes) s = .next t ∧ I3cFrame s t
      ∧ t.dev.i3c = { s.dev.i3c with frames := s.dev.i3c.frames + 1, resp := .ready (plainAnswer st (byteAt bytes 1)) }
      ∧ (st = 7 ∨ st = 1) ∧ (bytes.length ≠ 14 + frameDataLen bytes → st = 7)
      ∧ cntAt t.dev (addrOf .i3c 0 0x24) = cntAt s.dev (addrOf .i3c 0 0x24) + 1)
  ∧ (∀ (s : State) (bytes : List Byte) (fr : Frame), frameComes s bytes 1 fr → frameIsNew s fr →
    let as := frameAddrs fr.addr fr.n
    as.all (fun a => allows (sessMask s.fuse s.dev fr.session) a false) = true → readWaits as s.dev = false →
    ∃ t e, exec (.i3cRead bytes) s = .next t ∧ I3cFrame s t ∧ countAdvanced s t fr
      ∧ e = { s.dev with i3c := e.i3c, cnts := e.cnts }
      ∧ t.dev.i3c.resp = .ready (sealedAnswer s fr (doneStatus as) 0 (readRegs s.fuse as e).1)
      ∧ cntAt t.dev (addrOf .i3c 0 0x20) = cntAt s.dev (addrOf .i3c 0 0x20) + 1)
  ∧ (∀ (s : State) (bytes : List Byte) (fr : Frame), frameComes s bytes 1 fr → frameIsNew s fr →
    (frameAddrs fr.addr fr.n).all (fun a => allows (sessMask s.fuse s.dev fr.session) a false) = false →
    ∃ t, exec (.i3cRead bytes) s = .next t ∧ I3cFrame s t ∧ countAdvanced s t fr ∧ t.dev.latch = s.dev.latch
      ∧ t.dev.i3c.resp = .ready (sealedAnswer s fr 5 0 [])
      ∧ cntAt t.dev (addrOf .i3c 0 0x30) = cntAt s.dev (addrOf .i3c 0 0x30) + 1)
  ∧ (∀ (s : State) (bytes : List Byte) (fr : Frame), frameComes s bytes 2 fr → frameIsNew s fr → noBlockedWake s →
    s.dev.log.sealing = false →
    let o := sessOrigin s.dev fr.session
    let as := (frameWrites fr).map (·.1)
    as.all (fun a => allows (sessMask s.fuse s.dev fr.session) a true) = true →
    as.all (fun a => assigned a && isLogged o a && (cciCmdUnit a).isNone) = true → frameWrites fr ≠ [] →
    ∃ t, exec (.i3cWrite bytes) s = .next t ∧ I3cLogFrame s t ∧ countAdvanced s t fr
      ∧ t.dev.i3c.resp = .waiting (s.dev.i3c.frames + 1) false
      ∧ (∀ av ∈ frameWrites fr, ∃ r ∈ t.dev.log.reqs, r.act = .write o av.1 av.2 0 ∧ r.cls = 1 ∧ r.frame = some (s.dev.i3c.frames + 1))
      ∧ (∀ r ∈ s.dev.log.reqs, r ∈ t.dev.log.reqs) ∧ t.dev.log.next = s.dev.log.next)
  ∧ (∀ (s : State) (bytes : List Byte) (fr : Frame), frameComes s bytes 2 fr → frameIsNew s fr →
    ((frameWrites fr).map (·.1)).all (fun a => allows (sessMask s.fuse s.dev fr.session) a true) = false →
    ∃ t, exec (.i3cWrite bytes) s = .next t ∧ I3cFrame s t ∧ countAdvanced s t fr ∧ t.dev.latch = s.dev.latch
      ∧ t.dev.i3c.resp = .ready (sealedAnswer s fr 5 0 []))
  ∧ (∀ (s : State) (bytes : List Byte) (fr : Frame), frameComes s bytes 3 fr → s.dev.log.sealing = false →
    let x := getSess s.dev fr.session
    let slot := byteAt fr.data 0
    (x.isOpen = true → x.warrant = slot ∧ x.ctl = s.dev.i3c.activeCtl) → slot < 16 → warrantUsable s.fuse slot = true →
    fr.mac = frameMac (warrantKey s.fuse slot) 0 fr.seq fr.body →
    ∃ t nt, exec (.i3cOpen bytes) s = .next t
      ∧ t = { s with dev := { s.dev with i3c := t.dev.i3c, cnts := t.dev.cnts, log := t.dev.log, regs := t.dev.regs
                                         freeCount := t.dev.freeCount } }
      ∧ nt.length = 16 ∧ t.dev.i3c.sess = s.dev.i3c.sess ∧ t.dev.i3c.resp = .waiting (s.dev.i3c.frames + 1) false
      ∧ (∃ r ∈ t.dev.log.reqs, r.kind = 5 ∧ r.cls = 1 ∧ r.target = fr.session
          ∧ r.act = .openSession { s := fr.session, warrant := slot, ctl := s.dev.i3c.activeCtl, count := fr.seq
                                   key := sessionKey (warrantKey s.fuse slot) slot ((fr.data.drop 4).take 16) nt })
      ∧ (x.isOpen = true → ∃ r ∈ t.dev.log.reqs, r.kind = 6 ∧ r.act = .closeSession fr.session))
  ∧ (∀ (s : State) (bytes : List Byte) (fr : Frame), frameComes s bytes 4 fr → frameIsNew s fr → s.dev.log.sealing = false →
    ∃ t, exec (.i3cClose bytes) s = .next t ∧ I3cLogFrame s t ∧ countAdvanced s t fr
      ∧ t.dev.i3c.resp = .waiting (s.dev.i3c.frames + 1) false
      ∧ ∃ r ∈ t.dev.log.reqs, r.kind = 6 ∧ r.cls = 1 ∧ r.act = .closeSession fr.session ∧ r.frame = some (s.dev.i3c.frames + 1))
  ∧ (∀ (s : State) (bytes : List Byte) (fr : Frame), frameComes s bytes 2 fr →
    let x := getSess s.dev fr.session
    x.isOpen = true → x.ctl = s.dev.i3c.activeCtl → fr.seq = x.count % 256 → fr.mac = frameMac x.key 0 x.count fr.body →
    s.dev.i3c.waits = [] →
    ∃ t, exec (.i3cWrite bytes) s = .next t ∧ I3cFrame s t ∧ t.dev.i3c.sess = s.dev.i3c.sess
      ∧ t.dev.i3c.resp = .ready (sealResp (some (x.key, x.count)) (cachedBody x.cached))
      ∧ cntAt t.dev (addrOf .i3c 0 0x34) = cntAt s.dev (addrOf .i3c 0 0x34) + 1)
  ∧ (∀ (s : State), i3cHears s.dev = true →
    (∀ r, s.dev.i3c.resp = .ready r →
      ∃ t, exec .i3cPrivateRead s = .next t ∧ I3cFrame s t ∧ t.dev.i3c = { s.dev.i3c with sent := r :: s.dev.i3c.sent })
    ∧ (s.dev.i3c.resp = .empty →
      ∃ t, exec .i3cPrivateRead s = .next t ∧ I3cFrame s t ∧ t.dev.i3c = { s.dev.i3c with sent := plainAnswer 10 0 :: s.dev.i3c.sent })
    ∧ ∀ n r, s.dev.i3c.resp = .waiting n r → exec .i3cPrivateRead s = .next s)

/-- R356-R359, R363, R366, R367: what each CCC, bus error, pattern, in-band interrupt and hot-join does to the target, and the writes of EVSUM
and of a session's CLOSE. The model's readings in it: log 91, 92 and 94. -/
def Obligations.TargetFollowsTheBus : Prop :=
  (∀ (s : State), cccHeard s.dev = true →
    let i := s.dev.i3c
    (∀ addr, i.da = none → ∃ t, exec (.entdaa addr) s = .next t ∧ I3cFrame s t ∧ t.dev.i3c = { i with da := some addr.toNat })
    ∧ (∃ t, exec .rstdaa s = .next t ∧ I3cFrame s t ∧ t.dev.i3c = { i with da := none })
    ∧ (∀ ev : Byte, ∃ t, exec (.enec ev) s = .next t ∧ I3cFrame s t
        ∧ t.dev.i3c = { i with ibiOn := bit ev.toNat 0 || i.ibiOn, hjOn := bit ev.toNat 3 || i.hjOn })
    ∧ (∀ ev : Byte, ∃ t, exec (.disec ev) s = .next t ∧ I3cFrame s t
        ∧ t.dev.i3c = { i with ibiOn := !bit ev.toNat 0 && i.ibiOn, hjOn := !bit ev.toNat 3 && i.hjOn })
    ∧ (∀ first, ∃ t, exec (.deftgts first) s = .next t ∧ I3cFrame s t ∧ t.dev.i3c = { i with activeCtl := first.toNat })
    ∧ (∀ target, ∃ t, exec (.getacccr target true) s = .next t ∧ I3cFrame s t ∧ t.dev.i3c = { i with activeCtl := target.toNat })
    ∧ (∀ target, exec (.getacccr target false) s = .next s)
    ∧ (∀ action : Byte, action.toNat ≤ 1 → ∃ t, exec (.rstact false action) s = .next t ∧ I3cFrame s t
        ∧ t.dev.i3c = { i with rstact := some action.toNat })
    ∧ (∀ action : Byte, 1 < action.toNat → exec (.rstact false action) s = .next s)
    ∧ (∃ t, exec .enthdr0 s = .next t ∧ I3cFrame s t
        ∧ t.dev.i3c = { i with hdr := if getF s.dev .i3c 0 0 2 1 = 1 then .ddr else .other })
    ∧ (∃ t, exec .enthdr3 s = .next t ∧ I3cFrame s t
        ∧ t.dev.i3c = { i with hdr := if getF s.dev .i3c 0 0 3 1 = 1 then .bt else .other })
    ∧ (∀ len : W16, ∃ t, exec (.setmwl false len) s = .next t ∧ I3cFrame s t ∧ t.dev.i3c = { i with mwl := len.toNat })
    ∧ (∀ len : W16, ∃ t, exec (.setmrl false len) s = .next t ∧ I3cFrame s t ∧ t.dev.i3c = { i with mrl := len.toNat })
    ∧ (∀ code, exec (.unsupportedCcc true code) s = .next s)
    ∧ (∀ code : Byte, code.toNat < 0x20 → exec (.unsupportedCcc false code) s = .next s)
    ∧ (getF s.dev .i3c 0 0 1 1 = 1 → i.hjOn = true → i.da = none →
        ∃ t, exec .hotJoinRequest s = .next t ∧ I3cFrame s t ∧ t.dev.i3c = { i with hotJoins := i.hotJoins + 1 })
    ∧ ((getF s.dev .i3c 0 0 1 1 ≠ 1 ∨ i.hjOn = false ∨ i.da ≠ none) → exec .hotJoinRequest s = .next s))
  ∧ (∀ (s : State), cccDirect s.dev = true →
    let i := s.dev.i3c
    (∀ addr, ∃ t, exec (.setnewda addr) s = .next t ∧ I3cFrame s t ∧ t.dev.i3c = { i with da := some addr.toNat })
    ∧ (∀ action : Byte, action.toNat ≤ 1 → ∃ t, exec (.rstact true action) s = .next t ∧ I3cFrame s t
        ∧ t.dev.i3c = { i with rstact := some action.toNat })
    ∧ (∀ len : W16, ∃ t, exec (.setmwl true len) s = .next t ∧ I3cFrame s t ∧ t.dev.i3c = { i with mwl := len.toNat })
    ∧ (∀ len : W16, ∃ t, exec (.setmrl true len) s = .next t ∧ I3cFrame s t ∧ t.dev.i3c = { i with mrl := len.toNat })
    ∧ (∃ t, exec .getpid s = .next t ∧ I3cFrame s t ∧ t.dev.i3c = { i with sent := beBytes 6 (fusePid s.fuse) :: i.sent })
    ∧ (∃ t, exec .getbcr s = .next t ∧ I3cFrame s t ∧ t.dev.i3c = { i with sent := [0x26#8] :: i.sent })
    ∧ (∃ t, exec .getdcr s = .next t ∧ I3cFrame s t ∧ t.dev.i3c = { i with sent := [0x00#8] :: i.sent })
    ∧ (∃ t, exec .getmwl s = .next t ∧ I3cFrame s t ∧ t.dev.i3c = { i with sent := beBytes 2 i.mwl :: i.sent })
    ∧ (∃ t, exec .getmrl s = .next t ∧ I3cFrame s t ∧ t.dev.i3c = { i with sent := beBytes 2 i.mrl :: i.sent })
    ∧ (∃ t bs, exec .getstatus s = .next t ∧ t = { s with dev := { s.dev with i3c := t.dev.i3c, cnts := t.dev.cnts, freeCount := t.dev.freeCount } }
        ∧ bs.length = 2 ∧ t.dev.i3c = { i with sent := bs :: i.sent })
    ∧ (∃ t bs, exec .getcaps s = .next t ∧ t = { s with dev := { s.dev with i3c := t.dev.i3c, cnts := t.dev.cnts, freeCount := t.dev.freeCount } }
        ∧ t.dev.i3c = { i with sent := bs :: i.sent })
    ∧ (∀ k, i.ibiDue = true → i.ibiOn = true → i.ibiOut = none → lowestBit (ibiBits s.dev) 0 13 = some k →
        ∃ t, exec .ibiRequest s = .next t ∧ I3cFrame s t
          ∧ t.dev.i3c = { i with ibiDue := false, ibiOut := some k, ibiRetryAt := none, ibiSent := k :: i.ibiSent })
    ∧ (∀ k n, i.ibiRetryAt = some n → n ≤ s.dev.dt → i.ibiOn = true → lowestBit (ibiBits s.dev) 0 13 = some k →
        ∃ t, exec .ibiRetry s = .next t ∧ I3cFrame s t
          ∧ t.dev.i3c = { i with ibiDue := false, ibiOut := some k, ibiRetryAt := none, ibiSent := k :: i.ibiSent }))
  ∧ (∀ (s : State), i3cUp s.dev = true →
    let i := s.dev.i3c
    (∃ t, exec .hdrExit s = .next t ∧ I3cFrame s t ∧ t.dev.i3c = { i with hdr := .sdr })
    ∧ (∀ kind, kind ≠ .crc ∨ i.hdr ≠ .sdr → ∃ t, exec (.i3cBusError kind) s = .next t ∧ I3cFrame s t ∧ t.dev.i3c = i
        ∧ SameCntsBut [addrOf .i3c 0 0x38] s.dev t.dev
        ∧ cntAt t.dev (addrOf .i3c 0 0x38) = cntAt s.dev (addrOf .i3c 0 0x38) + 1)
    ∧ (∀ k, i.ibiOut = some k → i.ibiRetryAt = none → bit (getR s.dev .i3c 0 0x10).toNat k = true →
        ∃ t, exec .ibiAck s = .next t ∧ I3cFrame s t ∧ t.dev.i3c = { i with ibiOut := none, ibiAcked := some k, ibiDue := false })
    ∧ (∀ k, i.ibiOut = some k → i.ibiRetryAt = none →
        ∃ t, exec .ibiNack s = .next t ∧ I3cFrame s t ∧ t.dev.i3c = { i with ibiRetryAt := some (s.dev.dt + getF s.dev .i3c 0 0x1C 0 24) }
          ∧ cntAt t.dev (addrOf .i3c 0 0x3C) = cntAt s.dev (addrOf .i3c 0 0x3C) + 1)
    ∧ (s.dev.log.sealing = false →
        ∃ t, exec .targetResetPattern s = .next t ∧ I3cLogFrame s t ∧ getR t.dev .i3c 0 0x10 = 0 ∧ t.dev.i3c.resp = .empty
          ∧ t.dev.i3c.da = i.da ∧ t.dev.i3c.ibiOn = true ∧ t.dev.i3c.hjOn = true ∧ t.dev.i3c.activeCtl = i.activeCtl
          ∧ ∀ k < 4, (getSess s.dev k).isOpen = true → ∃ r ∈ t.dev.log.reqs, r.kind = 6 ∧ r.cls = 6 ∧ r.act = .closeSession k))
  ∧ (∀ (s : State) (b : WriteBy) (v : W32), writeReaches s.dev (originOf s.dev b) evsumAddr = true →
    ∃ t, exec (.evsumClear b v) s = .next t
      ∧ t = { s with dev := { s.dev with regs := t.dev.regs, i3c := t.dev.i3c, cnts := t.dev.cnts, ctxs := t.dev.ctxs } }
      ∧ SameRegsBut [evsumAddr] s.dev t.dev
      ∧ (∀ k < 13, setBit (regRaw t.dev evsumAddr) k = (setBit (regRaw s.dev evsumAddr) k && !setBit v k))
      ∧ (∀ k, s.dev.i3c.ibiAcked = some k → k < 13 → setBit v k = true → t.dev.i3c.ibiAcked = none)
      ∧ (∀ k, s.dev.i3c.ibiAcked = some k → k < 13 → setBit (regRaw s.dev evsumAddr) k = true → setBit v k = false →
          t.dev.i3c.ibiAcked = some k))
  ∧ (∀ (s : State) (b : WriteBy) (k : Fin 4) (v : W32), writesNow s b (sessCloseAddr k) = true → fld v 0 1 = 1 →
    (getSess s.dev k).isOpen = true →
    ∃ t, exec (.sessionClose b k v) s = .next t ∧ I3cLogFrame s t ∧ t.dev.i3c.sess = s.dev.i3c.sess ∧ t.dev.log.next = s.dev.log.next + 1
      ∧ ∃ r ∈ t.dev.log.reqs, r.kind = 6 ∧ r.cls = (originOf s.dev b).cls ∧ r.act = .closeSession k)

namespace Sys2Proof.Claims

/-- The oldest request that holds a journal slot commits now (R368, R371, R451), and is not dropped (R49). -/
def commitTurn (s : State) (r : ChangeReq) (rest : List ChangeReq) : Prop :=
  takeFirst (fun r : ChangeReq => r.slot) s.dev.log.reqs = some (r, rest) ∧ s.dev.pow.hubUp = true ∧ r.at_ + 125 ≤ s.dev.dt
    ∧ s.dev.log.nextAt ≤ s.dev.dt ∧ ((r.cls = 0 ∨ r.cls = 2) → s.dev.pow.storeFull = true) ∧ dropped s.dev r = false

/-- A record is in the journal behind the earlier ones, linked to them by its chain hash (R368, R370). -/
def recordAdded (s : State) (e : Dev) (r : ChangeReq) (x : LogRecord) : Prop :=
  e.log.journal = s.dev.log.journal ++ [x] ∧ e.log.next = s.dev.log.next + 1 ∧ e.log.hash = x.hash
    ∧ x.seq = s.dev.log.next ∧ x.dt = s.dev.dt ∧ x.cls = r.cls ∧ x.oid = r.oid ∧ x.target = r.target ∧ x.kind = r.kind ∧ x.len = r.len
    ∧ x.new = r.new ∧ x.hash = (sha384 (s.dev.log.hash ++ recordHead x)).take 16

/-- The record that RD_SEQ asked for is to be had, from the journal or from NAND. -/
def readFinds (s : State) (q : Nat) : Option LogRecord :=
  match journalRecord s.dev q with
  | some r => some r
  | none => nandRecord s.dev q

/-- The next record goes to its slot of the mirror (R374). -/
def mirrorTurn (s : State) (r : LogRecord) : Prop :=
  getF s.dev .log 0 0x10C 0 1 = 1 ∧ getF s.dev .log 0 0x108 0 22 ≠ 0 ∧ s.dev.log.mirror < s.dev.log.next
    ∧ readFinds s s.dev.log.mirror = some r ∧ (recordBytes r).length = 64

end Sys2Proof.Claims

/-- R368-R374: the journal takes one request at a time, 125 DT after it was made, and the change takes effect with its record, which is
linked to the one before; pages of records go to the NAND ring; a record is read back through RD_DATA; the mirror gets each record. The model's readings in it: log 16, 17 and 18. -/
def Obligations.LogCommitsFlushesAndReads : Prop :=
  (∀ (s : State) (r : ChangeReq) (rest : List ChangeReq), commitTurn s r rest →
    (r.act = .none →
      ∃ t x, exec .logCommit s = .next t ∧ recordAdded s t.dev r x ∧ x.old = r.old ∧ x.extra = r.extra
        ∧ t = { s with dev := { s.dev with log := t.dev.log, cnts := t.dev.cnts, i3c := t.dev.i3c } }
        ∧ t.dev.log.reqs = rest ∧ t.dev.log.nextAt = s.dev.dt + 2)
    ∧ (∀ o a v, r.act = .write o a v 0 → cciCmdUnit a = none → r.frame = none →
      ∃ e x, exec .logCommit s = .next { s with dev := writeEffect s.fuse o a v 0 0 e } ∧ recordAdded s e r x
        ∧ x.old = (if r.kind = 1 then readReg s.dev a else r.old) ∧ e = { s.dev with log := e.log, cnts := e.cnts } ∧ e.log.reqs = rest)
    ∧ (∀ k, r.act = .closeSession k →
      ∃ t x, exec .logCommit s = .next t ∧ recordAdded s t.dev r x ∧ (getSess t.dev k).isOpen = false
        ∧ t = { s with dev := { s.dev with log := t.dev.log, cnts := t.dev.cnts, i3c := t.dev.i3c } })
    ∧ (∀ o, r.act = .openSession o →
      ∃ t x, exec .logCommit s = .next t ∧ recordAdded s t.dev r x
        ∧ t = { s with dev := { s.dev with log := t.dev.log, cnts := t.dev.cnts, i3c := t.dev.i3c } }
        ∧ (getSess t.dev o.s).isOpen = true ∧ (getSess t.dev o.s).warrant = o.warrant ∧ (getSess t.dev o.s).ctl = o.ctl
        ∧ (getSess t.dev o.s).count = o.count ∧ (getSess t.dev o.s).key = o.key))
  ∧ (∀ (s : State) (r : LogRecord) (rest : List LogRecord), s.dev.log.journal = r :: rest → s.dev.log.page = none →
    ∃ t n, exec .logPageFlush s = .next t ∧ t = { s with dev := { s.dev with log := { s.dev.log with page := some (r.seq, n) } } }
      ∧ n = (s.dev.log.journal.filter (fun x => x.seq / 64 == r.seq / 64)).length)
  ∧ (∀ (s : State) (q n : Nat), s.dev.log.page = some (q, n) →
    (∃ t, exec (.logPageProgrammed true) s = .next t
      ∧ t = { s with dev := { s.dev with log := t.dev.log, cnts := t.dev.cnts } } ∧ t.dev.log.page = none
      ∧ t.dev.log.journal = s.dev.log.journal.filter (fun r => !(q ≤ r.seq && r.seq < q + n))
      ∧ (∀ r ∈ s.dev.log.journal, q ≤ r.seq → r.seq < q + n →
          (∀ x ∈ s.dev.log.journal, x ≠ r → q ≤ x.seq → x.seq < q + n → x.seq % logSlots ≠ r.seq % logSlots) →
          (r.seq % logSlots, r) ∈ t.dev.log.nand)
      ∧ cntAt t.dev (addrOf .log 0 0x124) = cntAt s.dev (addrOf .log 0 0x124) + 1)
    ∧ (∃ t, exec (.logPageProgrammed false) s = .next t
      ∧ t = { s with dev := { s.dev with regs := t.dev.regs, cnts := t.dev.cnts, i3c := t.dev.i3c } }
      ∧ SameRegsBut [evsumAddr, addrOf .log 0 0] s.dev t.dev ∧ getF t.dev .log 0 0 1 1 = 1 ∧ getF t.dev .i3c 0 0x10 6 1 = 1
      ∧ cntAt t.dev (addrOf .log 0 0x128) = cntAt s.dev (addrOf .log 0 0x128) + 1))
  ∧ (∀ (s : State) (b : WriteBy) (v : W32), writeReaches s.dev (originOf s.dev b) rdCtlAddr = true → fld v 0 1 = 1 →
    s.dev.log.read = none →
    ∃ t, exec (.logRead b v) s = .next t
      ∧ t = { s with dev := { s.dev with regs := t.dev.regs, cnts := t.dev.cnts, log := t.dev.log, ctxs := t.dev.ctxs } }
      ∧ SameRegsBut [addrOf .log 0 0x4C] s.dev t.dev ∧ getR t.dev .log 0 0x4C = 1
      ∧ t.dev.log = { s.dev.log with read := some (getPair s.dev .log 0 0x40 0x44, s.dev.dt) })
  ∧ (∀ (s : State) (ok : Bool) (q n : Nat), s.dev.log.read = some (q, n) → n + 2 ≤ s.dev.dt →
    (∀ w ∈ s.dev.i3c.waits, w.read = none) →
    ∃ t, exec (.logReadDone ok) s = .next t
      ∧ t = { s with dev := { s.dev with regs := t.dev.regs, cnts := t.dev.cnts, log := { s.dev.log with read := none } } }
      ∧ SameRegsBut (addrOf .log 0 0x4C :: (List.range 16).map (fun i => addrOf .log 0 (0x80 + 4 * i))) s.dev t.dev
      ∧ (∀ r, readFinds s q = some r → ok = true ∨ (journalRecord s.dev q).isSome = true →
          getR t.dev .log 0 0x4C = 0
            ∧ ∀ i < 16, (getR t.dev .log 0 (0x80 + 4 * i)).toNat = field (recordBytes r) (4 * i) 4 % 2 ^ 32)
      ∧ (readFinds s q = none → getR t.dev .log 0 0x4C = 2)
      ∧ (journalRecord s.dev q = none → readFinds s q ≠ none → ok = false → getR t.dev .log 0 0x4C = 4))
  ∧ (∀ (s : State) (r : LogRecord), mirrorTurn s r →
    let dva := getPair s.dev .log 0 0x100 0x104 + 64 * (s.dev.log.mirror % getF s.dev .log 0 0x108 0 22)
    (∀ ecc, dvaFault s.dev dva 64 .write = none → ecc.isUe = false →
      ∃ t, exec (.logMirrorWrite ecc) s = .next t
        ∧ t = { s with dev := { s.dev with regs := t.dev.regs, cnts := t.dev.cnts, mem := t.dev.mem, log := t.dev.log } }
        ∧ SameSpad s.dev t.dev ∧ t.dev.log = { s.dev.log with mirror := s.dev.log.mirror + 1 }
        ∧ getPair t.dev .log 0 0x110 0x114 = (s.dev.log.mirror + 1) % 2 ^ 64
        ∧ (∀ i < 64, dramByte t.dev (dvaPa s.dev (dva + i)) = (recordBytes r).getD i 0)
        ∧ (∀ pa < 2 ^ 38, (∀ i < 64, pa ≠ dvaPa s.dev (dva + i)) → dramByte t.dev pa = dramByte s.dev pa))
    ∧ (∀ ecc, dvaFault s.dev dva 64 .write = none → ecc.isUe = true →
      ∃ t, exec (.logMirrorWrite ecc) s = .next t ∧ t = { s with dev := { s.dev with regs := t.dev.regs, i3c := t.dev.i3c } }
        ∧ SameRegsBut [evsumAddr, addrOf .log 0 0, addrOf .log 0 0x10C] s.dev t.dev
        ∧ getF t.dev .log 0 0x10C 0 1 = 0 ∧ getF t.dev .log 0 0 3 1 = 1 ∧ getF t.dev .i3c 0 0x10 6 1 = 1)
    ∧ (∀ ecc, dvaFault s.dev dva 64 .write ≠ none →
      ∃ t, exec (.logMirrorWrite ecc) s = .next t ∧ t = { s with dev := { s.dev with regs := t.dev.regs, i3c := t.dev.i3c } }
        ∧ SameRegsBut [evsumAddr, addrOf .log 0 0, addrOf .log 0 0x10C] s.dev t.dev
        ∧ getF t.dev .log 0 0x10C 0 1 = 0 ∧ getF t.dev .log 0 0 3 1 = 1 ∧ getF t.dev .i3c 0 0x10 6 1 = 1))

namespace Sys2Proof.Claims

/-- What the clock monitor changes: CLK registers and its own state, EVSUM, counters, the log. -/
def ClockFrame (s t : State) : Prop :=
  t = { s with dev := { s.dev with regs := t.dev.regs, cnts := t.dev.cnts, clk := t.dev.clk, log := t.dev.log, i3c := t.dev.i3c } }
    ∧ SameRegsBut [evsumAddr, addrOf .clk 0 4, addrOf .clk 0 8, addrOf .clk 0 0xC, addrOf .clk 0 0x10, addrOf .clk 0 0x18] s.dev t.dev

/-- A domain's divider steps to another place of its sequence, and the others stay (R382). -/
def dividerMoves (s t : State) (k j : Nat) : Prop :=
  t.dev.clk.ramp = setAt k j s.dev.clk.ramp ∧ t = { s with dev := { s.dev with clk := t.dev.clk, regs := t.dev.regs, tel := t.dev.tel } }
    ∧ SameRegsBut [addrOf .clk 0 4] s.dev t.dev

end Sys2Proof.Claims

/-- R380, R379, R385: a good monitor window, of 3,891 to 4,301 REFCLK cycles, adds its count to STABLE_RUN, which saturates; a bad one
returns it to 0; REFCLK is stable when it reaches 16,384. A good window with SRC 0 updates DT_INC, a bad one does not; every bad window
sets BAD_WINDOW and is counted, and the second in a row declares failure, which asks for the failover's record. -/
def Obligations.MonitorWindowsCountStableRun : Prop :=
  (∀ (s : State) (count : BitVec 13), s.dev.pow.standby = true → 3891 ≤ count.toNat → count.toNat ≤ 4301 →
    let run := min 65535 (getF s.dev .clk 0 0x10 0 16 + count.toNat)
    ∃ t, exec (.monitorWindowEnd count) s = .next t ∧ ClockFrame s t ∧ t.dev.log = s.dev.log ∧ t.dev.i3c = s.dev.i3c
      ∧ (getR t.dev .clk 0 0xC).toNat = count.toNat ∧ (getR t.dev .clk 0 0x10).toNat = run
      ∧ getF t.dev .clk 0 4 2 1 = (if 16384 ≤ run then 1 else 0) ∧ t.dev.clk.bad = false
      ∧ (clkSrc s.dev = 0 → t.dev.clk.hist = (count.toNat :: s.dev.clk.hist).take 16
          ∧ (getR t.dev .clk 0 0x18).toNat = roundDiv (5120 * t.dev.clk.hist.foldl (· + ·) 0) t.dev.clk.hist.length % 2 ^ 32)
      ∧ (clkSrc s.dev ≠ 0 → getR t.dev .clk 0 0x18 = getR s.dev .clk 0 0x18))
  ∧ (∀ (s : State) (count : BitVec 13), s.dev.pow.standby = true → count.toNat < 3891 ∨ 4301 < count.toNat →
    ∃ t, exec (.monitorWindowEnd count) s = .next t ∧ ClockFrame s t ∧ getR t.dev .clk 0 0x10 = 0 ∧ getF t.dev .clk 0 4 2 1 = 0
      ∧ getF t.dev .clk 0 8 1 1 = 1 ∧ getR t.dev .clk 0 0x18 = getR s.dev .clk 0 0x18 ∧ t.dev.clk.bad = true
      ∧ cntAt t.dev (addrOf .clk 0 0x48) = cntAt s.dev (addrOf .clk 0 0x48) + 1
      ∧ (s.dev.clk.bad = false → t.dev.log = s.dev.log)
      ∧ (s.dev.clk.bad = true → clkSrc s.dev = 0 ∨ clkSrc s.dev = 3 → s.dev.log.sealing = false →
          s.dev.log.reqs.any (fun r => r.act == .failover) = false →
          getF t.dev .clk 0 8 0 1 = 1 ∧ getF t.dev .i3c 0 0x10 0 1 = 1
            ∧ ∃ r ∈ t.dev.log.reqs, r.kind = 7 ∧ r.cls = 6 ∧ r.act = .failover))

/-- R381-R385, R390, R400: a write of FORCE_INT fails over: every live instance ends, void with reason 9; dividers step down and back; the
holdover's end takes ports and links down; the root PLL's lock asks for the return; DT advances by 1, or by DT_INC on INTOSC; INTOSC's trim
moves by one code. The model's readings in it: log 96 and 97. -/
def Obligations.ClocksFailOverAndReturn : Prop :=
  (∀ (s : State) (b : WriteBy) (v : W32), writesNow s b clkCtlAddr = true → fld v 0 1 = 1 → clkSrc s.dev = 0 ∨ clkSrc s.dev = 3 →
    mapRising 0 s.dev.ctxs = true →
    ∃ t, exec (.forceInt b v) s = .next t ∧ clkSrc t.dev = 1 ∧ t.dev.rx.stopped = true ∧ t.dev.memsys.selfRefresh = [0, 1, 2, 3]
      ∧ getF t.dev .clk 0 8 0 1 = 1 ∧ getF t.dev .i3c 0 0x10 0 1 = 1 ∧ getPair t.dev .clk 0 0x28 0x2C = s.dev.dt % 2 ^ 64
      ∧ liveInsts t.dev = []
      ∧ (∀ i ∈ liveInsts s.dev, s.dev.dt + 2 < (getCtx s.dev i.q i.ctx).dl →
          ∃ o ∈ t.dev.outcomes, o.kind = 2 ∧ o.reason = 9 ∧ o.stream = (getCtx s.dev i.q i.ctx).stream
            ∧ o.index = (getCtx s.dev i.q i.ctx).index))
  ∧ (∀ (s : State) (k : Fin 4), s.dev.clk.due.getD k 0 ≤ 10 * s.dev.dt →
    let i := s.dev.clk.ramp.getD k 0
    (clkSrc s.dev = 1 → i + 1 < (dividers k).length →
      ∃ t, exec (.rampStep k) s = .next t ∧ dividerMoves s t k (i + 1)
        ∧ (t.dev.clk.ramp ≠ [14, 17, 19, 21] → t.dev.regs = s.dev.regs) ∧ (t.dev.clk.ramp = [14, 17, 19, 21] → clkSrc t.dev = 2))
    ∧ (clkSrc s.dev = 3 → 0 < i →
      ∃ t, exec (.rampStep k) s = .next t ∧ dividerMoves s t k (i - 1)
        ∧ (t.dev.clk.ramp ≠ [0, 0, 0, 0] → t.dev.regs = s.dev.regs) ∧ (t.dev.clk.ramp = [0, 0, 0, 0] → clkSrc t.dev = 0)))
  ∧ (∀ (s : State) (n : Nat), s.dev.clk.stopAt = some n → n + 25000 ≤ s.dev.dt → rootLock s.dev = true →
    ∃ t, exec .holdoverEnd s = .next t ∧ t.fuse = s.fuse ∧ t.pending = s.pending ∧ t.dev.dt = s.dev.dt
      ∧ SameDram s.dev t.dev ∧ rootLock t.dev = false ∧ (∀ k < 16, getF t.dev .rxp k 0xC 0 1 = 0)
      ∧ (∀ p < 8, (getTx t.dev p).ready = false) ∧ ∀ k < 6, (getLink t.dev k).up = false)
  ∧ (∀ (s : State), refStable s.dev = true → s.dev.pow.hubUp = true → s.dev.pow.computeUp = true →
    ∃ t, exec .rootPllLock s = .next t
      ∧ t = { s with dev := { s.dev with regs := t.dev.regs, cnts := t.dev.cnts, tx := t.dev.tx, log := t.dev.log, i3c := t.dev.i3c } }
      ∧ SameRegsBut [evsumAddr, addrOf .clk 0 4] s.dev t.dev ∧ rootLock t.dev = true
      ∧ (∀ p < 8, txEnabled s.dev p = true → (getTx t.dev p).ready = true)
      ∧ (clkSrc s.dev = 1 ∨ clkSrc s.dev = 2 → forceInt s.dev = false → s.dev.log.sealing = false →
          s.dev.log.reqs.any (fun r => r.act == .clockReturn) = false →
          ∃ r ∈ t.dev.log.reqs, r.kind = 8 ∧ r.cls = 6 ∧ r.act = .clockReturn)
      ∧ (forceInt s.dev = true → t.dev.log = s.dev.log))
  ∧ (∀ (s : State), refStable s.dev = true → s.dev.pow.hubUp = true → s.dev.pow.computeUp = false → s.dev.pow.booted = true →
    s.dev.sec.recovery = false → s.dev.pow.gated = false → wakeAllowed s.dev = true →
    ∃ t, exec .rootPllLock s = .next t ∧ rootLock t.dev = true ∧ t.dev.pow.computeUp = true)
  ∧ (∀ (s : State), s.dev.clk.stopAt = none →
    ∃ t, exec .refclkStop s = .next t ∧ t = { s with dev := { s.dev with clk := { s.dev.clk with stopAt := some s.dev.dt } } })
  ∧ (∀ (s : State) (up : Bool), clkSrc s.dev = 0 → s.dev.pow.hubUp = true → (∀ n, s.dev.clk.trimAt = some n → n + 125000000 ≤ s.dev.dt) →
    let code := getF s.dev .clk 0 0x14 0 10
    ∃ t, exec (.intoscRetrim up) s = .next t
      ∧ t = { s with dev := { s.dev with regs := t.dev.regs, cnts := t.dev.cnts, clk := { s.dev.clk with hist := [], trimAt := some s.dev.dt } } }
      ∧ SameRegsBut [addrOf .clk 0 0x14] s.dev t.dev
      ∧ (getR t.dev .clk 0 0x14).toNat = (if up then min 1023 (code + 1) else code - 1)
      ∧ cntAt t.dev (addrOf .tel 0 0x9C) = cntAt s.dev (addrOf .tel 0 0x9C) + 1)
  ∧ (∀ (s : State), s.dev.pow.standby = true →
    ∃ t, exec .dtTick s = .next t
      ∧ t = { s with dev := { s.dev with dt := t.dev.dt, cnts := t.dev.cnts, clk := { s.dev.clk with frac := t.dev.clk.frac }, pow := t.dev.pow
                                         memsys := t.dev.memsys, rx := t.dev.rx, me := t.dev.me, eng := t.dev.eng, rr := t.dev.rr
                                         regs := t.dev.regs } }
      ∧ (∀ a, (∀ m, a ≠ addrOf .me m 0xC) → regRaw t.dev a = regRaw s.dev a)
      ∧ (s.dev.pow.hubUp = true → clkSrc s.dev = 0 → t.dev.dt = s.dev.dt + 1 ∧ t.dev.clk.frac = 0)
      ∧ (s.dev.pow.hubUp = false ∨ clkSrc s.dev ≠ 0 →
          2 ^ 24 * t.dev.dt + t.dev.clk.frac = 2 ^ 24 * s.dev.dt + s.dev.clk.frac + (getR s.dev .clk 0 0x18).toNat))

namespace Sys2Proof.Claims

/-- The module has woken from a fallow state (R391): the hub runs, the state reads 2, the dies follow outside recovery, and the firmware asks for
the record of the state change. -/
def wokeUp (s t : State) : Prop :=
  t.dev.pow.hubUp = true ∧ powerState t.dev = 2 ∧ t.dev.pow.i3cFrom = s.dev.dt + 125000 ∧ t.dev.pow.blocked = none ∧ t.dev.dt = s.dev.dt
    ∧ (t.dev.sec.recovery = false → t.dev.pow.computeUp = true)
    ∧ cntAt t.dev (addrOf .pwr 0 0x48) = cntAt s.dev (addrOf .pwr 0 0x48) + 1
    ∧ ∃ r ∈ t.dev.log.reqs, r.kind = 9 ∧ r.cls = 2 ∧ r.new = 4
        ∧ r.old = BitVec.ofNat 32 (if getF s.dev .pwr 0 0x18 4 1 = 1 then 1 else powerState s.dev)

/-- A wake that the supply or a temperature holds off (R390): BLOCKED is set, and the wake waits for the comparators. -/
def wakeHeld (s t : State) (c : WakeCause) : Prop :=
  t = { s with dev := { s.dev with regs := t.dev.regs, cnts := t.dev.cnts, pow := { s.dev.pow with blocked := t.dev.pow.blocked } } }
    ∧ SameRegsBut [addrOf .pwr 0 0x18] s.dev t.dev ∧ getF t.dev .pwr 0 0x18 5 1 = 1
    ∧ (s.dev.pow.blocked = none → t.dev.pow.blocked = some (c, s.dev.dt))
    ∧ cntAt t.dev (addrOf .pwr 0 0x4C) = cntAt s.dev (addrOf .pwr 0 0x4C) + 1

/-- Every live instance has ended; those not about to end by deadline are void with a reason (R195). -/
def allVoid (s t : State) (reason : Nat) : Prop :=
  liveInsts t.dev = []
    ∧ ∀ i ∈ liveInsts s.dev, s.dev.dt + 2 < (getCtx s.dev i.q i.ctx).dl →
        ∃ o ∈ t.dev.outcomes, o.kind = 2 ∧ o.reason = reason ∧ o.stream = (getCtx s.dev i.q i.ctx).stream
          ∧ o.index = (getCtx s.dev i.q i.ctx).index

end Sys2Proof.Claims

/-- R388-R391, R396, R406: IDLE is entered when its conditions have held; a write of TARGET voids every live instance with reason 11 and the
fallow state follows with sessions closed and the journal in NAND; enabled sources wake the module or are held off; the management core
restarts, and commits a record when it has. The model's readings in it: log 98, 99, 100 and 104. -/
def Obligations.PowerStatesChange : Prop :=
  (∀ (s : State), getF s.dev .pwr 0 4 4 1 = 1 → powerState s.dev = 4 → s.dev.pow.fallow = none → s.dev.pow.fail = none →
    idleQuiet s.dev = true → getF s.dev .pwr 0 8 0 24 ≤ s.dev.pow.quiet →
    ∃ t, exec .idleEntry s = .next t ∧ t = { s with dev := { s.dev with regs := t.dev.regs, cnts := t.dev.cnts, i3c := t.dev.i3c } }
      ∧ SameRegsBut [evsumAddr, addrOf .pwr 0 0] s.dev t.dev ∧ powerState t.dev = 3
      ∧ SameCntsBut [addrOf .pwr 0 0x40] s.dev t.dev ∧ cntAt t.dev (addrOf .pwr 0 0x40) = cntAt s.dev (addrOf .pwr 0 0x40) + 1)
  ∧ (∀ (s : State) (b : WriteBy) (v : W32), writesNow s b pwrCtlAddr = true → fld v 0 3 = 1 ∨ fld v 0 3 = 2 → 3 ≤ powerState s.dev →
    s.dev.pow.fallow = none → s.dev.pow.fail = none → mapRising 0 s.dev.ctxs = true →
    ∃ t x, exec (.powerTargetWrite b v) s = .next t ∧ t.dev.pow.fallow = some (fld v 0 3, s.dev.dt) ∧ t.dev.rx.stopped = true
      ∧ allVoid s t 11 ∧ SameDram s.dev t.dev
      ∧ t.dev.log.journal = s.dev.log.journal ++ [x] ∧ x.kind = 9 ∧ x.old = BitVec.ofNat 32 (powerState s.dev)
      ∧ x.new = BitVec.ofNat 32 (fld v 0 3) ∧ x.target = addrOf .pwr 0 0)
  ∧ (∀ (s : State) (target n : Nat), s.dev.pow.fallow = some (target, n) → n + 125000 ≤ s.dev.dt → s.dev.log.reqs = [] →
    s.dev.log.sealing = false → target = 1 ∨ target = 2 →
    ∃ t, exec .fallowEntry s = .next t ∧ t.fuse = s.fuse ∧ t.dev.dt = s.dev.dt ∧ powerState t.dev = target ∧ t.dev.pow.hubUp = false
      ∧ t.dev.pow.computeUp = false ∧ t.dev.i3c.da = s.dev.i3c.da ∧ (∀ k, (getSess t.dev k).isOpen = false)
      ∧ t.dev.log.journal = [] ∧ t.dev.log.reqs = [] ∧ t.dev.sec.unlock = none ∧ t.dev.mem.spad = []
      ∧ (target = 2 → SameDram s.dev t.dev) ∧ (target = 1 → t.dev.mem.dram = [])
      ∧ (∀ k < 4, (getSess s.dev k).isOpen = true → ∃ e ∈ t.dev.log.nand, e.2.kind = 6 ∧ e.2.cls = 6 ∧ e.2.target = k))
  ∧ (∀ (s : State), inFallow s.dev = true →
    (getF s.dev .pwr 0 0xC 0 1 = 1 →
      ∃ t, exec (.wake .i3cStart) s = .next t ∧ (wakeAllowed s.dev = true → wokeUp s t ∧ getF t.dev .pwr 0 0x18 0 1 = 1)
        ∧ (wakeAllowed s.dev = false → wakeHeld s t .i3c))
    ∧ (∀ falling, getF s.dev .pwr 0 0xC 1 1 = 1 → getF s.dev .pwr 0 0xC 3 1 = b2n falling →
      ∃ t, exec (.wake (.fsyncEdge falling)) s = .next t ∧ (wakeAllowed s.dev = true → wokeUp s t ∧ getF t.dev .pwr 0 0x18 1 1 = 1)
        ∧ (wakeAllowed s.dev = false → wakeHeld s t .fsync))
    ∧ (s.dev.pow.timerDue = true → getF s.dev .pwr 0 0xC 2 1 = 1 → wakeAllowed s.dev = true →
      ∃ t, exec .wakeTimer s = .next t ∧ wokeUp s t ∧ getF t.dev .pwr 0 0x18 2 1 = 1)
    ∧ (getF s.dev .pwr 0 0xC 0 1 = 0 → exec (.wake .i3cStart) s = .next s)
    ∧ (∀ c n, s.dev.pow.computeUp = false → s.dev.pow.blocked = some (c, n) → s.dev.dt ≤ n + 1250000000 → wakeAllowed s.dev = false →
      ∃ t, exec (.wakeRetry true true true) s = .next t ∧ wokeUp s t)
    ∧ (∀ c n inlet hub, s.dev.pow.computeUp = false → s.dev.pow.blocked = some (c, n) → s.dev.pow.v48 = true → inlet = false ∨ hub = false →
      ∃ t, exec (.wakeRetry true inlet hub) s = .next t
        ∧ t = { s with dev := { s.dev with pow := { s.dev.pow with inletOk := inlet, hubOk := hub } } }))
  ∧ (∀ (s : State), s.dev.pow.hubUp = true → s.dev.pow.computeUp = false → s.dev.pow.blocked ≠ none → wakeAllowed s.dev = true →
    ∃ t, exec (.wake .writeRequest) s = .next t ∧ t.dev.pow.computeUp = true ∧ t.dev.pow.blocked = none)
  ∧ (∀ (s : State) (c : WakeCause) (n : Nat), s.dev.pow.standby = true → s.dev.pow.hubUp = true → s.dev.pow.computeUp = true →
    s.dev.pow.blocked = some (c, n) → s.dev.dt ≤ n + 1250000000 → powerState s.dev = 2 → s.dev.pow.v48 = true → wakeAllowed s.dev = false →
    ∃ t, exec (.wakeRetry true true true) s = .next t
      ∧ t = { s with dev := { s.dev with regs := t.dev.regs, i3c := t.dev.i3c
                                         pow := { s.dev.pow with inletOk := true, hubOk := true, blocked := none } } }
      ∧ SameRegsBut [evsumAddr, addrOf .pwr 0 0, addrOf .pwr 0 0x18] s.dev t.dev ∧ powerState t.dev = 4
      ∧ getF t.dev .pwr 0 0x18 5 1 = 0 ∧ getF t.dev .i3c 0 0x10 2 1 = 1)
  ∧ (∀ (s : State) (n : Nat), s.dev.sec.running = some n → s.dev.sec.restarting = none → s.dev.pow.hubUp = true →
    ∃ t, exec .watchdogExpiry s = .next t
      ∧ t = { s with dev := { s.dev with regs := t.dev.regs, i3c := t.dev.i3c, sec := { s.dev.sec with restarting := some n } } }
      ∧ SameRegsBut [evsumAddr] s.dev t.dev ∧ getF t.dev .i3c 0 0x10 12 1 = 1)
  ∧ (∀ (s : State) (n : Nat), s.dev.sec.restarting = some n → s.dev.log.sealing = false → s.dev.tel.tripWaits = false →
    ∃ t, exec .firmwareRestartDone s = .next t
      ∧ t = { s with dev := { s.dev with regs := t.dev.regs, cnts := t.dev.cnts, i3c := t.dev.i3c, log := t.dev.log
                                         sec := { s.dev.sec with running := some n, restarting := none } } }
      ∧ SameRegsBut [evsumAddr] s.dev t.dev ∧ ∃ r ∈ t.dev.log.reqs, r.cls = 2)

/-- R384, R391-R393, R417, R448, R451: the rails start the standby domain with DT 0 and the hub with its firmware and its power-on record; a
power fail voids every live instance with reason 10 and asks for the seal, behind which nothing commits; a second cause adds nothing; the dies
go; after the hold-up everything committed is in NAND. The model's readings in it: log 10 and 101. -/
def Obligations.PowerComesAndGoes : Prop :=
  (∀ (s : State), s.dev.pow.standby = false →
    ∃ t, exec .standbyPowerValid s = .next t ∧ t.fuse = s.fuse ∧ t.pending = s.pending ∧ t.dev.dt = 0 ∧ t.dev.pow.standby = true
      ∧ t.dev.pow.hubUp = false ∧ t.dev.clk.frac = 0 ∧ t.dev.log.nand = s.dev.log.nand ∧ t.dev.log.next = s.dev.log.next
      ∧ t.dev.log.hash = s.dev.log.hash ∧ t.dev.sec.banks = s.dev.sec.banks ∧ t.dev.cfg.nandImages = s.dev.cfg.nandImages
      ∧ t.dev.mem.dram = [] ∧ t.dev.mem.spad = [])
  ∧ (∀ (s : State) (mv : W16), 44000 ≤ mv.toNat → s.dev.pow.standby = true → s.dev.pow.v3 = true → s.dev.pow.booted = false →
    s.dev.pow.fail = none → powerState s.dev = 0 →
    let ok (n : Nat) : Prop := (fwVerify s.fuse (bankFw s.dev n)).1 = 0
    s.dev.sec.boot = 0 ∨ s.dev.sec.boot = 1 →
    ∃ t, exec (.hubPowerUp mv) s = .next t ∧ t.fuse = s.fuse ∧ t.dev.dt = s.dev.dt ∧ t.dev.pow.hubUp = true ∧ t.dev.pow.booted = true
      ∧ powerState t.dev = 2
      ∧ (ok s.dev.sec.boot → t.dev.sec.running = some s.dev.sec.boot ∧ t.dev.sec.recovery = s.dev.sec.recovery)
      ∧ (¬ok s.dev.sec.boot → ok (1 - s.dev.sec.boot) → t.dev.sec.running = some (1 - s.dev.sec.boot) ∧ t.dev.sec.fallback = true)
      ∧ (¬ok s.dev.sec.boot → ¬ok (1 - s.dev.sec.boot) → t.dev.sec.running = none ∧ t.dev.sec.recovery = true)
      ∧ ∃ r ∈ t.dev.log.reqs, r.kind = 2 ∧ r.cls = 0 ∧ r.target = 0
          ∧ (∀ x, lastStored s.dev = some x → r.extra = BitVec.ofNat 64 x.seq ∧ r.new = (if x.kind = 10 then 1 else 0)))
  ∧ (∀ (s : State), s.dev.pow.v48 = true →
    ∃ t, exec .holdUpStoreFull s = .next t ∧ t = { s with dev := { s.dev with pow := { s.dev.pow with storeFull := true } } })
  ∧ (∀ (s : State) (c : PowerCause), s.dev.pow.standby = true → s.dev.pow.fail = none → s.dev.pow.hubUp = true →
    mapRising 0 s.dev.ctxs = true →
    ∃ t pre r, exec (.powerFail c) s = .next t ∧ t.dev.pow.fail = some s.dev.dt ∧ allVoid s t 10 ∧ SameDram s.dev t.dev
      ∧ t.dev.log.sealing = true ∧ t.dev.log.reqs = pre ++ [r] ∧ r.kind = 10 ∧ r.cls = 6 ∧ r.extra = BitVec.ofNat 64 s.dev.dt
      ∧ (∀ x ∈ pre, x.slot = true ∧ x.at_ < s.dev.dt) ∧ t.dev.sec.queue = s.dev.sec.queue.take 1
      ∧ t.dev.sec.unlock = none ∧ cntAt t.dev (addrOf .pwr 0 0x50) = cntAt s.dev (addrOf .pwr 0 0x50) + 1)
  ∧ (∀ (s : State) (c : PowerCause), s.dev.pow.standby = true → s.dev.pow.fail ≠ none →
    ∃ t, exec (.powerFail c) s = .next t ∧ t = { s with dev := { s.dev with pow := causePin c s.dev.pow } })
  ∧ (∀ (s : State) (n : Nat), s.dev.pow.fail = some n → s.dev.pow.gated = false → s.dev.pow.hubUp = true → n + 64 ≤ s.dev.dt →
    ∃ t, exec .dieGating s = .next t ∧ t.fuse = s.fuse ∧ t.dev.pow = { s.dev.pow with gated := true, computeUp := false }
      ∧ t.dev.mem.dram = [] ∧ t.dev.mem.spad = [] ∧ liveInsts t.dev = [] ∧ t.dev.log = s.dev.log ∧ t.dev.i3c = s.dev.i3c
      ∧ t.dev.sec = s.dev.sec ∧ t.dev.cfg = s.dev.cfg ∧ t.dev.tx = s.dev.tx ∧ t.dev.outcomes = s.dev.outcomes
      ∧ ∀ a < 0x100000, regRaw t.dev a = regRaw s.dev a)
  ∧ (∀ (s : State) (n : Nat), s.dev.pow.fail = some n → n + 625000 ≤ s.dev.dt → s.dev.log.reqs = [] → s.dev.pow.hubUp = true →
    ∃ t, exec .holdUpEnd s = .next t ∧ t.fuse = s.fuse ∧ t.dev.pow.hubUp = false ∧ t.dev.pow.fail = none
      ∧ t.dev.log.nand = nandStore s.dev.log.journal s.dev.log.nand ∧ t.dev.log.next = s.dev.log.next
      ∧ t.dev.sec.banks = s.dev.sec.banks ∧ t.dev.mem.dram = [] ∧ t.dev.mem.spad = []
      ∧ (s.dev.pow.v3 = true → t.dev.dt = s.dev.dt ∧ t.dev.pow.standby = s.dev.pow.standby ∧ powerState t.dev = 0)
      ∧ (s.dev.pow.v3 = false → t.dev.pow.standby = false))

namespace Sys2Proof.Claims

/-- What telemetry, thermal policy and aging service change. -/
def ServiceFrame (s t : State) : Prop :=
  t = { s with dev := { s.dev with regs := t.dev.regs, cnts := t.dev.cnts, i3c := t.dev.i3c, log := t.dev.log, tel := t.dev.tel
                                   pow := { s.dev.pow with inletOk := t.dev.pow.inletOk, hubOk := t.dev.pow.hubOk
                                                           blocked := t.dev.pow.blocked } } }

/-- What a command of the security block changes beside the fuse array and its free values. -/
def SecFrame (s t : State) : Prop :=
  t = { s with dev := { s.dev with regs := t.dev.regs, cnts := t.dev.cnts, i3c := t.dev.i3c, log := t.dev.log, sec := t.dev.sec
                                   freeCount := t.dev.freeCount } }

/-- A write of a SEC register is recorded in the journal (R369, R428). -/
def secRecorded (s t : State) (b : WriteBy) (off : Nat) (v : W32) : Prop :=
  ∃ x, t.dev.log.journal = s.dev.log.journal ++ [x] ∧ x.target = secAddr off ∧ x.new = v ∧ x.kind = 1 ∧ x.cls = (originOf s.dev b).cls

/-- A record of the security block's own is asked for (R370). -/
def secAsks (t : State) (kind : Nat) (p : ChangeReq → Prop) : Prop := ∃ r ∈ t.dev.log.reqs, r.kind = kind ∧ r.cls = 6 ∧ p r

/-- The one command bit that a value sets, among bits 0 to n - 1. -/
def onlyBit (v : W32) (k n : Nat) : Prop := ∀ i < n, setBit v i = decide (i = k)

end Sys2Proof.Claims

/-- R401-R405, R409: margins are read and a short one raises its set-point, up to its limit; samples set THERM_REFUSE everywhere, clear it after
1,000 cool ones, and trip; each second leaves one telemetry record of 256 bytes with its CRC, or is missed. The model's readings in it: log 102 and 103. -/
def Obligations.TelemetryThermalAndAging : Prop :=
  (∀ (s : State) (m0 m1 m2 m3 : W16), s.dev.tel.marginAt + 125000000 ≤ s.dev.dt → s.dev.pow.computeUp = true →
    s.dev.sec.restarting = none → s.dev.sec.running ≠ none →
    let m (q : Nat) := ([m0, m1, m2, m3].getD q 0).toNat
    let vset (q : Nat) := getF s.dev .tel 0 (0x30 + 4 * q) 0 16
    let clash := s.dev.pow.fail = some s.dev.dt ∨ (clkSrc s.dev = 1 ∧ getPair s.dev .clk 0 0x28 0x2C = s.dev.dt)
    ∃ t, exec (.marginRead m0 m1 m2 m3) s = .next t ∧ ServiceFrame s t ∧ t.dev.pow = s.dev.pow ∧ t.dev.tel.marginAt = s.dev.dt
      ∧ (∀ q < 4, (getR t.dev .tel 0 (0x40 + 4 * q)).toNat = m q)
      ∧ ((∀ q < 4, 40 ≤ m q) ∨ clash → t.dev.log = s.dev.log)
      ∧ (∀ q < 4, m q < 40 → ¬clash → vset q < vsetLimit s.fuse q → s.dev.log.sealing = false →
          ∃ r ∈ t.dev.log.reqs, r.cls = 2 ∧ r.kind = 1 ∧ ∃ n : W32,
            r.act = .write .firmware (addrOf .tel 0 (0x30 + 4 * q)) n 0
              ∧ n.toNat = min (vsetLimit s.fuse q) ((2 * vset q + s.dev.tel.half.getD q 0 + 5) / 2) % 2 ^ 32)
      ∧ (∀ q < 4, m q < 40 → ¬clash → vsetLimit s.fuse q ≤ vset q → getF t.dev .tel 0 0 3 1 = 1 ∧ getF t.dev .i3c 0 0x10 12 1 = 1))
  ∧ (∀ (s : State) (inlet hub a b c e : W16), s.dev.pow.hubUp = true → s.dev.tel.sampleAt + 125000 ≤ s.dev.dt → s.dev.pow.computeUp = true →
    let dies := [temp a, temp b, temp c, temp e]
    let hot := limitOf s.dev 0x10 ≤ temp inlet ∨ ∃ x ∈ dies, limitOf s.dev 0x14 ≤ x
    let cool := temp inlet ≤ limitOf s.dev 0x10 - 512 ∧ ∀ x ∈ dies, x ≤ limitOf s.dev 0x14 - 512
    let past := (∃ x ∈ dies, limitOf s.dev 0x18 ≤ x) ∨ 0x6900 ≤ temp hub
    ∃ t, exec (.thermalSample inlet hub a b c e) s = .next t ∧ ServiceFrame s t
      ∧ (getR t.dev .pwr 0 0x20).toNat = inlet.toNat ∧ (getR t.dev .pwr 0 0x24).toNat = hub.toNat
      ∧ (getR t.dev .tel 0 0x20).toNat = a.toNat ∧ (getR t.dev .tel 0 0x2C).toNat = e.toNat ∧ t.dev.tel.sampleAt = s.dev.dt
      ∧ (t.dev.pow.hubOk = true ↔ temp hub < 0x6900) ∧ (t.dev.pow.inletOk = true ↔ 0x0A00 ≤ temp inlet ∧ temp inlet ≤ 0x3200)
      ∧ (s.dev.pow.blocked = none → t.dev.pow.blocked = none ∧ powerState t.dev = powerState s.dev)
      ∧ (hot → getF s.dev .tel 0 0 0 1 = 0 → s.dev.sec.restarting = none →
          getF t.dev .tel 0 0 0 1 = 1 ∧ (∀ q < 4, getF t.dev .drv q 0 16 1 = 1) ∧ getF t.dev .i3c 0 0x10 3 1 = 1
            ∧ cntAt t.dev (addrOf .tel 0 0x8C) = cntAt s.dev (addrOf .tel 0 0x8C) + 1)
      ∧ (cool → getF s.dev .tel 0 0 0 1 = 1 → s.dev.sec.restarting = none → s.dev.tel.cool = 999 →
          getF t.dev .tel 0 0 0 1 = 0 ∧ ∀ q < 4, getF t.dev .drv q 0 16 1 = 0)
      ∧ (s.dev.sec.restarting ≠ none → ∀ q < 4, getF t.dev .drv q 0 16 1 = getF s.dev .drv q 0 16 1)
      ∧ (past → s.dev.tel.tripping = false → s.dev.sec.restarting = none → s.dev.log.sealing = false →
          getF t.dev .tel 0 0 2 1 = 1 ∧ ∃ r ∈ t.dev.log.reqs, r.cls = 2 ∧ ∃ n, r.act = .write .firmware pwrCtlAddr n 0 ∧ fld n 0 3 = 2)
      ∧ (¬past → t.dev.log = s.dev.log))
  ∧ (∀ (s : State) (r : TelReading) (ecc : EccResult), s.dev.pow.hubUp = true →
    s.dev.tel.lastAt / 125000000 < s.dev.dt / 125000000 →
    let at_ := s.dev.dt / 125000000 * 125000000
    ∃ t, exec (.telemetryRecord r ecc) s = .next t
      ∧ t = { s with dev := { s.dev with regs := t.dev.regs, cnts := t.dev.cnts, i3c := t.dev.i3c, tel := t.dev.tel, mem := t.dev.mem } }
      ∧ SameSpad s.dev t.dev ∧ t.dev.tel.lastAt = at_ ∧ (getF s.dev .tel 0 0x7C 0 1 = 0 → t.dev.mem = s.dev.mem)
      ∧ (s.dev.sec.restarting = none → s.dev.pow.fail = none → 3 ≤ powerState s.dev →
          t.dev.tel.seq = s.dev.tel.seq + 1 ∧ t.dev.tel.gap = false
            ∧ cntAt t.dev (addrOf .tel 0 0x80) = cntAt s.dev (addrOf .tel 0 0x80) + 1
            ∧ ∃ bs, mapGet [] (s.dev.tel.seq % 262144) t.dev.tel.ring = bs ∧ bs.length = 256 ∧ field bs 8 8 = s.dev.tel.seq % 2 ^ 64
              ∧ field bs 16 8 = at_ % 2 ^ 64 ∧ field bs 252 4 = (crc32 (bs.take 252)).toNat)
      ∧ (s.dev.sec.restarting ≠ none ∨ s.dev.pow.fail ≠ none ∨ powerState s.dev < 3 →
          t.dev.tel.seq = s.dev.tel.seq ∧ t.dev.tel.ring = s.dev.tel.ring ∧ t.dev.tel.gap = true ∧ getF t.dev .tel 0 0 5 1 = 1
            ∧ cntAt t.dev (addrOf .tel 0 0x84)
              = cntAt s.dev (addrOf .tel 0 0x84) + BitVec.ofNat 48 (s.dev.dt / 125000000 - s.dev.tel.lastAt / 125000000)))

/-- R411-R413, R416, R418-R420, R422, R423, R427, R428: fuse bits are programmed one by one and only become 1; PROG, a firmware load, its check, its
activation, an anti-rollback advance and a revocation ask for their records, or are refused with their code. The model's readings in it: log 15 and 107. -/
def Obligations.FusesAndFirmware : Prop :=
  (∀ (s : State) (i : Nat) (event : Bool) (rest : List (Nat × Bool)), s.dev.sec.queue = (i, event) :: rest → s.dev.sec.fuseDue ≤ s.dev.dt →
    ∃ t, exec .fuseBitProgrammed s = .next t
      ∧ t = { s with dev := { s.dev with regs := t.dev.regs, i3c := t.dev.i3c, sec := t.dev.sec }, fuse := t.fuse }
      ∧ SameRegsBut [evsumAddr, secAddr 0x48] s.dev t.dev
      ∧ fuseBit t.fuse i = true ∧ (∀ j, j ≠ i → fuseBit t.fuse j = fuseBit s.fuse j)
      ∧ t.dev.sec.queue = rest ∧ t.dev.sec.fuseDue = s.dev.dt + 1250
      ∧ (event = true → getF t.dev .i3c 0 0x10 11 1 = 1) ∧ (rest = [] → getR t.dev .sec 0 0x48 = 0)
      ∧ t.dev.sec.debug = debugState t.fuse s.dev.sec.unlock.isSome)
  ∧ (∀ (s : State) (b : WriteBy) (v : W32), writesNow s b (secAddr 0x100) = true → setBit v 31 = true →
    let off := fld v 0 11
    ∃ t, exec (.fuseProg b v) s = .next t ∧ SecFrame s t ∧ SameRegsBut [evsumAddr, secAddr 0x48] s.dev t.dev ∧ secRecorded s t b 0x100 v
      ∧ t.dev.sec = s.dev.sec
      ∧ (fuseProvisioned s.fuse = true ∨ b ≠ .debug ∨ off < 0x40 → getR t.dev .sec 0 0x48 = 5 ∧ t.dev.log.reqs = s.dev.log.reqs)
      ∧ (fuseProvisioned s.fuse = false → b = .debug → 0x40 ≤ off → fuseSupply s.dev = false →
          getR t.dev .sec 0 0x48 = 4 ∧ t.dev.log.reqs = s.dev.log.reqs)
      ∧ (fuseProvisioned s.fuse = false → b = .debug → 0x40 ≤ off → fuseSupply s.dev = true →
          getR t.dev .sec 0 0x48 = 0 ∧ secAsks t 0x17 (fun r => r.target = off
            ∧ r.new = BitVec.ofNat 32 (progValue s.fuse off s.dev.sec.prog) ∧ r.act = .security (.program off s.dev.sec.prog))))
  ∧ (∀ (s : State) (b : WriteBy) (v : W32), writesNow s b (secAddr 0x20) = true →
    let o := otherBank s.dev
    (onlyBit v 0 3 → fwBusy s.dev = false →
      ∃ t, exec (.fwLoadStart b v) s = .next t ∧ SecFrame s t ∧ secRecorded s t b 0x20 v ∧ getR t.dev .sec 0 0x24 = 1
        ∧ t.dev.sec = { s.dev.sec with fwLoad := some { bank := o, rxp := fld v 8 4, slot := fld v 12 5, open_ := false } })
    ∧ (onlyBit v 1 3 → fwBusy s.dev = true →
      ∃ t, exec (.fwLoadAbort b v) s = .next t ∧ SecFrame s t ∧ secRecorded s t b 0x20 v ∧ getR t.dev .sec 0 0x24 = 0x1004
        ∧ t.dev.sec = { s.dev.sec with fwLoad := none })
    ∧ (onlyBit v 2 3 → bankValid s.dev o = true →
      ∃ t, exec (.fwActivate b v) s = .next t ∧ SecFrame s t ∧ secRecorded s t b 0x20 v ∧ getR t.dev .sec 0 0x48 = 0
        ∧ t.dev.sec = s.dev.sec
        ∧ secAsks t 0x16 (fun r => r.old = BitVec.ofNat 32 (1 - o) ∧ r.new = BitVec.ofNat 32 o ∧ r.act = .security (.activate o)))
    ∧ (onlyBit v 2 3 → bankValid s.dev o = false →
      ∃ t, exec (.fwActivate b v) s = .next t ∧ SecFrame s t ∧ secRecorded s t b 0x20 v ∧ getR t.dev .sec 0 0x48 = 2
        ∧ t.dev.sec = s.dev.sec ∧ t.dev.log.reqs = s.dev.log.reqs))
  ∧ (∀ (s : State) (w : FwLoad), s.dev.sec.fwLoad = some w → w.open_ = false → getF s.dev .sec 0 0x24 0 3 = 2 →
    let code := (fwVerify s.fuse (bankFw s.dev w.bank)).1
    ∃ t, exec .fwVerifyDone s = .next t ∧ SecFrame s t ∧ SameRegsBut [evsumAddr, secAddr 0x24] s.dev t.dev ∧ t.dev.sec.fwLoad = none
      ∧ t.dev.sec.banks = s.dev.sec.banks ∧ t.dev.sec.valid = s.dev.sec.valid ∧ t.dev.sec.running = s.dev.sec.running
      ∧ (code ≠ 0 → (getR t.dev .sec 0 0x24).toNat = (4 + 256 * code) % 2 ^ 32 ∧ t.dev.log = s.dev.log)
      ∧ (code = 5 → getF t.dev .i3c 0 0x10 11 1 = 1)
      ∧ (code = 0 → s.dev.log.sealing = false →
          secAsks t 0x15 (fun r => r.new = BitVec.ofNat 32 (fwGen (bankFw s.dev w.bank)) ∧ r.act = .security (.fwValid w.bank)
            ∧ r.extra = BitVec.ofNat 64 (leNat ((measurement (bankFw s.dev w.bank) (fwLen (bankFw s.dev w.bank))).take 8)))))
  ∧ (∀ (s : State) (b : WriteBy) (v : W32), writesNow s b (secAddr 0x40) = true → setBit v 31 = true →
    let e := fld v 0 6
    ∃ t, exec (.rollbackAdvance b v) s = .next t ∧ SecFrame s t ∧ SameRegsBut [evsumAddr, secAddr 0x48] s.dev t.dev
      ∧ secRecorded s t b 0x40 v ∧ t.dev.sec = s.dev.sec
      ∧ (∀ c, advRefusal s.fuse e s.dev = some c → getR t.dev .sec 0 0x48 = BitVec.ofNat 32 c ∧ t.dev.log.reqs = s.dev.log.reqs)
      ∧ (advRefusal s.fuse e s.dev = none →
          secAsks t 0x10 (fun r => r.old = BitVec.ofNat 32 (fuseRollback s.fuse) ∧ r.new = BitVec.ofNat 32 e ∧ r.act = .security (.advance e))))
  ∧ (∀ (s : State) (b : WriteBy) (v : W32), writesNow s b (secAddr 0x44) = true → setBit v 31 = true →
    let i := fld v 0 4
    let k := fld v 8 1
    ∃ t, exec (.revoke b v) s = .next t ∧ SecFrame s t ∧ SameRegsBut [evsumAddr, secAddr 0x48] s.dev t.dev ∧ secRecorded s t b 0x44 v
      ∧ t.dev.sec = s.dev.sec
      ∧ (∀ c, revokeRefusal s.fuse k i s.dev = some c → getR t.dev .sec 0 0x48 = BitVec.ofNat 32 c ∧ t.dev.log.reqs = s.dev.log.reqs)
      ∧ (revokeRefusal s.fuse k i s.dev = none →
          secAsks t (0x13 + k) (fun r => r.act = .security (if k = 0 then .revokeKey i else .revokeWarrant i))))

/-- R423, R424, R426-R428: a challenge is drawn for 125,000,000 DT and one SUBMIT; a SUBMIT that verifies asks for the unlock's record, any other
is counted as a failure; an unlock ends by RELOCK or with time; LOCK and SEAL queue their fuse bit or are refused; a report is assembled of one
instant and placed with its signatures. The model's readings in it: log 105, 106, 107 and 108. -/
def Obligations.DebugPortAndAttestation : Prop :=
  (∀ (s : State) (b : WriteBy) (v : W32), writesNow s b (secAddr 0x50) = true →
    (onlyBit v 0 5 → s.dev.sec.fails < 16 →
      ∃ t c, exec (.dbgChal b v) s = .next t ∧ SecFrame s t ∧ secRecorded s t b 0x50 v ∧ c.length = 32
        ∧ t.dev.sec = { s.dev.sec with chal := some (c, s.dev.dt + 125000000) } ∧ getR t.dev .sec 0 0x48 = 0
        ∧ ∀ i < 8, (getR t.dev .sec 0 (0x60 + 4 * i)).toNat = field c (4 * i) 4)
    ∧ (onlyBit v 0 5 → 16 ≤ s.dev.sec.fails →
      ∃ t, exec (.dbgChal b v) s = .next t ∧ SecFrame s t ∧ secRecorded s t b 0x50 v ∧ t.dev.sec = s.dev.sec ∧ getR t.dev .sec 0 0x48 = 5)
    ∧ (onlyBit v 1 5 → (∀ c n, s.dev.sec.chal = some (c, n) → n ≤ s.dev.dt) →
      ∃ t, exec (.dbgSubmit b v) s = .next t ∧ SecFrame s t ∧ secRecorded s t b 0x50 v
        ∧ t.dev.sec = { s.dev.sec with chal := none, fails := min (s.dev.sec.fails + 1) 31 } ∧ getF t.dev .i3c 0 0x10 11 1 = 1
        ∧ t.dev.log.reqs = s.dev.log.reqs)
    ∧ (∀ c n, let slot := byteAt (respBytes s.dev 0 1) 0
      let seconds := leNat (respBytes s.dev 4 4)
      let msg := unlockMessage s.fuse c seconds
      onlyBit v 1 5 → s.dev.sec.chal = some (c, n) → s.dev.dt < n → (usableSlots s.fuse (runningFw s.dev)).contains slot = true →
      rsaVerifies (keyRsa (runningFw s.dev) slot) msg (respBytes s.dev 8 8240) = true →
      slhVerifies (keySlh (runningFw s.dev) slot) msg (respBytes s.dev 8 8240) = true →
      ∃ t, exec (.dbgSubmit b v) s = .next t ∧ SecFrame s t ∧ secRecorded s t b 0x50 v
        ∧ t.dev.sec = { s.dev.sec with chal := none, fails := 0 } ∧ getR t.dev .sec 0 0x48 = 0
        ∧ secAsks t 0x11 (fun r => r.old = BitVec.ofNat 32 s.dev.sec.debug ∧ r.new = 2 ∧ r.act = .security (.unlock slot seconds)))
    ∧ (onlyBit v 2 5 → s.dev.sec.unlock ≠ none →
      ∃ t, exec (.dbgRelock b v) s = .next t ∧ SecFrame s t ∧ secRecorded s t b 0x50 v
        ∧ t.dev.sec = { s.dev.sec with unlock := none, debug := debugState s.fuse false } ∧ getF t.dev .i3c 0 0x10 11 1 = 1
        ∧ secAsks t 0x12 (fun r => r.old = BitVec.ofNat 32 s.dev.sec.debug ∧ r.new = BitVec.ofNat 32 (debugState s.fuse false)))
    ∧ (onlyBit v 3 5 → fuseSupply s.dev = true → fuseLocked s.fuse = false →
      ∃ t x, exec (.dbgLock b v) s = .next t ∧ SecFrame s t ∧ t.dev.log.journal = s.dev.log.journal ++ [x] ∧ x.kind = 0x12
        ∧ t.dev.sec.queue = lateLast (s.dev.sec.queue ++ [(8 * 0x1C1, false)]) ∧ t.dev.sec.debug = s.dev.sec.debug)
    ∧ (onlyBit v 4 5 → fuseSupply s.dev = true → fuseLocked s.fuse = true → fuseSealed s.fuse = false →
      ∃ t x, exec (.dbgSeal b v) s = .next t ∧ SecFrame s t ∧ t.dev.log.journal = s.dev.log.journal ++ [x] ∧ x.kind = 0x12
        ∧ t.dev.sec.queue = lateLast (s.dev.sec.queue ++ [(8 * 0x1C1 + 1, false)]) ∧ t.dev.sec.debug = s.dev.sec.debug)
    ∧ (onlyBit v 4 5 → fuseLocked s.fuse = false →
      ∃ t, exec (.dbgSeal b v) s = .next t ∧ SecFrame s t ∧ t.dev.sec = s.dev.sec ∧ getR t.dev .sec 0 0x48 = 5))
  ∧ (∀ (s : State) (n : Nat), s.dev.sec.unlock = some n → n ≤ s.dev.dt → s.dev.log.sealing = false →
    ∃ t, exec .unlockExpiry s = .next t ∧ SecFrame s t ∧ SameRegsBut [evsumAddr] s.dev t.dev
      ∧ t.dev.sec = { s.dev.sec with unlock := none, debug := debugState s.fuse false } ∧ getF t.dev .i3c 0 0x10 11 1 = 1
      ∧ secAsks t 0x12 (fun r => r.old = BitVec.ofNat 32 s.dev.sec.debug))
  ∧ (∀ (s : State) (n : Nat), s.dev.sec.unlock = some n → s.dev.dt < n → exec .unlockExpiry s = .next s)
  ∧ (∀ (s : State) (c : List Byte) (n : Nat), s.dev.sec.chal = some (c, n) → n ≤ s.dev.dt →
    ∃ t, exec .challengeExpiry s = .next t ∧ t = { s with dev := { s.dev with sec := { s.dev.sec with chal := none } } })
  ∧ (∀ (s : State) (b : WriteBy) (v : W32), writesNow s b (secAddr 0x80) = true → setBit v 0 = true →
    ∃ t, exec (.attGo b v) s = .next t ∧ SecFrame s t ∧ t.dev.regs = s.dev.regs ∧ secRecorded s t b 0x80 v
      ∧ t.dev.sec = { s.dev.sec with att := t.dev.sec.att }
      ∧ (s.dev.sec.att ≠ none → t.dev.sec.att = s.dev.sec.att)
      ∧ (s.dev.sec.att = none → ∃ r, t.dev.sec.att = some r ∧ field r 0 2 = 0x0101 ∧ field r 2 2 = 0x0200
          ∧ field r 4 4 = (s.dev.sec.attCount + 1) % 2 ^ 32 ∧ field r 8 8 = s.dev.dt % 2 ^ 64
          ∧ (r.drop 16).take 32 = (List.range 8).flatMap (fun i => leBytes 4 (getR s.dev .sec 0 (0xA0 + 4 * i)).toNat)
          ∧ (r.drop 0x30).take 6 = fuseBytes s.fuse 0 6))
  ∧ (∀ (s : State) (r : List Byte), s.dev.sec.att = some r →
    ∃ t sig, exec .attReportReady s = .next t ∧ sig.length = 8240
      ∧ t = { s with dev := { s.dev with sec := { s.dev.sec with att := none, attCount := s.dev.sec.attCount + 1, attBuf := r ++ sig } } })

namespace Sys2Proof.Claims

/-- A block whose writes do nothing but store what their fields' access codes say (R10). -/
def storesOnly : Blk → Bool
  | .peer | .dmac | .memc | .gcx | .isp | .flk => true
  | _ => false

/-- The register is written as registers are: not the command register of a CCI controller, and no wake is held off (R74, R390). -/
def plainWrite (s : State) (a : Nat) : Prop := cciCmdUnit a = none ∧ noBlockedWake s

/-- The write is of kind 0x0001: neither one to a fallow state nor a debug lock or seal (R389, R423). -/
def registerKind (s : State) (a : Nat) (v : W32) : Prop := fallowWrite s.dev a v = false ∧ a ≠ dbgCtlAddr

end Sys2Proof.Claims

/-- R8, R10, R23, R368-R371, R423: a logged write takes effect with its record, which holds the register before it and the value written; with
the journal full it waits, and nothing is applied; one that does not reach its register changes nothing; RW and RWS fields take the value, W1C
bits written 1 clear, RO fields stay. The model's readings in it: log 12 and 13. -/
def Obligations.RegisterWritesAreRecorded : Prop :=
  (∀ (s : State) (b : WriteBy) (a v : W32) (mx : Fin 10), writesNow s b a.toNat = true → plainWrite s a.toNat →
    isLogged (originOf s.dev b) a.toNat = true →
    ∃ e x, exec (.registerWrite b a v mx) s = .next { s with dev := writeEffect s.fuse (originOf s.dev b) a.toNat v 0 mx e }
      ∧ e = { s.dev with log := e.log, cnts := e.cnts } ∧ e.log.journal = s.dev.log.journal ++ [x] ∧ e.log.reqs = s.dev.log.reqs
      ∧ x.seq = s.dev.log.next ∧ x.dt = s.dev.dt ∧ x.cls = (originOf s.dev b).cls ∧ x.oid = (originOf s.dev b).oid
      ∧ x.hash = (sha384 (s.dev.log.hash ++ recordHead x)).take 16
      ∧ (registerKind s a.toNat v →
          x.kind = 1 ∧ x.len = 4 ∧ x.target = a.toNat ∧ x.old = readReg s.dev a.toNat ∧ x.new = v ∧ x.extra = 0))
  ∧ (∀ (s : State) (b : WriteBy) (a v : W32) (mx : Fin 10), writeReaches s.dev (originOf s.dev b) a.toNat = true → plainWrite s a.toNat →
    isLogged (originOf s.dev b) a.toNat = true → s.dev.log.sealing = false → slotFree s.dev = false →
    ∃ t, exec (.registerWrite b a v mx) s = .next t
      ∧ t = { s with dev := { s.dev with regs := t.dev.regs, cnts := t.dev.cnts, i3c := t.dev.i3c, log := t.dev.log } }
      ∧ SameRegsBut [evsumAddr] s.dev t.dev ∧ t.dev.log.journal = s.dev.log.journal ∧ getF t.dev .i3c 0 0x10 6 1 = 1
      ∧ cntAt t.dev (addrOf .log 0 0x12C) = cntAt s.dev (addrOf .log 0 0x12C) + 1
      ∧ ∃ r, t.dev.log.reqs = s.dev.log.reqs ++ [r] ∧ r.slot = false ∧ r.act = .write (originOf s.dev b) a.toNat v 0)
  ∧ (∀ (s : State) (b : WriteBy) (a v : W32) (mx : Fin 10), writeReaches s.dev (originOf s.dev b) a.toNat = false → plainWrite s a.toNat →
    exec (.registerWrite b a v mx) s = .next s)
  ∧ (∀ (s : State) (b : WriteBy) (a v : W32) (mx : Fin 10) (r : RegRef), writesNow s b a.toNat = true → plainWrite s a.toNat →
    locate a.toNat = some r → storesOnly r.blk = true →
    ∃ t, exec (.registerWrite b a v mx) s = .next t
      ∧ t = { s with dev := { s.dev with regs := t.dev.regs, cnts := t.dev.cnts, ctxs := t.dev.ctxs, log := t.dev.log } }
      ∧ SameRegsBut [a.toNat] s.dev t.dev
      ∧ (entryAt a.toNat = none → t.dev.regs = s.dev.regs ∧ t.dev.log = s.dev.log)
      ∧ ∀ e k, entryAt a.toNat = some (e, k) → ∀ i < 32,
          setBit (regRaw t.dev a.toNat) i
            = ((if bit (e.rw ||| e.rws) i then setBit v i else setBit (regRaw s.dev a.toNat) i) && !(setBit v i && bit e.w1c i)))

/-- R386: a read of DT_LO returns the low half of DT and latches the high half into DT_HI, which a read of DT_HI then returns, also when DT has
advanced in between; TBR returns the same count. -/
def Obligations.DeviceTimeReadsAsOneValue : Prop :=
  (∀ (s : State) (r : ReadBy) (a : W32), s.dev.pow.hubUp = true → (r = .debug → debugReaches s.dev a.toNat = true) →
    a.toNat = addrOf .clk 0 0x20 →
    ∃ t, exec (.latchedPairRead r a) s = .next t ∧ t = { s with dev := { s.dev with regs := t.dev.regs } }
      ∧ SameRegsBut [addrOf .clk 0 0x24] s.dev t.dev
      ∧ (viewReg s.fuse s.dev (readerOf r) a.toNat).toNat = s.dev.dt % 2 ^ 32
      ∧ (viewReg t.fuse t.dev (readerOf r) (addrOf .clk 0 0x24)).toNat = s.dev.dt / 2 ^ 32 % 2 ^ 32)
  ∧ (∀ (s : State) (r : ReadBy),
    ∃ t, exec .dtTick s = .next t
      ∧ viewReg t.fuse t.dev (readerOf r) (addrOf .clk 0 0x24) = viewReg s.fuse s.dev (readerOf r) (addrOf .clk 0 0x24))
  ∧ (∀ (s : State) (g : Fin 256) (mx : Fin 10) (k w : Nat), k < 16 → gcTurn s g mx k w 4 → devOp w = some .tbr → rvRd w ≠ 0 →
    ∃ t, exec (.gcTbr g mx) s = .next t ∧ GcFrame s t (16 * g.val + k)
      ∧ (getThread t.dev (16 * g.val + k)).reg (rvRd w) = BitVec.ofNat 64 s.dev.dt)

/-- R429, R430, R438-R440: a read of the lower half latches the upper half for its reader; SNAP copies every counter of its block and the DT;
a finished sample record goes to its ring's next slot, and one that finds the ring full or comes late is lost and its skip count carried on. The model's readings in it: log 110. -/
def Obligations.CountersAreReadAndSampled : Prop :=
  (∀ (s : State) (r : ReadBy) (a : W32), s.dev.pow.hubUp = true → (r = .debug → debugReaches s.dev a.toNat = true) →
    (∀ (q : Fin 4) (i : Fin 1152), a.toNat = addrOf .pmu q (0x1000 + 8 * i) →
      ∃ t, exec (.latchedPairRead r a) s = .next t ∧ t = { s with dev := { s.dev with latch := t.dev.latch } }
        ∧ (viewReg s.fuse t.dev (readerOf r) (a.toNat + 4)).toNat = pmuCount s.dev q (0x1000 + 8 * i) / 2 ^ 32
        ∧ (viewReg s.fuse t.dev (readerOf r) a.toNat).toNat = pmuCount s.dev q (0x1000 + 8 * i) % 2 ^ 32))
  ∧ (∀ (s : State) (b : WriteBy) (q : Fin 5) (v : W32), writeReaches s.dev (originOf s.dev b) (snapAddr q) = true → setBit v 0 = true →
    ∃ t e, exec (.pmuSnap q b v) s = .next t
      ∧ t = { s with dev := { s.dev with regs := t.dev.regs, cnts := t.dev.cnts, ctxs := t.dev.ctxs, pmu := t.dev.pmu } }
      ∧ e = { s.dev with cnts := t.dev.cnts, ctxs := t.dev.ctxs } ∧ SameRegsBut [snapAddr q + 4, snapAddr q + 8] s.dev t.dev
      ∧ getPmu t.dev q = { getPmu s.dev q with snap := pmuCounts e q } ∧ (∀ k, k ≠ q.val → getPmu t.dev k = getPmu s.dev k)
      ∧ (regRaw t.dev (snapAddr q + 4)).toNat = s.dev.dt % 2 ^ 32
      ∧ (regRaw t.dev (snapAddr q + 8)).toNat = s.dev.dt / 2 ^ 32 % 2 ^ 32)
  ∧ (∀ (s : State) (q : Fin 4) (vx : Fin 5) (r : SampleRec) (n : Nat) (rest : List (SampleRec × Nat)), (getPmu s.dev q).due = (r, n) :: rest →
    let k := getF s.dev .pmu q 0x100 8 8
    let g := getRegion s.dev q k
    (sampleRingOk s.dev q = true → g.fill < g.n → vxAt s.dev vx ≤ n + 64 → ringFlock s.dev q k = none →
      ∃ t, exec (.sampleRecordWrite q vx) s = .next t ∧ SameDram s.dev t.dev ∧ (getPmu t.dev q).due = rest
        ∧ cntAt t.dev (addrOf .pmu q 0x130) = cntAt s.dev (addrOf .pmu q 0x130) + 1
        ∧ spadPeek t.dev q (slotAddr g g.h) 64 = sampleBytes r
        ∧ (∀ p c : Nat, (∀ i, i < 64 → spadKey p c ≠ spadKey q (slotAddr g g.h + i)) → spadByte t.dev p c = spadByte s.dev p c)
        ∧ (getRegion t.dev q k).h = addMod g g.h 1)
    ∧ (sampleRingOk s.dev q = false ∨ g.n ≤ g.fill ∨ n + 64 < vxAt s.dev vx →
      ∃ t, exec (.sampleRecordWrite q vx) s = .next t
        ∧ t = { s with dev := { s.dev with regs := t.dev.regs, cnts := t.dev.cnts, pmu := t.dev.pmu } }
        ∧ SameRegsBut [addrOf .pmu q 4] s.dev t.dev ∧ getF t.dev .pmu q 4 1 1 = 1 ∧ (getPmu t.dev q).due = rest
        ∧ cntAt t.dev (addrOf .pmu q 0x134) = cntAt s.dev (addrOf .pmu q 0x134) + 1
        ∧ (r.source < (getPmu s.dev q).skip.length →
            (getPmu t.dev q).skip.getD r.source 0 = min ((getPmu s.dev q).skip.getD r.source 0 + r.skip) (2 ^ 32 - 1))))

/-- A step is the meaning of the command at the front of the queue, run on the state with the rest of the queue. With an empty queue the block
idles: that is the model's own choice (log entry 1). -/
def Obligations.StepRunsTheFrontCommand : Prop :=
  (∀ (c : Instr) (rest : List Instr) (s : State), step { s with pending := c :: rest } = exec c { s with pending := rest })
  ∧ (∀ s : State, s.pending = [] → step s = .next s)
  ∧ (∀ (nbits w : Nat) (s : State), decodeTableWord nbits w = none ∧ s.withFetchWord nbits w = s)

/-- R39, R61, R363, R371, R384, R409: the module after reset holds the reset values that the register tables give; nothing waits or is open; its
memories and its fuse array are in canonical form. The model's readings in it: log 9 and 10. -/
def Obligations.ResetState : Prop :=
  let s := State.reset
  let v (b : Blk) (i off : Nat) := viewReg s.fuse s.dev .i3c (addrOf b i off)
  s.pending = [] ∧ s.dev.dt = 0 ∧ Memory.wf s = true ∧ s.dev.log.next = 0 ∧ s.dev.log.hash = List.replicate 16 0#8 ∧ s.dev.log.journal = []
  ∧ (∀ k, (getSess s.dev k).isOpen = false) ∧ (planeOf s.dev 0).loaded = false ∧ (planeOf s.dev 1).loaded = false ∧ liveInsts s.dev = []
  ∧ (∀ q a, spadByte s.dev q a = 0) ∧ (∀ a, cntAt s.dev a = 0)
  ∧ v .tel 0 0x10 = 0x2D00 ∧ v .tel 0 0x14 = 0x5F00 ∧ v .tel 0 0x18 = 0x6E00 ∧ v .sec 0 0x18 = 0xFFFFFF ∧ v .clk 0 0x18 = 0x1400000
  ∧ v .i3c 0 0x10 = 0 ∧ v .sec 0 0x48 = 0

/-- From every state whose fuse array is in canonical form, a step goes on: no command stops the block. It keeps that form, takes only the front
command from the queue, and loses no fuse bit; only FUSE_BIT_PROGRAMMED changes the array, and it sets the one bit in progress (R411, R412). -/
def Obligations.FusesOnlyGain : Prop :=
  ∀ s : State, mapWf (fun _ => 0#8) s.fuse.bytes = true →
    ∃ t, step s = .next t ∧ mapWf (fun _ => 0#8) t.fuse.bytes = true ∧ FuseLe s.fuse t.fuse ∧ t.pending = s.pending.tail
      ∧ (∀ j, fuseBit s.fuse j = true → fuseBit t.fuse j = true)
      ∧ (t.fuse ≠ s.fuse → s.pending.head? = some .fuseBitProgrammed ∧ ∃ e rest, s.dev.sec.queue = e :: rest ∧ t.fuse = fuseSet e.1 s.fuse)
end

