-- ==== Sys2Proof/Laws/Map.lean ====
section
/-! SUPPORT. Sparse maps: read after write, writes elsewhere, and the canonical form. -/

namespace Sys2Proof.Machine

theorem mapGet_del_same {α : Type} (d : α) (k : Nat) (m : SMap α) : mapGet d k (mapDel k m) = d := by
  induction m with
  | nil => rfl
  | cons e r ih =>
    obtain ⟨k', v⟩ := e
    by_cases h : k' = k
    · simp [mapDel, h] at ih ⊢; exact ih
    · simp [mapDel, h, mapGet] at ih ⊢; exact ih

theorem mapGet_del_ne {α : Type} (d : α) {k j : Nat} (h : j ≠ k) (m : SMap α) : mapGet d j (mapDel k m) = mapGet d j m := by
  induction m with
  | nil => rfl
  | cons e r ih =>
    obtain ⟨k', v⟩ := e
    by_cases hk : k' = k
    · have : ¬ k = j := fun e => h e.symm
      simp [mapDel, hk, mapGet, this] at ih ⊢; exact ih
    · simp [mapDel, hk, mapGet] at ih ⊢
      by_cases hj : k' = j <;> simp [hj, ih]

theorem mapGet_ins_same {α : Type} (d : α) (k : Nat) (v : α) (m : SMap α) (h : ∀ e ∈ m, e.1 ≠ k) : mapGet d k (mapIns k v m) = v := by
  induction m with
  | nil => simp [mapIns, mapGet]
  | cons e r ih =>
    obtain ⟨k', v'⟩ := e
    have h1 : k' ≠ k := h (k', v') (by simp)
    have h2 : ∀ e ∈ r, e.1 ≠ k := fun e he => h e (by simp [he])
    by_cases hk : k < k'
    · simp [mapIns, hk, mapGet]
    · simp [mapIns, hk, mapGet, h1, ih h2]

theorem mapGet_ins_ne {α : Type} (d : α) {k j : Nat} (h : j ≠ k) (v : α) (m : SMap α) : mapGet d j (mapIns k v m) = mapGet d j m := by
  have hn : ¬ k = j := fun e => h e.symm
  induction m with
  | nil => simp [mapIns, mapGet, hn]
  | cons e r ih =>
    obtain ⟨k', v'⟩ := e
    by_cases hk : k < k'
    · simp [mapIns, hk, mapGet, hn]
    · simp [mapIns, hk, mapGet, ih]

theorem mapDel_ne {α : Type} (k : Nat) (m : SMap α) : ∀ e ∈ mapDel k m, e.1 ≠ k := by
  intro e he
  simp [mapDel] at he
  exact he.2

/-- A read of what was written. -/
@[simp] theorem mapGet_set_same {α : Type} [DecidableEq α] (d : α) (k : Nat) (v : α) (m : SMap α) : mapGet d k (mapSet d k v m) = v := by
  unfold mapSet
  split
  · next h => rw [mapGet_del_same, h]
  · exact mapGet_ins_same d k v _ (mapDel_ne k m)

/-- A write leaves every other key alone. -/
theorem mapGet_set_ne {α : Type} [DecidableEq α] (d e : α) {k j : Nat} (h : j ≠ k) (v : α) (m : SMap α) :
    mapGet d j (mapSet e k v m) = mapGet d j m := by
  unfold mapSet
  split
  · exact mapGet_del_ne d h m
  · rw [mapGet_ins_ne d h, mapGet_del_ne d h]

@[simp] theorem mapGet_upd_same {α : Type} [DecidableEq α] (d : α) (k : Nat) (f : α → α) (m : SMap α) :
    mapGet d k (mapUpd d k f m) = f (mapGet d k m) := by simp [mapUpd]

theorem mapGet_upd_ne {α : Type} [DecidableEq α] (d e : α) {k j : Nat} (h : j ≠ k) (f : α → α) (m : SMap α) :
    mapGet d j (mapUpd e k f m) = mapGet d j m := mapGet_set_ne d e h _ m

/-! ### The canonical form -/

theorem mapRising_mono {α : Type} {lo lo' : Nat} (h : lo' ≤ lo) (m : SMap α) (hm : mapRising lo m = true) : mapRising lo' m = true := by
  cases m with
  | nil => rfl
  | cons e r =>
    obtain ⟨k, v⟩ := e
    simp [mapRising] at hm ⊢
    exact ⟨by omega, hm.2⟩

theorem mapRising_del {α : Type} (k : Nat) (m : SMap α) : ∀ lo, mapRising lo m = true → mapRising lo (mapDel k m) = true := by
  induction m with
  | nil => intros; rfl
  | cons e r ih =>
    obtain ⟨k', v⟩ := e
    intro lo hm
    simp [mapRising] at hm
    by_cases hk : k' = k
    · have := mapRising_mono (by omega : lo ≤ k' + 1) _ (ih _ hm.2)
      simpa [mapDel, hk] using this
    · have := ih _ hm.2
      simp [mapDel, hk, mapRising, hm.1] at this ⊢
      exact this

theorem mapRising_ins {α : Type} (k : Nat) (v : α) (m : SMap α) :
    ∀ lo, lo ≤ k → (∀ e ∈ m, e.1 ≠ k) → mapRising lo m = true → mapRising lo (mapIns k v m) = true := by
  induction m with
  | nil => intro lo h _ _; simp [mapIns, mapRising, h]
  | cons e r ih =>
    obtain ⟨k', v'⟩ := e
    intro lo hl hne hm
    simp [mapRising] at hm
    by_cases hk : k < k'
    · simp only [mapIns, hk, ↓reduceIte, mapRising, Bool.and_eq_true, decide_eq_true_eq]
      exact ⟨hl, by omega, hm.2⟩
    · have h1 : k' ≠ k := hne (k', v') (by simp)
      simp only [mapIns, hk, ↓reduceIte, mapRising, Bool.and_eq_true, decide_eq_true_eq]
      exact ⟨hm.1, ih _ (by omega) (fun e he => hne e (by simp [he])) hm.2⟩

theorem mem_mapIns {α : Type} (k : Nat) (v : α) (m : SMap α) (e : Nat × α) (h : e ∈ mapIns k v m) : e = (k, v) ∨ e ∈ m := by
  induction m with
  | nil => simpa [mapIns] using h
  | cons x r ih =>
    obtain ⟨k', v'⟩ := x
    by_cases hk : k < k'
    · simpa [mapIns, hk] using h
    · simp [mapIns, hk] at h
      rcases h with h | h
      · simp [h]
      · rcases ih h with h | h <;> simp [h]

/-- A write keeps the canonical form. -/
theorem mapWf_set {α : Type} [DecidableEq α] (d : Nat → α) (k : Nat) (v : α) (m : SMap α) (h : mapWf d m = true) :
    mapWf d (mapSet (d k) k v m) = true := by
  simp only [mapWf, Bool.and_eq_true] at h ⊢
  have hd : mapRising 0 (mapDel k m) = true := mapRising_del k m 0 h.1
  have ha : (mapDel k m).all (fun e => decide (e.2 ≠ d e.1)) = true := by
    simp only [List.all_eq_true, mapDel, List.mem_filter] at h ⊢
    exact fun e he => h.2 e he.1
  unfold mapSet
  split
  · exact ⟨hd, ha⟩
  · next hv =>
    refine ⟨mapRising_ins k v _ 0 (Nat.zero_le _) (mapDel_ne k m) hd, ?_⟩
    simp only [List.all_eq_true, decide_eq_true_eq] at ha ⊢
    intro e he
    rcases mem_mapIns k v _ e he with rfl | he
    · exact hv
    · exact ha e he

/-- The canonical form where every unlisted key reads the same. -/
theorem mapWf_set_const {α : Type} [DecidableEq α] (d : α) (k : Nat) (v : α) (m : SMap α) (h : mapWf (fun _ => d) m = true) :
    mapWf (fun _ => d) (mapSet d k v m) = true := mapWf_set (fun _ => d) k v m h

end Sys2Proof.Machine
end

