-- ==== Sys2Proof/Laws/State.lean ====
section
/-! SUPPORT. One lemma for each field under each update of a register, a counter, a unit's record or a message list: the fields that
an update does not name stay. -/

namespace Sys2Proof.Machine

/-! ### What was written reads back; every other place stays -/

@[simp] theorem regRaw_setRaw_same (a : Nat) (v : W32) (d : Dev) : regRaw (setRaw a v d) a = v := by simp [regRaw, setRaw]

theorem regRaw_setRaw_ne {a b : Nat} (h : b ≠ a) (v : W32) (d : Dev) : regRaw (setRaw a v d) b = regRaw d b :=
  mapGet_set_ne _ _ h v d.regs

@[simp] theorem cntAt_addCnt_same (b : Blk) (i off n : Nat) (d : Dev) :
    cntAt (addCnt b i off n d) (addrOf b i off) = cntAt d (addrOf b i off) + BitVec.ofNat 48 n := by
  simp [cntAt, addCnt, mapUpd]

theorem cntAt_addCnt_ne {a : Nat} (b : Blk) (i off n : Nat) (h : a ≠ addrOf b i off) (d : Dev) : cntAt (addCnt b i off n d) a = cntAt d a :=
  mapGet_set_ne _ _ h _ d.cnts

@[simp] theorem getCtx_updCtx_same (q c : Nat) (f : DrvCtx → DrvCtx) (d : Dev) : getCtx (updCtx q c f d) q c = f (getCtx d q c) := by
  simp [getCtx, updCtx]

@[simp] theorem getDrv_updDrv_same (q : Nat) (f : DrvSt → DrvSt) (d : Dev) : getDrv (updDrv q f d) q = f (getDrv d q) := by
  simp [getDrv, updDrv]

@[simp] theorem getRegion_updRegion_same (q r : Nat) (f : Region → Region) (d : Dev) :
    getRegion (updRegion q r f d) q r = f (getRegion d q r) := by simp [getRegion, updRegion]

@[simp] theorem getFold_updFold_same (q i : Nat) (f : FoldSt → FoldSt) (d : Dev) : getFold (updFold q i f d) q i = f (getFold d q i) := by
  simp [getFold, updFold]

@[simp] theorem getSpd_updSpd_same (q : Nat) (f : SpdSt → SpdSt) (d : Dev) : getSpd (updSpd q f d) q = f (getSpd d q) := by
  simp [getSpd, updSpd]

@[simp] theorem getCh_updCh_same (k : Nat) (f : DmaCh → DmaCh) (d : Dev) : getCh (updCh k f d) k = f (getCh d k) := by
  simp [getCh, updCh]

@[simp] theorem getTx_updTx_same (p : Nat) (f : TxPort → TxPort) (d : Dev) : getTx (updTx p f d) p = f (getTx d p) := by
  simp [getTx, updTx]

@[simp] theorem getShp_updShp_same (q : Nat) (f : ShpSt → ShpSt) (d : Dev) : getShp (updShp q f d) q = f (getShp d q) := by
  simp [getShp, updShp]

@[simp] theorem getLink_updLink_same (n : Nat) (f : Link → Link) (d : Dev) : getLink (updLink n f d) n = f (getLink d n) := by
  simp [getLink, updLink]

@[simp] theorem getWin_updWin_same (w : Nat) (f : WindowSt → WindowSt) (d : Dev) : getWin (updWin w f d) w = f (getWin d w) := by
  simp [getWin, updWin]

@[simp] theorem getSess_updSess_same (n : Nat) (f : Session → Session) (d : Dev) : getSess (updSess n f d) n = f (getSess d n) := by
  simp [getSess, updSess]

theorem getCtx_updCtx_ne {q c q' c' : Nat} (h : 64 * q' + c' ≠ 64 * q + c) (f : DrvCtx → DrvCtx) (d : Dev) :
    getCtx (updCtx q c f d) q' c' = getCtx d q' c' := mapGet_upd_ne _ _ h f d.ctxs

theorem getRegion_updRegion_ne {q r q' r' : Nat} (h : 256 * q' + r' ≠ 256 * q + r) (f : Region → Region) (d : Dev) :
    getRegion (updRegion q r f d) q' r' = getRegion d q' r' := mapGet_upd_ne _ _ h f d.regions

theorem getCh_updCh_ne {k j : Nat} (h : j ≠ k) (f : DmaCh → DmaCh) (d : Dev) : getCh (updCh k f d) j = getCh d j :=
  mapGet_upd_ne _ _ h f d.dma

/-! ### Fields that an update leaves alone -/

section
variable (a : Nat) (v : W32) (d : Dev)
@[simp] theorem setRaw_dt : (setRaw a v d).dt = d.dt := rfl
@[simp] theorem setRaw_freeCount : (setRaw a v d).freeCount = d.freeCount := rfl
@[simp] theorem setRaw_wakeAt : (setRaw a v d).wakeAt = d.wakeAt := rfl
@[simp] theorem setRaw_serial : (setRaw a v d).serial = d.serial := rfl
@[simp] theorem setRaw_cnts : (setRaw a v d).cnts = d.cnts := rfl
@[simp] theorem setRaw_mem : (setRaw a v d).mem = d.mem := rfl
@[simp] theorem setRaw_fab : (setRaw a v d).fab = d.fab := rfl
@[simp] theorem setRaw_log : (setRaw a v d).log = d.log := rfl
@[simp] theorem setRaw_i3c : (setRaw a v d).i3c = d.i3c := rfl
@[simp] theorem setRaw_cfg : (setRaw a v d).cfg = d.cfg := rfl
@[simp] theorem setRaw_ctxs : (setRaw a v d).ctxs = d.ctxs := rfl
@[simp] theorem setRaw_drv : (setRaw a v d).drv = d.drv := rfl
@[simp] theorem setRaw_prog : (setRaw a v d).prog = d.prog := rfl
@[simp] theorem setRaw_epochs : (setRaw a v d).epochs = d.epochs := rfl
@[simp] theorem setRaw_lastVals : (setRaw a v d).lastVals = d.lastVals := rfl
@[simp] theorem setRaw_flowDone : (setRaw a v d).flowDone = d.flowDone := rfl
@[simp] theorem setRaw_regions : (setRaw a v d).regions = d.regions := rfl
@[simp] theorem setRaw_audit : (setRaw a v d).audit = d.audit := rfl
@[simp] theorem setRaw_flocks : (setRaw a v d).flocks = d.flocks := rfl
@[simp] theorem setRaw_folds : (setRaw a v d).folds = d.folds := rfl
@[simp] theorem setRaw_spd : (setRaw a v d).spd = d.spd := rfl
@[simp] theorem setRaw_sec : (setRaw a v d).sec = d.sec := rfl
@[simp] theorem setRaw_clk : (setRaw a v d).clk = d.clk := rfl
@[simp] theorem setRaw_pow : (setRaw a v d).pow = d.pow := rfl
@[simp] theorem setRaw_tel : (setRaw a v d).tel = d.tel := rfl
@[simp] theorem setRaw_dma : (setRaw a v d).dma = d.dma := rfl
@[simp] theorem setRaw_tx : (setRaw a v d).tx = d.tx := rfl
@[simp] theorem setRaw_peer : (setRaw a v d).peer = d.peer := rfl
@[simp] theorem setRaw_shp : (setRaw a v d).shp = d.shp := rfl
@[simp] theorem setRaw_memsys : (setRaw a v d).memsys = d.memsys := rfl
@[simp] theorem setRaw_rx : (setRaw a v d).rx = d.rx := rfl
@[simp] theorem setRaw_isp : (setRaw a v d).isp = d.isp := rfl
@[simp] theorem setRaw_eng : (setRaw a v d).eng = d.eng := rfl
@[simp] theorem setRaw_vis : (setRaw a v d).vis = d.vis := rfl
@[simp] theorem setRaw_me : (setRaw a v d).me = d.me := rfl
@[simp] theorem setRaw_cores : (setRaw a v d).cores = d.cores := rfl
@[simp] theorem setRaw_threads : (setRaw a v d).threads = d.threads := rfl
@[simp] theorem setRaw_pmu : (setRaw a v d).pmu = d.pmu := rfl
@[simp] theorem setRaw_latch : (setRaw a v d).latch = d.latch := rfl
@[simp] theorem setRaw_rr : (setRaw a v d).rr = d.rr := rfl
@[simp] theorem setRaw_outcomes : (setRaw a v d).outcomes = d.outcomes := rfl
end

section
variable (b : Blk) (i : Nat) (off : Nat) (v : Nat) (d : Dev)
@[simp] theorem setR_dt : (setR b i off v d).dt = d.dt := rfl
@[simp] theorem setR_freeCount : (setR b i off v d).freeCount = d.freeCount := rfl
@[simp] theorem setR_wakeAt : (setR b i off v d).wakeAt = d.wakeAt := rfl
@[simp] theorem setR_serial : (setR b i off v d).serial = d.serial := rfl
@[simp] theorem setR_cnts : (setR b i off v d).cnts = d.cnts := rfl
@[simp] theorem setR_mem : (setR b i off v d).mem = d.mem := rfl
@[simp] theorem setR_fab : (setR b i off v d).fab = d.fab := rfl
@[simp] theorem setR_log : (setR b i off v d).log = d.log := rfl
@[simp] theorem setR_i3c : (setR b i off v d).i3c = d.i3c := rfl
@[simp] theorem setR_cfg : (setR b i off v d).cfg = d.cfg := rfl
@[simp] theorem setR_ctxs : (setR b i off v d).ctxs = d.ctxs := rfl
@[simp] theorem setR_drv : (setR b i off v d).drv = d.drv := rfl
@[simp] theorem setR_prog : (setR b i off v d).prog = d.prog := rfl
@[simp] theorem setR_epochs : (setR b i off v d).epochs = d.epochs := rfl
@[simp] theorem setR_lastVals : (setR b i off v d).lastVals = d.lastVals := rfl
@[simp] theorem setR_flowDone : (setR b i off v d).flowDone = d.flowDone := rfl
@[simp] theorem setR_regions : (setR b i off v d).regions = d.regions := rfl
@[simp] theorem setR_audit : (setR b i off v d).audit = d.audit := rfl
@[simp] theorem setR_flocks : (setR b i off v d).flocks = d.flocks := rfl
@[simp] theorem setR_folds : (setR b i off v d).folds = d.folds := rfl
@[simp] theorem setR_spd : (setR b i off v d).spd = d.spd := rfl
@[simp] theorem setR_sec : (setR b i off v d).sec = d.sec := rfl
@[simp] theorem setR_clk : (setR b i off v d).clk = d.clk := rfl
@[simp] theorem setR_pow : (setR b i off v d).pow = d.pow := rfl
@[simp] theorem setR_tel : (setR b i off v d).tel = d.tel := rfl
@[simp] theorem setR_dma : (setR b i off v d).dma = d.dma := rfl
@[simp] theorem setR_tx : (setR b i off v d).tx = d.tx := rfl
@[simp] theorem setR_peer : (setR b i off v d).peer = d.peer := rfl
@[simp] theorem setR_shp : (setR b i off v d).shp = d.shp := rfl
@[simp] theorem setR_memsys : (setR b i off v d).memsys = d.memsys := rfl
@[simp] theorem setR_rx : (setR b i off v d).rx = d.rx := rfl
@[simp] theorem setR_isp : (setR b i off v d).isp = d.isp := rfl
@[simp] theorem setR_eng : (setR b i off v d).eng = d.eng := rfl
@[simp] theorem setR_vis : (setR b i off v d).vis = d.vis := rfl
@[simp] theorem setR_me : (setR b i off v d).me = d.me := rfl
@[simp] theorem setR_cores : (setR b i off v d).cores = d.cores := rfl
@[simp] theorem setR_threads : (setR b i off v d).threads = d.threads := rfl
@[simp] theorem setR_pmu : (setR b i off v d).pmu = d.pmu := rfl
@[simp] theorem setR_latch : (setR b i off v d).latch = d.latch := rfl
@[simp] theorem setR_rr : (setR b i off v d).rr = d.rr := rfl
@[simp] theorem setR_outcomes : (setR b i off v d).outcomes = d.outcomes := rfl
end

section
variable (b : Blk) (i : Nat) (off : Nat) (lo : Nat) (len : Nat) (v : Nat) (d : Dev)
@[simp] theorem setF_dt : (setF b i off lo len v d).dt = d.dt := rfl
@[simp] theorem setF_freeCount : (setF b i off lo len v d).freeCount = d.freeCount := rfl
@[simp] theorem setF_wakeAt : (setF b i off lo len v d).wakeAt = d.wakeAt := rfl
@[simp] theorem setF_serial : (setF b i off lo len v d).serial = d.serial := rfl
@[simp] theorem setF_cnts : (setF b i off lo len v d).cnts = d.cnts := rfl
@[simp] theorem setF_mem : (setF b i off lo len v d).mem = d.mem := rfl
@[simp] theorem setF_fab : (setF b i off lo len v d).fab = d.fab := rfl
@[simp] theorem setF_log : (setF b i off lo len v d).log = d.log := rfl
@[simp] theorem setF_i3c : (setF b i off lo len v d).i3c = d.i3c := rfl
@[simp] theorem setF_cfg : (setF b i off lo len v d).cfg = d.cfg := rfl
@[simp] theorem setF_ctxs : (setF b i off lo len v d).ctxs = d.ctxs := rfl
@[simp] theorem setF_drv : (setF b i off lo len v d).drv = d.drv := rfl
@[simp] theorem setF_prog : (setF b i off lo len v d).prog = d.prog := rfl
@[simp] theorem setF_epochs : (setF b i off lo len v d).epochs = d.epochs := rfl
@[simp] theorem setF_lastVals : (setF b i off lo len v d).lastVals = d.lastVals := rfl
@[simp] theorem setF_flowDone : (setF b i off lo len v d).flowDone = d.flowDone := rfl
@[simp] theorem setF_regions : (setF b i off lo len v d).regions = d.regions := rfl
@[simp] theorem setF_audit : (setF b i off lo len v d).audit = d.audit := rfl
@[simp] theorem setF_flocks : (setF b i off lo len v d).flocks = d.flocks := rfl
@[simp] theorem setF_folds : (setF b i off lo len v d).folds = d.folds := rfl
@[simp] theorem setF_spd : (setF b i off lo len v d).spd = d.spd := rfl
@[simp] theorem setF_sec : (setF b i off lo len v d).sec = d.sec := rfl
@[simp] theorem setF_clk : (setF b i off lo len v d).clk = d.clk := rfl
@[simp] theorem setF_pow : (setF b i off lo len v d).pow = d.pow := rfl
@[simp] theorem setF_tel : (setF b i off lo len v d).tel = d.tel := rfl
@[simp] theorem setF_dma : (setF b i off lo len v d).dma = d.dma := rfl
@[simp] theorem setF_tx : (setF b i off lo len v d).tx = d.tx := rfl
@[simp] theorem setF_peer : (setF b i off lo len v d).peer = d.peer := rfl
@[simp] theorem setF_shp : (setF b i off lo len v d).shp = d.shp := rfl
@[simp] theorem setF_memsys : (setF b i off lo len v d).memsys = d.memsys := rfl
@[simp] theorem setF_rx : (setF b i off lo len v d).rx = d.rx := rfl
@[simp] theorem setF_isp : (setF b i off lo len v d).isp = d.isp := rfl
@[simp] theorem setF_eng : (setF b i off lo len v d).eng = d.eng := rfl
@[simp] theorem setF_vis : (setF b i off lo len v d).vis = d.vis := rfl
@[simp] theorem setF_me : (setF b i off lo len v d).me = d.me := rfl
@[simp] theorem setF_cores : (setF b i off lo len v d).cores = d.cores := rfl
@[simp] theorem setF_threads : (setF b i off lo len v d).threads = d.threads := rfl
@[simp] theorem setF_pmu : (setF b i off lo len v d).pmu = d.pmu := rfl
@[simp] theorem setF_latch : (setF b i off lo len v d).latch = d.latch := rfl
@[simp] theorem setF_rr : (setF b i off lo len v d).rr = d.rr := rfl
@[simp] theorem setF_outcomes : (setF b i off lo len v d).outcomes = d.outcomes := rfl
end

section
variable (b : Blk) (i : Nat) (off : Nat) (m : Nat) (d : Dev)
@[simp] theorem orR_dt : (orR b i off m d).dt = d.dt := rfl
@[simp] theorem orR_freeCount : (orR b i off m d).freeCount = d.freeCount := rfl
@[simp] theorem orR_wakeAt : (orR b i off m d).wakeAt = d.wakeAt := rfl
@[simp] theorem orR_serial : (orR b i off m d).serial = d.serial := rfl
@[simp] theorem orR_cnts : (orR b i off m d).cnts = d.cnts := rfl
@[simp] theorem orR_mem : (orR b i off m d).mem = d.mem := rfl
@[simp] theorem orR_fab : (orR b i off m d).fab = d.fab := rfl
@[simp] theorem orR_log : (orR b i off m d).log = d.log := rfl
@[simp] theorem orR_i3c : (orR b i off m d).i3c = d.i3c := rfl
@[simp] theorem orR_cfg : (orR b i off m d).cfg = d.cfg := rfl
@[simp] theorem orR_ctxs : (orR b i off m d).ctxs = d.ctxs := rfl
@[simp] theorem orR_drv : (orR b i off m d).drv = d.drv := rfl
@[simp] theorem orR_prog : (orR b i off m d).prog = d.prog := rfl
@[simp] theorem orR_epochs : (orR b i off m d).epochs = d.epochs := rfl
@[simp] theorem orR_lastVals : (orR b i off m d).lastVals = d.lastVals := rfl
@[simp] theorem orR_flowDone : (orR b i off m d).flowDone = d.flowDone := rfl
@[simp] theorem orR_regions : (orR b i off m d).regions = d.regions := rfl
@[simp] theorem orR_audit : (orR b i off m d).audit = d.audit := rfl
@[simp] theorem orR_flocks : (orR b i off m d).flocks = d.flocks := rfl
@[simp] theorem orR_folds : (orR b i off m d).folds = d.folds := rfl
@[simp] theorem orR_spd : (orR b i off m d).spd = d.spd := rfl
@[simp] theorem orR_sec : (orR b i off m d).sec = d.sec := rfl
@[simp] theorem orR_clk : (orR b i off m d).clk = d.clk := rfl
@[simp] theorem orR_pow : (orR b i off m d).pow = d.pow := rfl
@[simp] theorem orR_tel : (orR b i off m d).tel = d.tel := rfl
@[simp] theorem orR_dma : (orR b i off m d).dma = d.dma := rfl
@[simp] theorem orR_tx : (orR b i off m d).tx = d.tx := rfl
@[simp] theorem orR_peer : (orR b i off m d).peer = d.peer := rfl
@[simp] theorem orR_shp : (orR b i off m d).shp = d.shp := rfl
@[simp] theorem orR_memsys : (orR b i off m d).memsys = d.memsys := rfl
@[simp] theorem orR_rx : (orR b i off m d).rx = d.rx := rfl
@[simp] theorem orR_isp : (orR b i off m d).isp = d.isp := rfl
@[simp] theorem orR_eng : (orR b i off m d).eng = d.eng := rfl
@[simp] theorem orR_vis : (orR b i off m d).vis = d.vis := rfl
@[simp] theorem orR_me : (orR b i off m d).me = d.me := rfl
@[simp] theorem orR_cores : (orR b i off m d).cores = d.cores := rfl
@[simp] theorem orR_threads : (orR b i off m d).threads = d.threads := rfl
@[simp] theorem orR_pmu : (orR b i off m d).pmu = d.pmu := rfl
@[simp] theorem orR_latch : (orR b i off m d).latch = d.latch := rfl
@[simp] theorem orR_rr : (orR b i off m d).rr = d.rr := rfl
@[simp] theorem orR_outcomes : (orR b i off m d).outcomes = d.outcomes := rfl
end

section
variable (b : Blk) (i : Nat) (lo : Nat) (hi : Nat) (v : Nat) (d : Dev)
@[simp] theorem setPair_dt : (setPair b i lo hi v d).dt = d.dt := rfl
@[simp] theorem setPair_freeCount : (setPair b i lo hi v d).freeCount = d.freeCount := rfl
@[simp] theorem setPair_wakeAt : (setPair b i lo hi v d).wakeAt = d.wakeAt := rfl
@[simp] theorem setPair_serial : (setPair b i lo hi v d).serial = d.serial := rfl
@[simp] theorem setPair_cnts : (setPair b i lo hi v d).cnts = d.cnts := rfl
@[simp] theorem setPair_mem : (setPair b i lo hi v d).mem = d.mem := rfl
@[simp] theorem setPair_fab : (setPair b i lo hi v d).fab = d.fab := rfl
@[simp] theorem setPair_log : (setPair b i lo hi v d).log = d.log := rfl
@[simp] theorem setPair_i3c : (setPair b i lo hi v d).i3c = d.i3c := rfl
@[simp] theorem setPair_cfg : (setPair b i lo hi v d).cfg = d.cfg := rfl
@[simp] theorem setPair_ctxs : (setPair b i lo hi v d).ctxs = d.ctxs := rfl
@[simp] theorem setPair_drv : (setPair b i lo hi v d).drv = d.drv := rfl
@[simp] theorem setPair_prog : (setPair b i lo hi v d).prog = d.prog := rfl
@[simp] theorem setPair_epochs : (setPair b i lo hi v d).epochs = d.epochs := rfl
@[simp] theorem setPair_lastVals : (setPair b i lo hi v d).lastVals = d.lastVals := rfl
@[simp] theorem setPair_flowDone : (setPair b i lo hi v d).flowDone = d.flowDone := rfl
@[simp] theorem setPair_regions : (setPair b i lo hi v d).regions = d.regions := rfl
@[simp] theorem setPair_audit : (setPair b i lo hi v d).audit = d.audit := rfl
@[simp] theorem setPair_flocks : (setPair b i lo hi v d).flocks = d.flocks := rfl
@[simp] theorem setPair_folds : (setPair b i lo hi v d).folds = d.folds := rfl
@[simp] theorem setPair_spd : (setPair b i lo hi v d).spd = d.spd := rfl
@[simp] theorem setPair_sec : (setPair b i lo hi v d).sec = d.sec := rfl
@[simp] theorem setPair_clk : (setPair b i lo hi v d).clk = d.clk := rfl
@[simp] theorem setPair_pow : (setPair b i lo hi v d).pow = d.pow := rfl
@[simp] theorem setPair_tel : (setPair b i lo hi v d).tel = d.tel := rfl
@[simp] theorem setPair_dma : (setPair b i lo hi v d).dma = d.dma := rfl
@[simp] theorem setPair_tx : (setPair b i lo hi v d).tx = d.tx := rfl
@[simp] theorem setPair_peer : (setPair b i lo hi v d).peer = d.peer := rfl
@[simp] theorem setPair_shp : (setPair b i lo hi v d).shp = d.shp := rfl
@[simp] theorem setPair_memsys : (setPair b i lo hi v d).memsys = d.memsys := rfl
@[simp] theorem setPair_rx : (setPair b i lo hi v d).rx = d.rx := rfl
@[simp] theorem setPair_isp : (setPair b i lo hi v d).isp = d.isp := rfl
@[simp] theorem setPair_eng : (setPair b i lo hi v d).eng = d.eng := rfl
@[simp] theorem setPair_vis : (setPair b i lo hi v d).vis = d.vis := rfl
@[simp] theorem setPair_me : (setPair b i lo hi v d).me = d.me := rfl
@[simp] theorem setPair_cores : (setPair b i lo hi v d).cores = d.cores := rfl
@[simp] theorem setPair_threads : (setPair b i lo hi v d).threads = d.threads := rfl
@[simp] theorem setPair_pmu : (setPair b i lo hi v d).pmu = d.pmu := rfl
@[simp] theorem setPair_latch : (setPair b i lo hi v d).latch = d.latch := rfl
@[simp] theorem setPair_rr : (setPair b i lo hi v d).rr = d.rr := rfl
@[simp] theorem setPair_outcomes : (setPair b i lo hi v d).outcomes = d.outcomes := rfl
end

section
variable (b : Blk) (i : Nat) (off : Nat) (n : Nat) (d : Dev)
@[simp] theorem addCnt_dt : (addCnt b i off n d).dt = d.dt := rfl
@[simp] theorem addCnt_freeCount : (addCnt b i off n d).freeCount = d.freeCount := rfl
@[simp] theorem addCnt_wakeAt : (addCnt b i off n d).wakeAt = d.wakeAt := rfl
@[simp] theorem addCnt_serial : (addCnt b i off n d).serial = d.serial := rfl
@[simp] theorem addCnt_regs : (addCnt b i off n d).regs = d.regs := rfl
@[simp] theorem addCnt_mem : (addCnt b i off n d).mem = d.mem := rfl
@[simp] theorem addCnt_fab : (addCnt b i off n d).fab = d.fab := rfl
@[simp] theorem addCnt_log : (addCnt b i off n d).log = d.log := rfl
@[simp] theorem addCnt_i3c : (addCnt b i off n d).i3c = d.i3c := rfl
@[simp] theorem addCnt_cfg : (addCnt b i off n d).cfg = d.cfg := rfl
@[simp] theorem addCnt_ctxs : (addCnt b i off n d).ctxs = d.ctxs := rfl
@[simp] theorem addCnt_drv : (addCnt b i off n d).drv = d.drv := rfl
@[simp] theorem addCnt_prog : (addCnt b i off n d).prog = d.prog := rfl
@[simp] theorem addCnt_epochs : (addCnt b i off n d).epochs = d.epochs := rfl
@[simp] theorem addCnt_lastVals : (addCnt b i off n d).lastVals = d.lastVals := rfl
@[simp] theorem addCnt_flowDone : (addCnt b i off n d).flowDone = d.flowDone := rfl
@[simp] theorem addCnt_regions : (addCnt b i off n d).regions = d.regions := rfl
@[simp] theorem addCnt_audit : (addCnt b i off n d).audit = d.audit := rfl
@[simp] theorem addCnt_flocks : (addCnt b i off n d).flocks = d.flocks := rfl
@[simp] theorem addCnt_folds : (addCnt b i off n d).folds = d.folds := rfl
@[simp] theorem addCnt_spd : (addCnt b i off n d).spd = d.spd := rfl
@[simp] theorem addCnt_sec : (addCnt b i off n d).sec = d.sec := rfl
@[simp] theorem addCnt_clk : (addCnt b i off n d).clk = d.clk := rfl
@[simp] theorem addCnt_pow : (addCnt b i off n d).pow = d.pow := rfl
@[simp] theorem addCnt_tel : (addCnt b i off n d).tel = d.tel := rfl
@[simp] theorem addCnt_dma : (addCnt b i off n d).dma = d.dma := rfl
@[simp] theorem addCnt_tx : (addCnt b i off n d).tx = d.tx := rfl
@[simp] theorem addCnt_peer : (addCnt b i off n d).peer = d.peer := rfl
@[simp] theorem addCnt_shp : (addCnt b i off n d).shp = d.shp := rfl
@[simp] theorem addCnt_memsys : (addCnt b i off n d).memsys = d.memsys := rfl
@[simp] theorem addCnt_rx : (addCnt b i off n d).rx = d.rx := rfl
@[simp] theorem addCnt_isp : (addCnt b i off n d).isp = d.isp := rfl
@[simp] theorem addCnt_eng : (addCnt b i off n d).eng = d.eng := rfl
@[simp] theorem addCnt_vis : (addCnt b i off n d).vis = d.vis := rfl
@[simp] theorem addCnt_me : (addCnt b i off n d).me = d.me := rfl
@[simp] theorem addCnt_cores : (addCnt b i off n d).cores = d.cores := rfl
@[simp] theorem addCnt_threads : (addCnt b i off n d).threads = d.threads := rfl
@[simp] theorem addCnt_pmu : (addCnt b i off n d).pmu = d.pmu := rfl
@[simp] theorem addCnt_latch : (addCnt b i off n d).latch = d.latch := rfl
@[simp] theorem addCnt_rr : (addCnt b i off n d).rr = d.rr := rfl
@[simp] theorem addCnt_outcomes : (addCnt b i off n d).outcomes = d.outcomes := rfl
end

section
variable (q : Nat) (c : Nat) (f : DrvCtx → DrvCtx) (d : Dev)
@[simp] theorem updCtx_dt : (updCtx q c f d).dt = d.dt := rfl
@[simp] theorem updCtx_freeCount : (updCtx q c f d).freeCount = d.freeCount := rfl
@[simp] theorem updCtx_wakeAt : (updCtx q c f d).wakeAt = d.wakeAt := rfl
@[simp] theorem updCtx_serial : (updCtx q c f d).serial = d.serial := rfl
@[simp] theorem updCtx_regs : (updCtx q c f d).regs = d.regs := rfl
@[simp] theorem updCtx_cnts : (updCtx q c f d).cnts = d.cnts := rfl
@[simp] theorem updCtx_mem : (updCtx q c f d).mem = d.mem := rfl
@[simp] theorem updCtx_fab : (updCtx q c f d).fab = d.fab := rfl
@[simp] theorem updCtx_log : (updCtx q c f d).log = d.log := rfl
@[simp] theorem updCtx_i3c : (updCtx q c f d).i3c = d.i3c := rfl
@[simp] theorem updCtx_cfg : (updCtx q c f d).cfg = d.cfg := rfl
@[simp] theorem updCtx_drv : (updCtx q c f d).drv = d.drv := rfl
@[simp] theorem updCtx_prog : (updCtx q c f d).prog = d.prog := rfl
@[simp] theorem updCtx_epochs : (updCtx q c f d).epochs = d.epochs := rfl
@[simp] theorem updCtx_lastVals : (updCtx q c f d).lastVals = d.lastVals := rfl
@[simp] theorem updCtx_flowDone : (updCtx q c f d).flowDone = d.flowDone := rfl
@[simp] theorem updCtx_regions : (updCtx q c f d).regions = d.regions := rfl
@[simp] theorem updCtx_audit : (updCtx q c f d).audit = d.audit := rfl
@[simp] theorem updCtx_flocks : (updCtx q c f d).flocks = d.flocks := rfl
@[simp] theorem updCtx_folds : (updCtx q c f d).folds = d.folds := rfl
@[simp] theorem updCtx_spd : (updCtx q c f d).spd = d.spd := rfl
@[simp] theorem updCtx_sec : (updCtx q c f d).sec = d.sec := rfl
@[simp] theorem updCtx_clk : (updCtx q c f d).clk = d.clk := rfl
@[simp] theorem updCtx_pow : (updCtx q c f d).pow = d.pow := rfl
@[simp] theorem updCtx_tel : (updCtx q c f d).tel = d.tel := rfl
@[simp] theorem updCtx_dma : (updCtx q c f d).dma = d.dma := rfl
@[simp] theorem updCtx_tx : (updCtx q c f d).tx = d.tx := rfl
@[simp] theorem updCtx_peer : (updCtx q c f d).peer = d.peer := rfl
@[simp] theorem updCtx_shp : (updCtx q c f d).shp = d.shp := rfl
@[simp] theorem updCtx_memsys : (updCtx q c f d).memsys = d.memsys := rfl
@[simp] theorem updCtx_rx : (updCtx q c f d).rx = d.rx := rfl
@[simp] theorem updCtx_isp : (updCtx q c f d).isp = d.isp := rfl
@[simp] theorem updCtx_eng : (updCtx q c f d).eng = d.eng := rfl
@[simp] theorem updCtx_vis : (updCtx q c f d).vis = d.vis := rfl
@[simp] theorem updCtx_me : (updCtx q c f d).me = d.me := rfl
@[simp] theorem updCtx_cores : (updCtx q c f d).cores = d.cores := rfl
@[simp] theorem updCtx_threads : (updCtx q c f d).threads = d.threads := rfl
@[simp] theorem updCtx_pmu : (updCtx q c f d).pmu = d.pmu := rfl
@[simp] theorem updCtx_latch : (updCtx q c f d).latch = d.latch := rfl
@[simp] theorem updCtx_rr : (updCtx q c f d).rr = d.rr := rfl
@[simp] theorem updCtx_outcomes : (updCtx q c f d).outcomes = d.outcomes := rfl
end

section
variable (q : Nat) (f : DrvSt → DrvSt) (d : Dev)
@[simp] theorem updDrv_dt : (updDrv q f d).dt = d.dt := rfl
@[simp] theorem updDrv_freeCount : (updDrv q f d).freeCount = d.freeCount := rfl
@[simp] theorem updDrv_wakeAt : (updDrv q f d).wakeAt = d.wakeAt := rfl
@[simp] theorem updDrv_serial : (updDrv q f d).serial = d.serial := rfl
@[simp] theorem updDrv_regs : (updDrv q f d).regs = d.regs := rfl
@[simp] theorem updDrv_cnts : (updDrv q f d).cnts = d.cnts := rfl
@[simp] theorem updDrv_mem : (updDrv q f d).mem = d.mem := rfl
@[simp] theorem updDrv_fab : (updDrv q f d).fab = d.fab := rfl
@[simp] theorem updDrv_log : (updDrv q f d).log = d.log := rfl
@[simp] theorem updDrv_i3c : (updDrv q f d).i3c = d.i3c := rfl
@[simp] theorem updDrv_cfg : (updDrv q f d).cfg = d.cfg := rfl
@[simp] theorem updDrv_ctxs : (updDrv q f d).ctxs = d.ctxs := rfl
@[simp] theorem updDrv_prog : (updDrv q f d).prog = d.prog := rfl
@[simp] theorem updDrv_epochs : (updDrv q f d).epochs = d.epochs := rfl
@[simp] theorem updDrv_lastVals : (updDrv q f d).lastVals = d.lastVals := rfl
@[simp] theorem updDrv_flowDone : (updDrv q f d).flowDone = d.flowDone := rfl
@[simp] theorem updDrv_regions : (updDrv q f d).regions = d.regions := rfl
@[simp] theorem updDrv_audit : (updDrv q f d).audit = d.audit := rfl
@[simp] theorem updDrv_flocks : (updDrv q f d).flocks = d.flocks := rfl
@[simp] theorem updDrv_folds : (updDrv q f d).folds = d.folds := rfl
@[simp] theorem updDrv_spd : (updDrv q f d).spd = d.spd := rfl
@[simp] theorem updDrv_sec : (updDrv q f d).sec = d.sec := rfl
@[simp] theorem updDrv_clk : (updDrv q f d).clk = d.clk := rfl
@[simp] theorem updDrv_pow : (updDrv q f d).pow = d.pow := rfl
@[simp] theorem updDrv_tel : (updDrv q f d).tel = d.tel := rfl
@[simp] theorem updDrv_dma : (updDrv q f d).dma = d.dma := rfl
@[simp] theorem updDrv_tx : (updDrv q f d).tx = d.tx := rfl
@[simp] theorem updDrv_peer : (updDrv q f d).peer = d.peer := rfl
@[simp] theorem updDrv_shp : (updDrv q f d).shp = d.shp := rfl
@[simp] theorem updDrv_memsys : (updDrv q f d).memsys = d.memsys := rfl
@[simp] theorem updDrv_rx : (updDrv q f d).rx = d.rx := rfl
@[simp] theorem updDrv_isp : (updDrv q f d).isp = d.isp := rfl
@[simp] theorem updDrv_eng : (updDrv q f d).eng = d.eng := rfl
@[simp] theorem updDrv_vis : (updDrv q f d).vis = d.vis := rfl
@[simp] theorem updDrv_me : (updDrv q f d).me = d.me := rfl
@[simp] theorem updDrv_cores : (updDrv q f d).cores = d.cores := rfl
@[simp] theorem updDrv_threads : (updDrv q f d).threads = d.threads := rfl
@[simp] theorem updDrv_pmu : (updDrv q f d).pmu = d.pmu := rfl
@[simp] theorem updDrv_latch : (updDrv q f d).latch = d.latch := rfl
@[simp] theorem updDrv_rr : (updDrv q f d).rr = d.rr := rfl
@[simp] theorem updDrv_outcomes : (updDrv q f d).outcomes = d.outcomes := rfl
end

section
variable (q : Nat) (r : Nat) (f : Region → Region) (d : Dev)
@[simp] theorem updRegion_dt : (updRegion q r f d).dt = d.dt := rfl
@[simp] theorem updRegion_freeCount : (updRegion q r f d).freeCount = d.freeCount := rfl
@[simp] theorem updRegion_wakeAt : (updRegion q r f d).wakeAt = d.wakeAt := rfl
@[simp] theorem updRegion_serial : (updRegion q r f d).serial = d.serial := rfl
@[simp] theorem updRegion_regs : (updRegion q r f d).regs = d.regs := rfl
@[simp] theorem updRegion_cnts : (updRegion q r f d).cnts = d.cnts := rfl
@[simp] theorem updRegion_mem : (updRegion q r f d).mem = d.mem := rfl
@[simp] theorem updRegion_fab : (updRegion q r f d).fab = d.fab := rfl
@[simp] theorem updRegion_log : (updRegion q r f d).log = d.log := rfl
@[simp] theorem updRegion_i3c : (updRegion q r f d).i3c = d.i3c := rfl
@[simp] theorem updRegion_cfg : (updRegion q r f d).cfg = d.cfg := rfl
@[simp] theorem updRegion_ctxs : (updRegion q r f d).ctxs = d.ctxs := rfl
@[simp] theorem updRegion_drv : (updRegion q r f d).drv = d.drv := rfl
@[simp] theorem updRegion_prog : (updRegion q r f d).prog = d.prog := rfl
@[simp] theorem updRegion_epochs : (updRegion q r f d).epochs = d.epochs := rfl
@[simp] theorem updRegion_lastVals : (updRegion q r f d).lastVals = d.lastVals := rfl
@[simp] theorem updRegion_flowDone : (updRegion q r f d).flowDone = d.flowDone := rfl
@[simp] theorem updRegion_audit : (updRegion q r f d).audit = d.audit := rfl
@[simp] theorem updRegion_flocks : (updRegion q r f d).flocks = d.flocks := rfl
@[simp] theorem updRegion_folds : (updRegion q r f d).folds = d.folds := rfl
@[simp] theorem updRegion_spd : (updRegion q r f d).spd = d.spd := rfl
@[simp] theorem updRegion_sec : (updRegion q r f d).sec = d.sec := rfl
@[simp] theorem updRegion_clk : (updRegion q r f d).clk = d.clk := rfl
@[simp] theorem updRegion_pow : (updRegion q r f d).pow = d.pow := rfl
@[simp] theorem updRegion_tel : (updRegion q r f d).tel = d.tel := rfl
@[simp] theorem updRegion_dma : (updRegion q r f d).dma = d.dma := rfl
@[simp] theorem updRegion_tx : (updRegion q r f d).tx = d.tx := rfl
@[simp] theorem updRegion_peer : (updRegion q r f d).peer = d.peer := rfl
@[simp] theorem updRegion_shp : (updRegion q r f d).shp = d.shp := rfl
@[simp] theorem updRegion_memsys : (updRegion q r f d).memsys = d.memsys := rfl
@[simp] theorem updRegion_rx : (updRegion q r f d).rx = d.rx := rfl
@[simp] theorem updRegion_isp : (updRegion q r f d).isp = d.isp := rfl
@[simp] theorem updRegion_eng : (updRegion q r f d).eng = d.eng := rfl
@[simp] theorem updRegion_vis : (updRegion q r f d).vis = d.vis := rfl
@[simp] theorem updRegion_me : (updRegion q r f d).me = d.me := rfl
@[simp] theorem updRegion_cores : (updRegion q r f d).cores = d.cores := rfl
@[simp] theorem updRegion_threads : (updRegion q r f d).threads = d.threads := rfl
@[simp] theorem updRegion_pmu : (updRegion q r f d).pmu = d.pmu := rfl
@[simp] theorem updRegion_latch : (updRegion q r f d).latch = d.latch := rfl
@[simp] theorem updRegion_rr : (updRegion q r f d).rr = d.rr := rfl
@[simp] theorem updRegion_outcomes : (updRegion q r f d).outcomes = d.outcomes := rfl
end

section
variable (q : Nat) (i : Nat) (f : FlockSt → FlockSt) (d : Dev)
@[simp] theorem updFlock_dt : (updFlock q i f d).dt = d.dt := rfl
@[simp] theorem updFlock_freeCount : (updFlock q i f d).freeCount = d.freeCount := rfl
@[simp] theorem updFlock_wakeAt : (updFlock q i f d).wakeAt = d.wakeAt := rfl
@[simp] theorem updFlock_serial : (updFlock q i f d).serial = d.serial := rfl
@[simp] theorem updFlock_regs : (updFlock q i f d).regs = d.regs := rfl
@[simp] theorem updFlock_cnts : (updFlock q i f d).cnts = d.cnts := rfl
@[simp] theorem updFlock_mem : (updFlock q i f d).mem = d.mem := rfl
@[simp] theorem updFlock_fab : (updFlock q i f d).fab = d.fab := rfl
@[simp] theorem updFlock_log : (updFlock q i f d).log = d.log := rfl
@[simp] theorem updFlock_i3c : (updFlock q i f d).i3c = d.i3c := rfl
@[simp] theorem updFlock_cfg : (updFlock q i f d).cfg = d.cfg := rfl
@[simp] theorem updFlock_ctxs : (updFlock q i f d).ctxs = d.ctxs := rfl
@[simp] theorem updFlock_drv : (updFlock q i f d).drv = d.drv := rfl
@[simp] theorem updFlock_prog : (updFlock q i f d).prog = d.prog := rfl
@[simp] theorem updFlock_epochs : (updFlock q i f d).epochs = d.epochs := rfl
@[simp] theorem updFlock_lastVals : (updFlock q i f d).lastVals = d.lastVals := rfl
@[simp] theorem updFlock_flowDone : (updFlock q i f d).flowDone = d.flowDone := rfl
@[simp] theorem updFlock_regions : (updFlock q i f d).regions = d.regions := rfl
@[simp] theorem updFlock_audit : (updFlock q i f d).audit = d.audit := rfl
@[simp] theorem updFlock_folds : (updFlock q i f d).folds = d.folds := rfl
@[simp] theorem updFlock_spd : (updFlock q i f d).spd = d.spd := rfl
@[simp] theorem updFlock_sec : (updFlock q i f d).sec = d.sec := rfl
@[simp] theorem updFlock_clk : (updFlock q i f d).clk = d.clk := rfl
@[simp] theorem updFlock_pow : (updFlock q i f d).pow = d.pow := rfl
@[simp] theorem updFlock_tel : (updFlock q i f d).tel = d.tel := rfl
@[simp] theorem updFlock_dma : (updFlock q i f d).dma = d.dma := rfl
@[simp] theorem updFlock_tx : (updFlock q i f d).tx = d.tx := rfl
@[simp] theorem updFlock_peer : (updFlock q i f d).peer = d.peer := rfl
@[simp] theorem updFlock_shp : (updFlock q i f d).shp = d.shp := rfl
@[simp] theorem updFlock_memsys : (updFlock q i f d).memsys = d.memsys := rfl
@[simp] theorem updFlock_rx : (updFlock q i f d).rx = d.rx := rfl
@[simp] theorem updFlock_isp : (updFlock q i f d).isp = d.isp := rfl
@[simp] theorem updFlock_eng : (updFlock q i f d).eng = d.eng := rfl
@[simp] theorem updFlock_vis : (updFlock q i f d).vis = d.vis := rfl
@[simp] theorem updFlock_me : (updFlock q i f d).me = d.me := rfl
@[simp] theorem updFlock_cores : (updFlock q i f d).cores = d.cores := rfl
@[simp] theorem updFlock_threads : (updFlock q i f d).threads = d.threads := rfl
@[simp] theorem updFlock_pmu : (updFlock q i f d).pmu = d.pmu := rfl
@[simp] theorem updFlock_latch : (updFlock q i f d).latch = d.latch := rfl
@[simp] theorem updFlock_rr : (updFlock q i f d).rr = d.rr := rfl
@[simp] theorem updFlock_outcomes : (updFlock q i f d).outcomes = d.outcomes := rfl
end

section
variable (q : Nat) (i : Nat) (f : FoldSt → FoldSt) (d : Dev)
@[simp] theorem updFold_dt : (updFold q i f d).dt = d.dt := rfl
@[simp] theorem updFold_freeCount : (updFold q i f d).freeCount = d.freeCount := rfl
@[simp] theorem updFold_wakeAt : (updFold q i f d).wakeAt = d.wakeAt := rfl
@[simp] theorem updFold_serial : (updFold q i f d).serial = d.serial := rfl
@[simp] theorem updFold_regs : (updFold q i f d).regs = d.regs := rfl
@[simp] theorem updFold_cnts : (updFold q i f d).cnts = d.cnts := rfl
@[simp] theorem updFold_mem : (updFold q i f d).mem = d.mem := rfl
@[simp] theorem updFold_fab : (updFold q i f d).fab = d.fab := rfl
@[simp] theorem updFold_log : (updFold q i f d).log = d.log := rfl
@[simp] theorem updFold_i3c : (updFold q i f d).i3c = d.i3c := rfl
@[simp] theorem updFold_cfg : (updFold q i f d).cfg = d.cfg := rfl
@[simp] theorem updFold_ctxs : (updFold q i f d).ctxs = d.ctxs := rfl
@[simp] theorem updFold_drv : (updFold q i f d).drv = d.drv := rfl
@[simp] theorem updFold_prog : (updFold q i f d).prog = d.prog := rfl
@[simp] theorem updFold_epochs : (updFold q i f d).epochs = d.epochs := rfl
@[simp] theorem updFold_lastVals : (updFold q i f d).lastVals = d.lastVals := rfl
@[simp] theorem updFold_flowDone : (updFold q i f d).flowDone = d.flowDone := rfl
@[simp] theorem updFold_regions : (updFold q i f d).regions = d.regions := rfl
@[simp] theorem updFold_audit : (updFold q i f d).audit = d.audit := rfl
@[simp] theorem updFold_flocks : (updFold q i f d).flocks = d.flocks := rfl
@[simp] theorem updFold_spd : (updFold q i f d).spd = d.spd := rfl
@[simp] theorem updFold_sec : (updFold q i f d).sec = d.sec := rfl
@[simp] theorem updFold_clk : (updFold q i f d).clk = d.clk := rfl
@[simp] theorem updFold_pow : (updFold q i f d).pow = d.pow := rfl
@[simp] theorem updFold_tel : (updFold q i f d).tel = d.tel := rfl
@[simp] theorem updFold_dma : (updFold q i f d).dma = d.dma := rfl
@[simp] theorem updFold_tx : (updFold q i f d).tx = d.tx := rfl
@[simp] theorem updFold_peer : (updFold q i f d).peer = d.peer := rfl
@[simp] theorem updFold_shp : (updFold q i f d).shp = d.shp := rfl
@[simp] theorem updFold_memsys : (updFold q i f d).memsys = d.memsys := rfl
@[simp] theorem updFold_rx : (updFold q i f d).rx = d.rx := rfl
@[simp] theorem updFold_isp : (updFold q i f d).isp = d.isp := rfl
@[simp] theorem updFold_eng : (updFold q i f d).eng = d.eng := rfl
@[simp] theorem updFold_vis : (updFold q i f d).vis = d.vis := rfl
@[simp] theorem updFold_me : (updFold q i f d).me = d.me := rfl
@[simp] theorem updFold_cores : (updFold q i f d).cores = d.cores := rfl
@[simp] theorem updFold_threads : (updFold q i f d).threads = d.threads := rfl
@[simp] theorem updFold_pmu : (updFold q i f d).pmu = d.pmu := rfl
@[simp] theorem updFold_latch : (updFold q i f d).latch = d.latch := rfl
@[simp] theorem updFold_rr : (updFold q i f d).rr = d.rr := rfl
@[simp] theorem updFold_outcomes : (updFold q i f d).outcomes = d.outcomes := rfl
end

section
variable (q : Nat) (f : SpdSt → SpdSt) (d : Dev)
@[simp] theorem updSpd_dt : (updSpd q f d).dt = d.dt := rfl
@[simp] theorem updSpd_freeCount : (updSpd q f d).freeCount = d.freeCount := rfl
@[simp] theorem updSpd_wakeAt : (updSpd q f d).wakeAt = d.wakeAt := rfl
@[simp] theorem updSpd_serial : (updSpd q f d).serial = d.serial := rfl
@[simp] theorem updSpd_regs : (updSpd q f d).regs = d.regs := rfl
@[simp] theorem updSpd_cnts : (updSpd q f d).cnts = d.cnts := rfl
@[simp] theorem updSpd_mem : (updSpd q f d).mem = d.mem := rfl
@[simp] theorem updSpd_fab : (updSpd q f d).fab = d.fab := rfl
@[simp] theorem updSpd_log : (updSpd q f d).log = d.log := rfl
@[simp] theorem updSpd_i3c : (updSpd q f d).i3c = d.i3c := rfl
@[simp] theorem updSpd_cfg : (updSpd q f d).cfg = d.cfg := rfl
@[simp] theorem updSpd_ctxs : (updSpd q f d).ctxs = d.ctxs := rfl
@[simp] theorem updSpd_drv : (updSpd q f d).drv = d.drv := rfl
@[simp] theorem updSpd_prog : (updSpd q f d).prog = d.prog := rfl
@[simp] theorem updSpd_epochs : (updSpd q f d).epochs = d.epochs := rfl
@[simp] theorem updSpd_lastVals : (updSpd q f d).lastVals = d.lastVals := rfl
@[simp] theorem updSpd_flowDone : (updSpd q f d).flowDone = d.flowDone := rfl
@[simp] theorem updSpd_regions : (updSpd q f d).regions = d.regions := rfl
@[simp] theorem updSpd_audit : (updSpd q f d).audit = d.audit := rfl
@[simp] theorem updSpd_flocks : (updSpd q f d).flocks = d.flocks := rfl
@[simp] theorem updSpd_folds : (updSpd q f d).folds = d.folds := rfl
@[simp] theorem updSpd_sec : (updSpd q f d).sec = d.sec := rfl
@[simp] theorem updSpd_clk : (updSpd q f d).clk = d.clk := rfl
@[simp] theorem updSpd_pow : (updSpd q f d).pow = d.pow := rfl
@[simp] theorem updSpd_tel : (updSpd q f d).tel = d.tel := rfl
@[simp] theorem updSpd_dma : (updSpd q f d).dma = d.dma := rfl
@[simp] theorem updSpd_tx : (updSpd q f d).tx = d.tx := rfl
@[simp] theorem updSpd_peer : (updSpd q f d).peer = d.peer := rfl
@[simp] theorem updSpd_shp : (updSpd q f d).shp = d.shp := rfl
@[simp] theorem updSpd_memsys : (updSpd q f d).memsys = d.memsys := rfl
@[simp] theorem updSpd_rx : (updSpd q f d).rx = d.rx := rfl
@[simp] theorem updSpd_isp : (updSpd q f d).isp = d.isp := rfl
@[simp] theorem updSpd_eng : (updSpd q f d).eng = d.eng := rfl
@[simp] theorem updSpd_vis : (updSpd q f d).vis = d.vis := rfl
@[simp] theorem updSpd_me : (updSpd q f d).me = d.me := rfl
@[simp] theorem updSpd_cores : (updSpd q f d).cores = d.cores := rfl
@[simp] theorem updSpd_threads : (updSpd q f d).threads = d.threads := rfl
@[simp] theorem updSpd_pmu : (updSpd q f d).pmu = d.pmu := rfl
@[simp] theorem updSpd_latch : (updSpd q f d).latch = d.latch := rfl
@[simp] theorem updSpd_rr : (updSpd q f d).rr = d.rr := rfl
@[simp] theorem updSpd_outcomes : (updSpd q f d).outcomes = d.outcomes := rfl
end

section
variable (k : Nat) (f : DmaCh → DmaCh) (d : Dev)
@[simp] theorem updCh_dt : (updCh k f d).dt = d.dt := rfl
@[simp] theorem updCh_freeCount : (updCh k f d).freeCount = d.freeCount := rfl
@[simp] theorem updCh_wakeAt : (updCh k f d).wakeAt = d.wakeAt := rfl
@[simp] theorem updCh_serial : (updCh k f d).serial = d.serial := rfl
@[simp] theorem updCh_regs : (updCh k f d).regs = d.regs := rfl
@[simp] theorem updCh_cnts : (updCh k f d).cnts = d.cnts := rfl
@[simp] theorem updCh_mem : (updCh k f d).mem = d.mem := rfl
@[simp] theorem updCh_fab : (updCh k f d).fab = d.fab := rfl
@[simp] theorem updCh_log : (updCh k f d).log = d.log := rfl
@[simp] theorem updCh_i3c : (updCh k f d).i3c = d.i3c := rfl
@[simp] theorem updCh_cfg : (updCh k f d).cfg = d.cfg := rfl
@[simp] theorem updCh_ctxs : (updCh k f d).ctxs = d.ctxs := rfl
@[simp] theorem updCh_drv : (updCh k f d).drv = d.drv := rfl
@[simp] theorem updCh_prog : (updCh k f d).prog = d.prog := rfl
@[simp] theorem updCh_epochs : (updCh k f d).epochs = d.epochs := rfl
@[simp] theorem updCh_lastVals : (updCh k f d).lastVals = d.lastVals := rfl
@[simp] theorem updCh_flowDone : (updCh k f d).flowDone = d.flowDone := rfl
@[simp] theorem updCh_regions : (updCh k f d).regions = d.regions := rfl
@[simp] theorem updCh_audit : (updCh k f d).audit = d.audit := rfl
@[simp] theorem updCh_flocks : (updCh k f d).flocks = d.flocks := rfl
@[simp] theorem updCh_folds : (updCh k f d).folds = d.folds := rfl
@[simp] theorem updCh_spd : (updCh k f d).spd = d.spd := rfl
@[simp] theorem updCh_sec : (updCh k f d).sec = d.sec := rfl
@[simp] theorem updCh_clk : (updCh k f d).clk = d.clk := rfl
@[simp] theorem updCh_pow : (updCh k f d).pow = d.pow := rfl
@[simp] theorem updCh_tel : (updCh k f d).tel = d.tel := rfl
@[simp] theorem updCh_tx : (updCh k f d).tx = d.tx := rfl
@[simp] theorem updCh_peer : (updCh k f d).peer = d.peer := rfl
@[simp] theorem updCh_shp : (updCh k f d).shp = d.shp := rfl
@[simp] theorem updCh_memsys : (updCh k f d).memsys = d.memsys := rfl
@[simp] theorem updCh_rx : (updCh k f d).rx = d.rx := rfl
@[simp] theorem updCh_isp : (updCh k f d).isp = d.isp := rfl
@[simp] theorem updCh_eng : (updCh k f d).eng = d.eng := rfl
@[simp] theorem updCh_vis : (updCh k f d).vis = d.vis := rfl
@[simp] theorem updCh_me : (updCh k f d).me = d.me := rfl
@[simp] theorem updCh_cores : (updCh k f d).cores = d.cores := rfl
@[simp] theorem updCh_threads : (updCh k f d).threads = d.threads := rfl
@[simp] theorem updCh_pmu : (updCh k f d).pmu = d.pmu := rfl
@[simp] theorem updCh_latch : (updCh k f d).latch = d.latch := rfl
@[simp] theorem updCh_rr : (updCh k f d).rr = d.rr := rfl
@[simp] theorem updCh_outcomes : (updCh k f d).outcomes = d.outcomes := rfl
end

section
variable (p : Nat) (f : TxPort → TxPort) (d : Dev)
@[simp] theorem updTx_dt : (updTx p f d).dt = d.dt := rfl
@[simp] theorem updTx_freeCount : (updTx p f d).freeCount = d.freeCount := rfl
@[simp] theorem updTx_wakeAt : (updTx p f d).wakeAt = d.wakeAt := rfl
@[simp] theorem updTx_serial : (updTx p f d).serial = d.serial := rfl
@[simp] theorem updTx_regs : (updTx p f d).regs = d.regs := rfl
@[simp] theorem updTx_cnts : (updTx p f d).cnts = d.cnts := rfl
@[simp] theorem updTx_mem : (updTx p f d).mem = d.mem := rfl
@[simp] theorem updTx_fab : (updTx p f d).fab = d.fab := rfl
@[simp] theorem updTx_log : (updTx p f d).log = d.log := rfl
@[simp] theorem updTx_i3c : (updTx p f d).i3c = d.i3c := rfl
@[simp] theorem updTx_cfg : (updTx p f d).cfg = d.cfg := rfl
@[simp] theorem updTx_ctxs : (updTx p f d).ctxs = d.ctxs := rfl
@[simp] theorem updTx_drv : (updTx p f d).drv = d.drv := rfl
@[simp] theorem updTx_prog : (updTx p f d).prog = d.prog := rfl
@[simp] theorem updTx_epochs : (updTx p f d).epochs = d.epochs := rfl
@[simp] theorem updTx_lastVals : (updTx p f d).lastVals = d.lastVals := rfl
@[simp] theorem updTx_flowDone : (updTx p f d).flowDone = d.flowDone := rfl
@[simp] theorem updTx_regions : (updTx p f d).regions = d.regions := rfl
@[simp] theorem updTx_audit : (updTx p f d).audit = d.audit := rfl
@[simp] theorem updTx_flocks : (updTx p f d).flocks = d.flocks := rfl
@[simp] theorem updTx_folds : (updTx p f d).folds = d.folds := rfl
@[simp] theorem updTx_spd : (updTx p f d).spd = d.spd := rfl
@[simp] theorem updTx_sec : (updTx p f d).sec = d.sec := rfl
@[simp] theorem updTx_clk : (updTx p f d).clk = d.clk := rfl
@[simp] theorem updTx_pow : (updTx p f d).pow = d.pow := rfl
@[simp] theorem updTx_tel : (updTx p f d).tel = d.tel := rfl
@[simp] theorem updTx_dma : (updTx p f d).dma = d.dma := rfl
@[simp] theorem updTx_peer : (updTx p f d).peer = d.peer := rfl
@[simp] theorem updTx_shp : (updTx p f d).shp = d.shp := rfl
@[simp] theorem updTx_memsys : (updTx p f d).memsys = d.memsys := rfl
@[simp] theorem updTx_rx : (updTx p f d).rx = d.rx := rfl
@[simp] theorem updTx_isp : (updTx p f d).isp = d.isp := rfl
@[simp] theorem updTx_eng : (updTx p f d).eng = d.eng := rfl
@[simp] theorem updTx_vis : (updTx p f d).vis = d.vis := rfl
@[simp] theorem updTx_me : (updTx p f d).me = d.me := rfl
@[simp] theorem updTx_cores : (updTx p f d).cores = d.cores := rfl
@[simp] theorem updTx_threads : (updTx p f d).threads = d.threads := rfl
@[simp] theorem updTx_pmu : (updTx p f d).pmu = d.pmu := rfl
@[simp] theorem updTx_latch : (updTx p f d).latch = d.latch := rfl
@[simp] theorem updTx_rr : (updTx p f d).rr = d.rr := rfl
@[simp] theorem updTx_outcomes : (updTx p f d).outcomes = d.outcomes := rfl
end

section
variable (q : Nat) (f : ShpSt → ShpSt) (d : Dev)
@[simp] theorem updShp_dt : (updShp q f d).dt = d.dt := rfl
@[simp] theorem updShp_freeCount : (updShp q f d).freeCount = d.freeCount := rfl
@[simp] theorem updShp_wakeAt : (updShp q f d).wakeAt = d.wakeAt := rfl
@[simp] theorem updShp_serial : (updShp q f d).serial = d.serial := rfl
@[simp] theorem updShp_regs : (updShp q f d).regs = d.regs := rfl
@[simp] theorem updShp_cnts : (updShp q f d).cnts = d.cnts := rfl
@[simp] theorem updShp_mem : (updShp q f d).mem = d.mem := rfl
@[simp] theorem updShp_fab : (updShp q f d).fab = d.fab := rfl
@[simp] theorem updShp_log : (updShp q f d).log = d.log := rfl
@[simp] theorem updShp_i3c : (updShp q f d).i3c = d.i3c := rfl
@[simp] theorem updShp_cfg : (updShp q f d).cfg = d.cfg := rfl
@[simp] theorem updShp_ctxs : (updShp q f d).ctxs = d.ctxs := rfl
@[simp] theorem updShp_drv : (updShp q f d).drv = d.drv := rfl
@[simp] theorem updShp_prog : (updShp q f d).prog = d.prog := rfl
@[simp] theorem updShp_epochs : (updShp q f d).epochs = d.epochs := rfl
@[simp] theorem updShp_lastVals : (updShp q f d).lastVals = d.lastVals := rfl
@[simp] theorem updShp_flowDone : (updShp q f d).flowDone = d.flowDone := rfl
@[simp] theorem updShp_regions : (updShp q f d).regions = d.regions := rfl
@[simp] theorem updShp_audit : (updShp q f d).audit = d.audit := rfl
@[simp] theorem updShp_flocks : (updShp q f d).flocks = d.flocks := rfl
@[simp] theorem updShp_folds : (updShp q f d).folds = d.folds := rfl
@[simp] theorem updShp_spd : (updShp q f d).spd = d.spd := rfl
@[simp] theorem updShp_sec : (updShp q f d).sec = d.sec := rfl
@[simp] theorem updShp_clk : (updShp q f d).clk = d.clk := rfl
@[simp] theorem updShp_pow : (updShp q f d).pow = d.pow := rfl
@[simp] theorem updShp_tel : (updShp q f d).tel = d.tel := rfl
@[simp] theorem updShp_dma : (updShp q f d).dma = d.dma := rfl
@[simp] theorem updShp_tx : (updShp q f d).tx = d.tx := rfl
@[simp] theorem updShp_peer : (updShp q f d).peer = d.peer := rfl
@[simp] theorem updShp_memsys : (updShp q f d).memsys = d.memsys := rfl
@[simp] theorem updShp_rx : (updShp q f d).rx = d.rx := rfl
@[simp] theorem updShp_isp : (updShp q f d).isp = d.isp := rfl
@[simp] theorem updShp_eng : (updShp q f d).eng = d.eng := rfl
@[simp] theorem updShp_vis : (updShp q f d).vis = d.vis := rfl
@[simp] theorem updShp_me : (updShp q f d).me = d.me := rfl
@[simp] theorem updShp_cores : (updShp q f d).cores = d.cores := rfl
@[simp] theorem updShp_threads : (updShp q f d).threads = d.threads := rfl
@[simp] theorem updShp_pmu : (updShp q f d).pmu = d.pmu := rfl
@[simp] theorem updShp_latch : (updShp q f d).latch = d.latch := rfl
@[simp] theorem updShp_rr : (updShp q f d).rr = d.rr := rfl
@[simp] theorem updShp_outcomes : (updShp q f d).outcomes = d.outcomes := rfl
end

section
variable (n : Nat) (f : Link → Link) (d : Dev)
@[simp] theorem updLink_dt : (updLink n f d).dt = d.dt := rfl
@[simp] theorem updLink_freeCount : (updLink n f d).freeCount = d.freeCount := rfl
@[simp] theorem updLink_wakeAt : (updLink n f d).wakeAt = d.wakeAt := rfl
@[simp] theorem updLink_serial : (updLink n f d).serial = d.serial := rfl
@[simp] theorem updLink_regs : (updLink n f d).regs = d.regs := rfl
@[simp] theorem updLink_cnts : (updLink n f d).cnts = d.cnts := rfl
@[simp] theorem updLink_mem : (updLink n f d).mem = d.mem := rfl
@[simp] theorem updLink_fab : (updLink n f d).fab = d.fab := rfl
@[simp] theorem updLink_log : (updLink n f d).log = d.log := rfl
@[simp] theorem updLink_i3c : (updLink n f d).i3c = d.i3c := rfl
@[simp] theorem updLink_cfg : (updLink n f d).cfg = d.cfg := rfl
@[simp] theorem updLink_ctxs : (updLink n f d).ctxs = d.ctxs := rfl
@[simp] theorem updLink_drv : (updLink n f d).drv = d.drv := rfl
@[simp] theorem updLink_prog : (updLink n f d).prog = d.prog := rfl
@[simp] theorem updLink_epochs : (updLink n f d).epochs = d.epochs := rfl
@[simp] theorem updLink_lastVals : (updLink n f d).lastVals = d.lastVals := rfl
@[simp] theorem updLink_flowDone : (updLink n f d).flowDone = d.flowDone := rfl
@[simp] theorem updLink_regions : (updLink n f d).regions = d.regions := rfl
@[simp] theorem updLink_audit : (updLink n f d).audit = d.audit := rfl
@[simp] theorem updLink_flocks : (updLink n f d).flocks = d.flocks := rfl
@[simp] theorem updLink_folds : (updLink n f d).folds = d.folds := rfl
@[simp] theorem updLink_spd : (updLink n f d).spd = d.spd := rfl
@[simp] theorem updLink_sec : (updLink n f d).sec = d.sec := rfl
@[simp] theorem updLink_clk : (updLink n f d).clk = d.clk := rfl
@[simp] theorem updLink_pow : (updLink n f d).pow = d.pow := rfl
@[simp] theorem updLink_tel : (updLink n f d).tel = d.tel := rfl
@[simp] theorem updLink_dma : (updLink n f d).dma = d.dma := rfl
@[simp] theorem updLink_tx : (updLink n f d).tx = d.tx := rfl
@[simp] theorem updLink_shp : (updLink n f d).shp = d.shp := rfl
@[simp] theorem updLink_memsys : (updLink n f d).memsys = d.memsys := rfl
@[simp] theorem updLink_rx : (updLink n f d).rx = d.rx := rfl
@[simp] theorem updLink_isp : (updLink n f d).isp = d.isp := rfl
@[simp] theorem updLink_eng : (updLink n f d).eng = d.eng := rfl
@[simp] theorem updLink_vis : (updLink n f d).vis = d.vis := rfl
@[simp] theorem updLink_me : (updLink n f d).me = d.me := rfl
@[simp] theorem updLink_cores : (updLink n f d).cores = d.cores := rfl
@[simp] theorem updLink_threads : (updLink n f d).threads = d.threads := rfl
@[simp] theorem updLink_pmu : (updLink n f d).pmu = d.pmu := rfl
@[simp] theorem updLink_latch : (updLink n f d).latch = d.latch := rfl
@[simp] theorem updLink_rr : (updLink n f d).rr = d.rr := rfl
@[simp] theorem updLink_outcomes : (updLink n f d).outcomes = d.outcomes := rfl
end

section
variable (w : Nat) (f : WindowSt → WindowSt) (d : Dev)
@[simp] theorem updWin_dt : (updWin w f d).dt = d.dt := rfl
@[simp] theorem updWin_freeCount : (updWin w f d).freeCount = d.freeCount := rfl
@[simp] theorem updWin_wakeAt : (updWin w f d).wakeAt = d.wakeAt := rfl
@[simp] theorem updWin_serial : (updWin w f d).serial = d.serial := rfl
@[simp] theorem updWin_regs : (updWin w f d).regs = d.regs := rfl
@[simp] theorem updWin_cnts : (updWin w f d).cnts = d.cnts := rfl
@[simp] theorem updWin_mem : (updWin w f d).mem = d.mem := rfl
@[simp] theorem updWin_fab : (updWin w f d).fab = d.fab := rfl
@[simp] theorem updWin_log : (updWin w f d).log = d.log := rfl
@[simp] theorem updWin_i3c : (updWin w f d).i3c = d.i3c := rfl
@[simp] theorem updWin_cfg : (updWin w f d).cfg = d.cfg := rfl
@[simp] theorem updWin_ctxs : (updWin w f d).ctxs = d.ctxs := rfl
@[simp] theorem updWin_drv : (updWin w f d).drv = d.drv := rfl
@[simp] theorem updWin_prog : (updWin w f d).prog = d.prog := rfl
@[simp] theorem updWin_epochs : (updWin w f d).epochs = d.epochs := rfl
@[simp] theorem updWin_lastVals : (updWin w f d).lastVals = d.lastVals := rfl
@[simp] theorem updWin_flowDone : (updWin w f d).flowDone = d.flowDone := rfl
@[simp] theorem updWin_regions : (updWin w f d).regions = d.regions := rfl
@[simp] theorem updWin_audit : (updWin w f d).audit = d.audit := rfl
@[simp] theorem updWin_flocks : (updWin w f d).flocks = d.flocks := rfl
@[simp] theorem updWin_folds : (updWin w f d).folds = d.folds := rfl
@[simp] theorem updWin_spd : (updWin w f d).spd = d.spd := rfl
@[simp] theorem updWin_sec : (updWin w f d).sec = d.sec := rfl
@[simp] theorem updWin_clk : (updWin w f d).clk = d.clk := rfl
@[simp] theorem updWin_pow : (updWin w f d).pow = d.pow := rfl
@[simp] theorem updWin_tel : (updWin w f d).tel = d.tel := rfl
@[simp] theorem updWin_dma : (updWin w f d).dma = d.dma := rfl
@[simp] theorem updWin_tx : (updWin w f d).tx = d.tx := rfl
@[simp] theorem updWin_shp : (updWin w f d).shp = d.shp := rfl
@[simp] theorem updWin_memsys : (updWin w f d).memsys = d.memsys := rfl
@[simp] theorem updWin_rx : (updWin w f d).rx = d.rx := rfl
@[simp] theorem updWin_isp : (updWin w f d).isp = d.isp := rfl
@[simp] theorem updWin_eng : (updWin w f d).eng = d.eng := rfl
@[simp] theorem updWin_vis : (updWin w f d).vis = d.vis := rfl
@[simp] theorem updWin_me : (updWin w f d).me = d.me := rfl
@[simp] theorem updWin_cores : (updWin w f d).cores = d.cores := rfl
@[simp] theorem updWin_threads : (updWin w f d).threads = d.threads := rfl
@[simp] theorem updWin_pmu : (updWin w f d).pmu = d.pmu := rfl
@[simp] theorem updWin_latch : (updWin w f d).latch = d.latch := rfl
@[simp] theorem updWin_rr : (updWin w f d).rr = d.rr := rfl
@[simp] theorem updWin_outcomes : (updWin w f d).outcomes = d.outcomes := rfl
end

section
variable (n : Nat) (f : Session → Session) (d : Dev)
@[simp] theorem updSess_dt : (updSess n f d).dt = d.dt := rfl
@[simp] theorem updSess_freeCount : (updSess n f d).freeCount = d.freeCount := rfl
@[simp] theorem updSess_wakeAt : (updSess n f d).wakeAt = d.wakeAt := rfl
@[simp] theorem updSess_serial : (updSess n f d).serial = d.serial := rfl
@[simp] theorem updSess_regs : (updSess n f d).regs = d.regs := rfl
@[simp] theorem updSess_cnts : (updSess n f d).cnts = d.cnts := rfl
@[simp] theorem updSess_mem : (updSess n f d).mem = d.mem := rfl
@[simp] theorem updSess_fab : (updSess n f d).fab = d.fab := rfl
@[simp] theorem updSess_log : (updSess n f d).log = d.log := rfl
@[simp] theorem updSess_cfg : (updSess n f d).cfg = d.cfg := rfl
@[simp] theorem updSess_ctxs : (updSess n f d).ctxs = d.ctxs := rfl
@[simp] theorem updSess_drv : (updSess n f d).drv = d.drv := rfl
@[simp] theorem updSess_prog : (updSess n f d).prog = d.prog := rfl
@[simp] theorem updSess_epochs : (updSess n f d).epochs = d.epochs := rfl
@[simp] theorem updSess_lastVals : (updSess n f d).lastVals = d.lastVals := rfl
@[simp] theorem updSess_flowDone : (updSess n f d).flowDone = d.flowDone := rfl
@[simp] theorem updSess_regions : (updSess n f d).regions = d.regions := rfl
@[simp] theorem updSess_audit : (updSess n f d).audit = d.audit := rfl
@[simp] theorem updSess_flocks : (updSess n f d).flocks = d.flocks := rfl
@[simp] theorem updSess_folds : (updSess n f d).folds = d.folds := rfl
@[simp] theorem updSess_spd : (updSess n f d).spd = d.spd := rfl
@[simp] theorem updSess_sec : (updSess n f d).sec = d.sec := rfl
@[simp] theorem updSess_clk : (updSess n f d).clk = d.clk := rfl
@[simp] theorem updSess_pow : (updSess n f d).pow = d.pow := rfl
@[simp] theorem updSess_tel : (updSess n f d).tel = d.tel := rfl
@[simp] theorem updSess_dma : (updSess n f d).dma = d.dma := rfl
@[simp] theorem updSess_tx : (updSess n f d).tx = d.tx := rfl
@[simp] theorem updSess_peer : (updSess n f d).peer = d.peer := rfl
@[simp] theorem updSess_shp : (updSess n f d).shp = d.shp := rfl
@[simp] theorem updSess_memsys : (updSess n f d).memsys = d.memsys := rfl
@[simp] theorem updSess_rx : (updSess n f d).rx = d.rx := rfl
@[simp] theorem updSess_isp : (updSess n f d).isp = d.isp := rfl
@[simp] theorem updSess_eng : (updSess n f d).eng = d.eng := rfl
@[simp] theorem updSess_vis : (updSess n f d).vis = d.vis := rfl
@[simp] theorem updSess_me : (updSess n f d).me = d.me := rfl
@[simp] theorem updSess_cores : (updSess n f d).cores = d.cores := rfl
@[simp] theorem updSess_threads : (updSess n f d).threads = d.threads := rfl
@[simp] theorem updSess_pmu : (updSess n f d).pmu = d.pmu := rfl
@[simp] theorem updSess_latch : (updSess n f d).latch = d.latch := rfl
@[simp] theorem updSess_rr : (updSess n f d).rr = d.rr := rfl
@[simp] theorem updSess_outcomes : (updSess n f d).outcomes = d.outcomes := rfl
end

section
variable (p : Post) (d : Dev)
@[simp] theorem post_dt : (post p d).dt = d.dt := rfl
@[simp] theorem post_freeCount : (post p d).freeCount = d.freeCount := rfl
@[simp] theorem post_wakeAt : (post p d).wakeAt = d.wakeAt := rfl
@[simp] theorem post_serial : (post p d).serial = d.serial := rfl
@[simp] theorem post_regs : (post p d).regs = d.regs := rfl
@[simp] theorem post_cnts : (post p d).cnts = d.cnts := rfl
@[simp] theorem post_mem : (post p d).mem = d.mem := rfl
@[simp] theorem post_log : (post p d).log = d.log := rfl
@[simp] theorem post_i3c : (post p d).i3c = d.i3c := rfl
@[simp] theorem post_cfg : (post p d).cfg = d.cfg := rfl
@[simp] theorem post_ctxs : (post p d).ctxs = d.ctxs := rfl
@[simp] theorem post_drv : (post p d).drv = d.drv := rfl
@[simp] theorem post_prog : (post p d).prog = d.prog := rfl
@[simp] theorem post_epochs : (post p d).epochs = d.epochs := rfl
@[simp] theorem post_lastVals : (post p d).lastVals = d.lastVals := rfl
@[simp] theorem post_flowDone : (post p d).flowDone = d.flowDone := rfl
@[simp] theorem post_regions : (post p d).regions = d.regions := rfl
@[simp] theorem post_audit : (post p d).audit = d.audit := rfl
@[simp] theorem post_flocks : (post p d).flocks = d.flocks := rfl
@[simp] theorem post_folds : (post p d).folds = d.folds := rfl
@[simp] theorem post_spd : (post p d).spd = d.spd := rfl
@[simp] theorem post_sec : (post p d).sec = d.sec := rfl
@[simp] theorem post_clk : (post p d).clk = d.clk := rfl
@[simp] theorem post_pow : (post p d).pow = d.pow := rfl
@[simp] theorem post_tel : (post p d).tel = d.tel := rfl
@[simp] theorem post_dma : (post p d).dma = d.dma := rfl
@[simp] theorem post_tx : (post p d).tx = d.tx := rfl
@[simp] theorem post_peer : (post p d).peer = d.peer := rfl
@[simp] theorem post_shp : (post p d).shp = d.shp := rfl
@[simp] theorem post_memsys : (post p d).memsys = d.memsys := rfl
@[simp] theorem post_rx : (post p d).rx = d.rx := rfl
@[simp] theorem post_isp : (post p d).isp = d.isp := rfl
@[simp] theorem post_eng : (post p d).eng = d.eng := rfl
@[simp] theorem post_vis : (post p d).vis = d.vis := rfl
@[simp] theorem post_me : (post p d).me = d.me := rfl
@[simp] theorem post_cores : (post p d).cores = d.cores := rfl
@[simp] theorem post_threads : (post p d).threads = d.threads := rfl
@[simp] theorem post_pmu : (post p d).pmu = d.pmu := rfl
@[simp] theorem post_latch : (post p d).latch = d.latch := rfl
@[simp] theorem post_rr : (post p d).rr = d.rr := rfl
@[simp] theorem post_outcomes : (post p d).outcomes = d.outcomes := rfl
end

section
variable (r : TagReport) (d : Dev)
@[simp] theorem report_dt : (report r d).dt = d.dt := rfl
@[simp] theorem report_freeCount : (report r d).freeCount = d.freeCount := rfl
@[simp] theorem report_wakeAt : (report r d).wakeAt = d.wakeAt := rfl
@[simp] theorem report_serial : (report r d).serial = d.serial := rfl
@[simp] theorem report_regs : (report r d).regs = d.regs := rfl
@[simp] theorem report_cnts : (report r d).cnts = d.cnts := rfl
@[simp] theorem report_mem : (report r d).mem = d.mem := rfl
@[simp] theorem report_log : (report r d).log = d.log := rfl
@[simp] theorem report_i3c : (report r d).i3c = d.i3c := rfl
@[simp] theorem report_cfg : (report r d).cfg = d.cfg := rfl
@[simp] theorem report_ctxs : (report r d).ctxs = d.ctxs := rfl
@[simp] theorem report_drv : (report r d).drv = d.drv := rfl
@[simp] theorem report_prog : (report r d).prog = d.prog := rfl
@[simp] theorem report_epochs : (report r d).epochs = d.epochs := rfl
@[simp] theorem report_lastVals : (report r d).lastVals = d.lastVals := rfl
@[simp] theorem report_flowDone : (report r d).flowDone = d.flowDone := rfl
@[simp] theorem report_regions : (report r d).regions = d.regions := rfl
@[simp] theorem report_audit : (report r d).audit = d.audit := rfl
@[simp] theorem report_flocks : (report r d).flocks = d.flocks := rfl
@[simp] theorem report_folds : (report r d).folds = d.folds := rfl
@[simp] theorem report_spd : (report r d).spd = d.spd := rfl
@[simp] theorem report_sec : (report r d).sec = d.sec := rfl
@[simp] theorem report_clk : (report r d).clk = d.clk := rfl
@[simp] theorem report_pow : (report r d).pow = d.pow := rfl
@[simp] theorem report_tel : (report r d).tel = d.tel := rfl
@[simp] theorem report_dma : (report r d).dma = d.dma := rfl
@[simp] theorem report_tx : (report r d).tx = d.tx := rfl
@[simp] theorem report_peer : (report r d).peer = d.peer := rfl
@[simp] theorem report_shp : (report r d).shp = d.shp := rfl
@[simp] theorem report_memsys : (report r d).memsys = d.memsys := rfl
@[simp] theorem report_rx : (report r d).rx = d.rx := rfl
@[simp] theorem report_isp : (report r d).isp = d.isp := rfl
@[simp] theorem report_eng : (report r d).eng = d.eng := rfl
@[simp] theorem report_vis : (report r d).vis = d.vis := rfl
@[simp] theorem report_me : (report r d).me = d.me := rfl
@[simp] theorem report_cores : (report r d).cores = d.cores := rfl
@[simp] theorem report_threads : (report r d).threads = d.threads := rfl
@[simp] theorem report_pmu : (report r d).pmu = d.pmu := rfl
@[simp] theorem report_latch : (report r d).latch = d.latch := rfl
@[simp] theorem report_rr : (report r d).rr = d.rr := rfl
@[simp] theorem report_outcomes : (report r d).outcomes = d.outcomes := rfl
end

section
variable (m : StartMsg) (d : Dev)
@[simp] theorem sendStart_dt : (sendStart m d).dt = d.dt := rfl
@[simp] theorem sendStart_freeCount : (sendStart m d).freeCount = d.freeCount := rfl
@[simp] theorem sendStart_wakeAt : (sendStart m d).wakeAt = d.wakeAt := rfl
@[simp] theorem sendStart_serial : (sendStart m d).serial = d.serial := rfl
@[simp] theorem sendStart_regs : (sendStart m d).regs = d.regs := rfl
@[simp] theorem sendStart_cnts : (sendStart m d).cnts = d.cnts := rfl
@[simp] theorem sendStart_mem : (sendStart m d).mem = d.mem := rfl
@[simp] theorem sendStart_log : (sendStart m d).log = d.log := rfl
@[simp] theorem sendStart_i3c : (sendStart m d).i3c = d.i3c := rfl
@[simp] theorem sendStart_cfg : (sendStart m d).cfg = d.cfg := rfl
@[simp] theorem sendStart_ctxs : (sendStart m d).ctxs = d.ctxs := rfl
@[simp] theorem sendStart_drv : (sendStart m d).drv = d.drv := rfl
@[simp] theorem sendStart_prog : (sendStart m d).prog = d.prog := rfl
@[simp] theorem sendStart_epochs : (sendStart m d).epochs = d.epochs := rfl
@[simp] theorem sendStart_lastVals : (sendStart m d).lastVals = d.lastVals := rfl
@[simp] theorem sendStart_flowDone : (sendStart m d).flowDone = d.flowDone := rfl
@[simp] theorem sendStart_regions : (sendStart m d).regions = d.regions := rfl
@[simp] theorem sendStart_audit : (sendStart m d).audit = d.audit := rfl
@[simp] theorem sendStart_flocks : (sendStart m d).flocks = d.flocks := rfl
@[simp] theorem sendStart_folds : (sendStart m d).folds = d.folds := rfl
@[simp] theorem sendStart_spd : (sendStart m d).spd = d.spd := rfl
@[simp] theorem sendStart_sec : (sendStart m d).sec = d.sec := rfl
@[simp] theorem sendStart_clk : (sendStart m d).clk = d.clk := rfl
@[simp] theorem sendStart_pow : (sendStart m d).pow = d.pow := rfl
@[simp] theorem sendStart_tel : (sendStart m d).tel = d.tel := rfl
@[simp] theorem sendStart_dma : (sendStart m d).dma = d.dma := rfl
@[simp] theorem sendStart_tx : (sendStart m d).tx = d.tx := rfl
@[simp] theorem sendStart_peer : (sendStart m d).peer = d.peer := rfl
@[simp] theorem sendStart_shp : (sendStart m d).shp = d.shp := rfl
@[simp] theorem sendStart_memsys : (sendStart m d).memsys = d.memsys := rfl
@[simp] theorem sendStart_rx : (sendStart m d).rx = d.rx := rfl
@[simp] theorem sendStart_isp : (sendStart m d).isp = d.isp := rfl
@[simp] theorem sendStart_eng : (sendStart m d).eng = d.eng := rfl
@[simp] theorem sendStart_vis : (sendStart m d).vis = d.vis := rfl
@[simp] theorem sendStart_me : (sendStart m d).me = d.me := rfl
@[simp] theorem sendStart_cores : (sendStart m d).cores = d.cores := rfl
@[simp] theorem sendStart_threads : (sendStart m d).threads = d.threads := rfl
@[simp] theorem sendStart_pmu : (sendStart m d).pmu = d.pmu := rfl
@[simp] theorem sendStart_latch : (sendStart m d).latch = d.latch := rfl
@[simp] theorem sendStart_rr : (sendStart m d).rr = d.rr := rfl
@[simp] theorem sendStart_outcomes : (sendStart m d).outcomes = d.outcomes := rfl
end

section
variable (m : StopMsg) (d : Dev)
@[simp] theorem sendStop_dt : (sendStop m d).dt = d.dt := rfl
@[simp] theorem sendStop_freeCount : (sendStop m d).freeCount = d.freeCount := rfl
@[simp] theorem sendStop_wakeAt : (sendStop m d).wakeAt = d.wakeAt := rfl
@[simp] theorem sendStop_serial : (sendStop m d).serial = d.serial := rfl
@[simp] theorem sendStop_regs : (sendStop m d).regs = d.regs := rfl
@[simp] theorem sendStop_cnts : (sendStop m d).cnts = d.cnts := rfl
@[simp] theorem sendStop_mem : (sendStop m d).mem = d.mem := rfl
@[simp] theorem sendStop_log : (sendStop m d).log = d.log := rfl
@[simp] theorem sendStop_i3c : (sendStop m d).i3c = d.i3c := rfl
@[simp] theorem sendStop_cfg : (sendStop m d).cfg = d.cfg := rfl
@[simp] theorem sendStop_ctxs : (sendStop m d).ctxs = d.ctxs := rfl
@[simp] theorem sendStop_drv : (sendStop m d).drv = d.drv := rfl
@[simp] theorem sendStop_prog : (sendStop m d).prog = d.prog := rfl
@[simp] theorem sendStop_epochs : (sendStop m d).epochs = d.epochs := rfl
@[simp] theorem sendStop_lastVals : (sendStop m d).lastVals = d.lastVals := rfl
@[simp] theorem sendStop_flowDone : (sendStop m d).flowDone = d.flowDone := rfl
@[simp] theorem sendStop_regions : (sendStop m d).regions = d.regions := rfl
@[simp] theorem sendStop_audit : (sendStop m d).audit = d.audit := rfl
@[simp] theorem sendStop_flocks : (sendStop m d).flocks = d.flocks := rfl
@[simp] theorem sendStop_folds : (sendStop m d).folds = d.folds := rfl
@[simp] theorem sendStop_spd : (sendStop m d).spd = d.spd := rfl
@[simp] theorem sendStop_sec : (sendStop m d).sec = d.sec := rfl
@[simp] theorem sendStop_clk : (sendStop m d).clk = d.clk := rfl
@[simp] theorem sendStop_pow : (sendStop m d).pow = d.pow := rfl
@[simp] theorem sendStop_tel : (sendStop m d).tel = d.tel := rfl
@[simp] theorem sendStop_dma : (sendStop m d).dma = d.dma := rfl
@[simp] theorem sendStop_tx : (sendStop m d).tx = d.tx := rfl
@[simp] theorem sendStop_peer : (sendStop m d).peer = d.peer := rfl
@[simp] theorem sendStop_shp : (sendStop m d).shp = d.shp := rfl
@[simp] theorem sendStop_memsys : (sendStop m d).memsys = d.memsys := rfl
@[simp] theorem sendStop_rx : (sendStop m d).rx = d.rx := rfl
@[simp] theorem sendStop_isp : (sendStop m d).isp = d.isp := rfl
@[simp] theorem sendStop_eng : (sendStop m d).eng = d.eng := rfl
@[simp] theorem sendStop_vis : (sendStop m d).vis = d.vis := rfl
@[simp] theorem sendStop_me : (sendStop m d).me = d.me := rfl
@[simp] theorem sendStop_cores : (sendStop m d).cores = d.cores := rfl
@[simp] theorem sendStop_threads : (sendStop m d).threads = d.threads := rfl
@[simp] theorem sendStop_pmu : (sendStop m d).pmu = d.pmu := rfl
@[simp] theorem sendStop_latch : (sendStop m d).latch = d.latch := rfl
@[simp] theorem sendStop_rr : (sendStop m d).rr = d.rr := rfl
@[simp] theorem sendStop_outcomes : (sendStop m d).outcomes = d.outcomes := rfl
end

section
variable (m : GrantMsg) (d : Dev)
@[simp] theorem sendGrant_dt : (sendGrant m d).dt = d.dt := rfl
@[simp] theorem sendGrant_freeCount : (sendGrant m d).freeCount = d.freeCount := rfl
@[simp] theorem sendGrant_wakeAt : (sendGrant m d).wakeAt = d.wakeAt := rfl
@[simp] theorem sendGrant_serial : (sendGrant m d).serial = d.serial := rfl
@[simp] theorem sendGrant_regs : (sendGrant m d).regs = d.regs := rfl
@[simp] theorem sendGrant_cnts : (sendGrant m d).cnts = d.cnts := rfl
@[simp] theorem sendGrant_mem : (sendGrant m d).mem = d.mem := rfl
@[simp] theorem sendGrant_log : (sendGrant m d).log = d.log := rfl
@[simp] theorem sendGrant_i3c : (sendGrant m d).i3c = d.i3c := rfl
@[simp] theorem sendGrant_cfg : (sendGrant m d).cfg = d.cfg := rfl
@[simp] theorem sendGrant_ctxs : (sendGrant m d).ctxs = d.ctxs := rfl
@[simp] theorem sendGrant_drv : (sendGrant m d).drv = d.drv := rfl
@[simp] theorem sendGrant_prog : (sendGrant m d).prog = d.prog := rfl
@[simp] theorem sendGrant_epochs : (sendGrant m d).epochs = d.epochs := rfl
@[simp] theorem sendGrant_lastVals : (sendGrant m d).lastVals = d.lastVals := rfl
@[simp] theorem sendGrant_flowDone : (sendGrant m d).flowDone = d.flowDone := rfl
@[simp] theorem sendGrant_regions : (sendGrant m d).regions = d.regions := rfl
@[simp] theorem sendGrant_audit : (sendGrant m d).audit = d.audit := rfl
@[simp] theorem sendGrant_flocks : (sendGrant m d).flocks = d.flocks := rfl
@[simp] theorem sendGrant_folds : (sendGrant m d).folds = d.folds := rfl
@[simp] theorem sendGrant_spd : (sendGrant m d).spd = d.spd := rfl
@[simp] theorem sendGrant_sec : (sendGrant m d).sec = d.sec := rfl
@[simp] theorem sendGrant_clk : (sendGrant m d).clk = d.clk := rfl
@[simp] theorem sendGrant_pow : (sendGrant m d).pow = d.pow := rfl
@[simp] theorem sendGrant_tel : (sendGrant m d).tel = d.tel := rfl
@[simp] theorem sendGrant_dma : (sendGrant m d).dma = d.dma := rfl
@[simp] theorem sendGrant_tx : (sendGrant m d).tx = d.tx := rfl
@[simp] theorem sendGrant_peer : (sendGrant m d).peer = d.peer := rfl
@[simp] theorem sendGrant_shp : (sendGrant m d).shp = d.shp := rfl
@[simp] theorem sendGrant_memsys : (sendGrant m d).memsys = d.memsys := rfl
@[simp] theorem sendGrant_rx : (sendGrant m d).rx = d.rx := rfl
@[simp] theorem sendGrant_isp : (sendGrant m d).isp = d.isp := rfl
@[simp] theorem sendGrant_eng : (sendGrant m d).eng = d.eng := rfl
@[simp] theorem sendGrant_vis : (sendGrant m d).vis = d.vis := rfl
@[simp] theorem sendGrant_me : (sendGrant m d).me = d.me := rfl
@[simp] theorem sendGrant_cores : (sendGrant m d).cores = d.cores := rfl
@[simp] theorem sendGrant_threads : (sendGrant m d).threads = d.threads := rfl
@[simp] theorem sendGrant_pmu : (sendGrant m d).pmu = d.pmu := rfl
@[simp] theorem sendGrant_latch : (sendGrant m d).latch = d.latch := rfl
@[simp] theorem sendGrant_rr : (sendGrant m d).rr = d.rr := rfl
@[simp] theorem sendGrant_outcomes : (sendGrant m d).outcomes = d.outcomes := rfl
end

section
variable (m : TruncMsg) (d : Dev)
@[simp] theorem sendTrunc_dt : (sendTrunc m d).dt = d.dt := rfl
@[simp] theorem sendTrunc_freeCount : (sendTrunc m d).freeCount = d.freeCount := rfl
@[simp] theorem sendTrunc_wakeAt : (sendTrunc m d).wakeAt = d.wakeAt := rfl
@[simp] theorem sendTrunc_serial : (sendTrunc m d).serial = d.serial := rfl
@[simp] theorem sendTrunc_regs : (sendTrunc m d).regs = d.regs := rfl
@[simp] theorem sendTrunc_cnts : (sendTrunc m d).cnts = d.cnts := rfl
@[simp] theorem sendTrunc_mem : (sendTrunc m d).mem = d.mem := rfl
@[simp] theorem sendTrunc_log : (sendTrunc m d).log = d.log := rfl
@[simp] theorem sendTrunc_i3c : (sendTrunc m d).i3c = d.i3c := rfl
@[simp] theorem sendTrunc_cfg : (sendTrunc m d).cfg = d.cfg := rfl
@[simp] theorem sendTrunc_ctxs : (sendTrunc m d).ctxs = d.ctxs := rfl
@[simp] theorem sendTrunc_drv : (sendTrunc m d).drv = d.drv := rfl
@[simp] theorem sendTrunc_prog : (sendTrunc m d).prog = d.prog := rfl
@[simp] theorem sendTrunc_epochs : (sendTrunc m d).epochs = d.epochs := rfl
@[simp] theorem sendTrunc_lastVals : (sendTrunc m d).lastVals = d.lastVals := rfl
@[simp] theorem sendTrunc_flowDone : (sendTrunc m d).flowDone = d.flowDone := rfl
@[simp] theorem sendTrunc_regions : (sendTrunc m d).regions = d.regions := rfl
@[simp] theorem sendTrunc_audit : (sendTrunc m d).audit = d.audit := rfl
@[simp] theorem sendTrunc_flocks : (sendTrunc m d).flocks = d.flocks := rfl
@[simp] theorem sendTrunc_folds : (sendTrunc m d).folds = d.folds := rfl
@[simp] theorem sendTrunc_spd : (sendTrunc m d).spd = d.spd := rfl
@[simp] theorem sendTrunc_sec : (sendTrunc m d).sec = d.sec := rfl
@[simp] theorem sendTrunc_clk : (sendTrunc m d).clk = d.clk := rfl
@[simp] theorem sendTrunc_pow : (sendTrunc m d).pow = d.pow := rfl
@[simp] theorem sendTrunc_tel : (sendTrunc m d).tel = d.tel := rfl
@[simp] theorem sendTrunc_dma : (sendTrunc m d).dma = d.dma := rfl
@[simp] theorem sendTrunc_tx : (sendTrunc m d).tx = d.tx := rfl
@[simp] theorem sendTrunc_peer : (sendTrunc m d).peer = d.peer := rfl
@[simp] theorem sendTrunc_shp : (sendTrunc m d).shp = d.shp := rfl
@[simp] theorem sendTrunc_memsys : (sendTrunc m d).memsys = d.memsys := rfl
@[simp] theorem sendTrunc_rx : (sendTrunc m d).rx = d.rx := rfl
@[simp] theorem sendTrunc_isp : (sendTrunc m d).isp = d.isp := rfl
@[simp] theorem sendTrunc_eng : (sendTrunc m d).eng = d.eng := rfl
@[simp] theorem sendTrunc_vis : (sendTrunc m d).vis = d.vis := rfl
@[simp] theorem sendTrunc_me : (sendTrunc m d).me = d.me := rfl
@[simp] theorem sendTrunc_cores : (sendTrunc m d).cores = d.cores := rfl
@[simp] theorem sendTrunc_threads : (sendTrunc m d).threads = d.threads := rfl
@[simp] theorem sendTrunc_pmu : (sendTrunc m d).pmu = d.pmu := rfl
@[simp] theorem sendTrunc_latch : (sendTrunc m d).latch = d.latch := rfl
@[simp] theorem sendTrunc_rr : (sendTrunc m d).rr = d.rr := rfl
@[simp] theorem sendTrunc_outcomes : (sendTrunc m d).outcomes = d.outcomes := rfl
end

section
variable (m : DmaStartMsg) (d : Dev)
@[simp] theorem sendDmaStart_dt : (sendDmaStart m d).dt = d.dt := rfl
@[simp] theorem sendDmaStart_freeCount : (sendDmaStart m d).freeCount = d.freeCount := rfl
@[simp] theorem sendDmaStart_wakeAt : (sendDmaStart m d).wakeAt = d.wakeAt := rfl
@[simp] theorem sendDmaStart_serial : (sendDmaStart m d).serial = d.serial := rfl
@[simp] theorem sendDmaStart_regs : (sendDmaStart m d).regs = d.regs := rfl
@[simp] theorem sendDmaStart_cnts : (sendDmaStart m d).cnts = d.cnts := rfl
@[simp] theorem sendDmaStart_mem : (sendDmaStart m d).mem = d.mem := rfl
@[simp] theorem sendDmaStart_log : (sendDmaStart m d).log = d.log := rfl
@[simp] theorem sendDmaStart_i3c : (sendDmaStart m d).i3c = d.i3c := rfl
@[simp] theorem sendDmaStart_cfg : (sendDmaStart m d).cfg = d.cfg := rfl
@[simp] theorem sendDmaStart_ctxs : (sendDmaStart m d).ctxs = d.ctxs := rfl
@[simp] theorem sendDmaStart_drv : (sendDmaStart m d).drv = d.drv := rfl
@[simp] theorem sendDmaStart_prog : (sendDmaStart m d).prog = d.prog := rfl
@[simp] theorem sendDmaStart_epochs : (sendDmaStart m d).epochs = d.epochs := rfl
@[simp] theorem sendDmaStart_lastVals : (sendDmaStart m d).lastVals = d.lastVals := rfl
@[simp] theorem sendDmaStart_flowDone : (sendDmaStart m d).flowDone = d.flowDone := rfl
@[simp] theorem sendDmaStart_regions : (sendDmaStart m d).regions = d.regions := rfl
@[simp] theorem sendDmaStart_audit : (sendDmaStart m d).audit = d.audit := rfl
@[simp] theorem sendDmaStart_flocks : (sendDmaStart m d).flocks = d.flocks := rfl
@[simp] theorem sendDmaStart_folds : (sendDmaStart m d).folds = d.folds := rfl
@[simp] theorem sendDmaStart_spd : (sendDmaStart m d).spd = d.spd := rfl
@[simp] theorem sendDmaStart_sec : (sendDmaStart m d).sec = d.sec := rfl
@[simp] theorem sendDmaStart_clk : (sendDmaStart m d).clk = d.clk := rfl
@[simp] theorem sendDmaStart_pow : (sendDmaStart m d).pow = d.pow := rfl
@[simp] theorem sendDmaStart_tel : (sendDmaStart m d).tel = d.tel := rfl
@[simp] theorem sendDmaStart_dma : (sendDmaStart m d).dma = d.dma := rfl
@[simp] theorem sendDmaStart_tx : (sendDmaStart m d).tx = d.tx := rfl
@[simp] theorem sendDmaStart_peer : (sendDmaStart m d).peer = d.peer := rfl
@[simp] theorem sendDmaStart_shp : (sendDmaStart m d).shp = d.shp := rfl
@[simp] theorem sendDmaStart_memsys : (sendDmaStart m d).memsys = d.memsys := rfl
@[simp] theorem sendDmaStart_rx : (sendDmaStart m d).rx = d.rx := rfl
@[simp] theorem sendDmaStart_isp : (sendDmaStart m d).isp = d.isp := rfl
@[simp] theorem sendDmaStart_eng : (sendDmaStart m d).eng = d.eng := rfl
@[simp] theorem sendDmaStart_vis : (sendDmaStart m d).vis = d.vis := rfl
@[simp] theorem sendDmaStart_me : (sendDmaStart m d).me = d.me := rfl
@[simp] theorem sendDmaStart_cores : (sendDmaStart m d).cores = d.cores := rfl
@[simp] theorem sendDmaStart_threads : (sendDmaStart m d).threads = d.threads := rfl
@[simp] theorem sendDmaStart_pmu : (sendDmaStart m d).pmu = d.pmu := rfl
@[simp] theorem sendDmaStart_latch : (sendDmaStart m d).latch = d.latch := rfl
@[simp] theorem sendDmaStart_rr : (sendDmaStart m d).rr = d.rr := rfl
@[simp] theorem sendDmaStart_outcomes : (sendDmaStart m d).outcomes = d.outcomes := rfl
end

end Sys2Proof.Machine
end

