-- ==== Sys2Proof/Laws/Memory.lean ====
section
/-! SUPPORT. The memories: a read gives what was written, a write leaves every other byte alone, and every memory operation keeps the
canonical form. -/

namespace Sys2Proof.Machine

/-! ### Operations that leave the memories alone -/

/-- Steps over a list that each keep a component of the state keep it together. -/
theorem foldl_keep {α β : Type} (g : Dev → β) (f : Dev → α → Dev) (h : ∀ d x, g (f d x) = g d) (l : List α) (d : Dev) :
    g (l.foldl f d) = g d := by
  induction l generalizing d with
  | nil => rfl
  | cons x r ih => rw [List.foldl_cons, ih, h]

theorem guardDev_keep {β : Type} (g : Dev → β) (b : Bool) (f : Dev → Dev) (h : ∀ d, g (f d) = g d) (d : Dev) : g (guardDev b f d) = g d := by
  unfold guardDev
  split <;> simp [h]

/-- Counting a filterable event changes counters alone. -/
theorem pmuEv_keep {β : Type} (g : Dev → β) (h : ∀ (d : Dev) c, g { d with cnts := c } = g d) (q e n : Nat) (b : EvBy) (a : EvAddr) (d : Dev) :
    g (pmuEv q e n b a d) = g d := by
  unfold pmuEv
  split
  · rfl
  · exact foldl_keep g _ (fun d f => guardDev_keep g _ _ (fun d => h d _) d) _ d

theorem pmuUc_keep {β : Type} (g : Dev → β) (h : ∀ (d : Dev) c, g { d with cnts := c } = g d) (q i n : Nat) (d : Dev) : g (pmuUc q i n d) = g d := by
  unfold pmuUc
  split
  · rfl
  · exact h d _

theorem hubUc_keep {β : Type} (g : Dev → β) (h : ∀ (d : Dev) c, g { d with cnts := c } = g d) (i n : Nat) (d : Dev) : g (hubUc i n d) = g d := by
  unfold hubUc
  split
  · rfl
  · exact h d _

@[simp] theorem pmuEv_mem (q e n : Nat) (b : EvBy) (a : EvAddr) (d : Dev) : (pmuEv q e n b a d).mem = d.mem :=
  pmuEv_keep (·.mem) (fun _ _ => rfl) q e n b a d

@[simp] theorem pmuEv_regs (q e n : Nat) (b : EvBy) (a : EvAddr) (d : Dev) : (pmuEv q e n b a d).regs = d.regs :=
  pmuEv_keep (·.regs) (fun _ _ => rfl) q e n b a d

@[simp] theorem countRows_mem (q a len : Nat) (p : Party) (d : Dev) : (countRows q a len p d).mem = d.mem := by
  unfold countRows
  split <;> simp

@[simp] theorem auditViolation_mem (q r s kind n : Nat) (p : Party) (d : Dev) : (auditViolation q r s kind n p d).mem = d.mem := by
  unfold auditViolation
  simp only
  split <;> simp

@[simp] theorem auditAccess_mem (q a len : Nat) (w : Bool) (p : Party) (d : Dev) : (auditAccess q a len w p d).mem = d.mem := by
  unfold auditAccess
  refine foldl_keep (·.mem) _ (fun d x => ?_) _ d
  simp only
  split <;> exact guardDev_keep (·.mem) _ _ (fun d => by simp) d

@[simp] theorem breakResv_mem (q a len : Nat) (d : Dev) : (breakResv q a len d).mem = d.mem := by
  unfold breakResv
  simp only
  split <;> rfl

@[simp] theorem writeQuarter_spad (q a len k : Nat) (d : Dev) : (writeQuarter q a len k d).mem.spad = d.mem.spad := by
  unfold writeQuarter
  split
  · rfl
  · split <;> rfl

@[simp] theorem writeQuarter_dram (q a len k : Nat) (d : Dev) : (writeQuarter q a len k d).mem.dram = d.mem.dram := by
  unfold writeQuarter
  split
  · rfl
  · split <;> rfl

/-! ### The scratchpad -/

/-- What a write of scratchpad bytes does to the scratchpad's bytes. -/
theorem spadWrite_spad (p : Party) (q a : Nat) (bs : List Byte) (d : Dev) : (spadWrite p q a bs d).mem.spad = storeBytes q a bs d.mem.spad := by
  unfold spadWrite
  simp only
  congr 1
  rw [foldl_keep (·.mem.spad) _ (fun d k => writeQuarter_spad q a bs.length k d)]
  simp

/-- A write of scratchpad bytes leaves DRAM alone. -/
theorem spadWrite_dram (p : Party) (q a : Nat) (bs : List Byte) (d : Dev) : (spadWrite p q a bs d).mem.dram = d.mem.dram := by
  unfold spadWrite
  simp only
  rw [foldl_keep (·.mem.dram) _ (fun d k => writeQuarter_dram q a bs.length k d)]
  simp

theorem mapGet_storeBytes_out (q : Nat) (bs : List Byte) : ∀ (a k : Nat) (m : List Host.Cell),
    (∀ i, i < bs.length → k ≠ spadKey q (a + i)) → mapGet 0#8 k (storeBytes q a bs m) = mapGet 0#8 k m := by
  induction bs with
  | nil => intros; rfl
  | cons b r ih =>
    intro a k m h
    have h0 : k ≠ spadKey q a := by simpa using h 0 (by simp)
    rw [storeBytes, ih (a + 1) k _ (fun i hi => by have := h (i + 1) (by simp; omega); rwa [show a + (i + 1) = a + 1 + i by omega] at this),
      mapGet_set_ne _ _ h0]

theorem spadKey_inj {q a b : Nat} (h : spadKey q a = spadKey q b) : a % 2 ^ 26 = b % 2 ^ 26 := by
  unfold spadKey at h
  omega

theorem mapGet_storeBytes_in (q : Nat) (bs : List Byte) : ∀ (a i : Nat) (m : List Host.Cell), bs.length ≤ 2 ^ 26 → (h : i < bs.length) →
    mapGet 0#8 (spadKey q (a + i)) (storeBytes q a bs m) = bs[i] := by
  induction bs with
  | nil => intro a i m _ h; simp at h
  | cons b r ih =>
    intro a i m hl h
    rw [storeBytes]
    cases i with
    | zero =>
      rw [mapGet_storeBytes_out]
      · simp
      · intro j hj e
        have := spadKey_inj e
        simp at hl
        omega
    | succ i =>
      simp at hl h
      have := ih (a + 1) i (mapSet 0#8 (spadKey q a) b m) (by omega) h
      rw [show a + (i + 1) = a + 1 + i by omega]
      simpa using this

/-- A scratchpad byte that a write covers reads as it was written (R199). -/
theorem spadByte_spadWrite_in (p : Party) (q a : Nat) (bs : List Byte) (d : Dev) (i : Nat) (hl : bs.length ≤ 2 ^ 26) (h : i < bs.length) :
    spadByte (spadWrite p q a bs d) q (a + i) = bs[i] := by
  unfold spadByte
  rw [spadWrite_spad]
  exact mapGet_storeBytes_in q bs a i _ hl h

/-- Every other scratchpad byte reads as before. -/
theorem spadByte_spadWrite_out (p : Party) (q a : Nat) (bs : List Byte) (d : Dev) (q' a' : Nat)
    (h : ∀ i, i < bs.length → spadKey q' a' ≠ spadKey q (a + i)) : spadByte (spadWrite p q a bs d) q' a' = spadByte d q' a' := by
  unfold spadByte
  rw [spadWrite_spad]
  exact mapGet_storeBytes_out q bs a _ _ h

theorem dramByte_spadWrite (p : Party) (q a : Nat) (bs : List Byte) (d : Dev) (x : Nat) : dramByte (spadWrite p q a bs d) x = dramByte d x := by
  unfold dramByte
  rw [spadWrite_dram]

theorem storeBytes_wf (q : Nat) (bs : List Byte) : ∀ (a : Nat) (m : List Host.Cell), mapWf (fun _ => 0#8) m = true →
    mapWf (fun _ => 0#8) (storeBytes q a bs m) = true := by
  induction bs with
  | nil => intro a m h; exact h
  | cons b r ih => intro a m h; exact ih _ _ (mapWf_set_const 0#8 _ b m h)

/-- A write of scratchpad bytes keeps the canonical form. -/
theorem spadWrite_wf (p : Party) (q a : Nat) (bs : List Byte) (d : Dev) (h : mapWf (fun _ => 0#8) d.mem.spad = true) :
    mapWf (fun _ => 0#8) (spadWrite p q a bs d).mem.spad = true := by
  rw [spadWrite_spad]
  exact storeBytes_wf q bs a _ h

/-! ### DRAM -/

theorem dramWrite_dram (pa : Nat) (bs : List Byte) (d : Dev) : (dramWrite pa bs d).mem.dram = storeDram pa bs d.mem.dram := rfl

theorem mapGet_storeDram_out (bs : List Byte) : ∀ (a k : Nat) (m : List Host.Cell),
    (∀ i, i < bs.length → k ≠ (a + i) % 2 ^ 38) → mapGet 0#8 k (storeDram a bs m) = mapGet 0#8 k m := by
  induction bs with
  | nil => intros; rfl
  | cons b r ih =>
    intro a k m h
    have h0 : k ≠ a % 2 ^ 38 := by simpa using h 0 (by simp)
    rw [storeDram, ih (a + 1) k _ (fun i hi => by have := h (i + 1) (by simp; omega); rwa [show a + (i + 1) = a + 1 + i by omega] at this),
      mapGet_set_ne _ _ h0]

theorem mapGet_storeDram_in (bs : List Byte) : ∀ (a i : Nat) (m : List Host.Cell), bs.length ≤ 2 ^ 38 → (h : i < bs.length) →
    mapGet 0#8 ((a + i) % 2 ^ 38) (storeDram a bs m) = bs[i] := by
  induction bs with
  | nil => intro a i m _ h; simp at h
  | cons b r ih =>
    intro a i m hl h
    rw [storeDram]
    cases i with
    | zero =>
      rw [mapGet_storeDram_out]
      · simp
      · intro j hj e
        simp at hl
        omega
    | succ i =>
      simp at hl h
      have := ih (a + 1) i (mapSet 0#8 (a % 2 ^ 38) b m) (by omega) h
      rw [show a + (i + 1) = a + 1 + i by omega]
      simpa using this

/-- A DRAM byte that a write covers reads as it was written. -/
theorem dramByte_dramWrite_in (a : Nat) (bs : List Byte) (d : Dev) (i : Nat) (hl : bs.length ≤ 2 ^ 38) (h : i < bs.length) :
    dramByte (dramWrite a bs d) (a + i) = bs[i] := mapGet_storeDram_in bs a i _ hl h

/-- Every other DRAM byte reads as before. -/
theorem dramByte_dramWrite_out (a : Nat) (bs : List Byte) (d : Dev) (x : Nat) (h : ∀ i, i < bs.length → x % 2 ^ 38 ≠ (a + i) % 2 ^ 38) :
    dramByte (dramWrite a bs d) x = dramByte d x := mapGet_storeDram_out bs a _ _ h

theorem spadByte_dramWrite (a : Nat) (bs : List Byte) (d : Dev) (q x : Nat) : spadByte (dramWrite a bs d) q x = spadByte d q x := rfl

theorem storeDram_wf (bs : List Byte) : ∀ (a : Nat) (m : List Host.Cell), mapWf (fun _ => 0#8) m = true →
    mapWf (fun _ => 0#8) (storeDram a bs m) = true := by
  induction bs with
  | nil => intro a m h; exact h
  | cons b r ih => intro a m h; exact ih _ _ (mapWf_set_const 0#8 _ b m h)

/-- A write of DRAM bytes keeps the canonical form. -/
theorem dramWrite_wf (a : Nat) (bs : List Byte) (d : Dev) (h : mapWf (fun _ => 0#8) d.mem.dram = true) :
    mapWf (fun _ => 0#8) (dramWrite a bs d).mem.dram = true := storeDram_wf bs a _ h

theorem writeDva_wf (bs : List Byte) : ∀ (a : Nat) (d : Dev), mapWf (fun _ => 0#8) d.mem.dram = true →
    mapWf (fun _ => 0#8) (writeDva a bs d).mem.dram = true := by
  induction bs with
  | nil => intro a d h; exact h
  | cons b r ih => intro a d h; exact ih _ _ (dramWrite_wf _ [b] d h)

/-! ### The fuse array -/

theorem fuseSet_wf (i : Nat) (f : FuseSt) (h : mapWf (fun _ => 0#8) f.bytes = true) : mapWf (fun _ => 0#8) (fuseSet i f).bytes = true :=
  mapWf_set_const 0#8 _ _ _ h

/-- The memories at reset are in canonical form. -/
theorem reset_memory_wf : Memory.wf State.reset = true := by decide

end Sys2Proof.Machine
end

