-- ==== Sys2Proof/Laws/Ops.lean ====
section
/-! SUPPORT. The shared operations: one lemma for each that says what it can do, for a proof to cite in place of its definition. -/

namespace Sys2Proof.Machine

/-! ### A meaning over the device, and its guard -/

/-- A meaning over the device goes on, and changes the device alone. -/
theorem onDev_cases {f : Dev → Dev} {s t : State} (h : onDev f s = .next t) : t = { s with dev := f s.dev } := by
  cases h; rfl

@[simp] theorem guardDev_true (f : Dev → Dev) (d : Dev) : guardDev true f d = f d := rfl
@[simp] theorem guardDev_false (f : Dev → Dev) (d : Dev) : guardDev false f d = d := rfl

theorem guardDev_cases (b : Bool) (f : Dev → Dev) (d : Dev) : (b = true ∧ guardDev b f d = f d) ∨ (b = false ∧ guardDev b f d = d) := by
  cases b <;> simp

/-- Every command goes on. All but FUSE_BIT_PROGRAMMED change the device alone: neither the queue nor the fuse array. -/
theorem exec_next_dev (c : Instr) (h : c ≠ .fuseBitProgrammed) (s : State) : ∃ f : Dev → Dev, exec c s = .next { s with dev := f s.dev } := by
  cases c
  case dmaStart w _ _ => cases w <;> exact ⟨fun _ => _, rfl⟩
  all_goals first | exact absurd rfl h | exact ⟨fun _ => _, rfl⟩

/-! ### Messages -/

/-- Taking the first message that fits gives one of the list and leaves the others. -/
theorem takeFirst_some {α : Type} {p : α → Bool} {x : α} : ∀ {l r : List α}, takeFirst p l = some (x, r) →
    p x = true ∧ ∃ a b, l = a ++ x :: b ∧ r = a ++ b ∧ ∀ y ∈ a, p y = false
  | [], _, h => by simp [takeFirst] at h
  | y :: l, r, h => by
    unfold takeFirst at h
    by_cases hp : p y = true
    · rw [if_pos hp] at h
      cases h
      exact ⟨hp, [], l, rfl, rfl, by simp⟩
    · rw [if_neg hp] at h
      split at h
      · rename_i x' r' e
        cases h
        obtain ⟨hx, a, b, rfl, rfl, ha⟩ := takeFirst_some e
        exact ⟨hx, y :: a, b, rfl, rfl, by simpa [hp] using ha⟩
      · cases h

theorem takeFirst_none {α : Type} {p : α → Bool} : ∀ {l : List α}, takeFirst p l = none → ∀ y ∈ l, p y = false
  | [], _ => by simp
  | y :: l, h => by
    unfold takeFirst at h
    by_cases hp : p y = true
    · rw [if_pos hp] at h; cases h
    · rw [if_neg hp] at h
      split at h
      · cases h
      · rename_i e
        intro z hz
        rcases List.mem_cons.1 hz with rfl | hz
        · simpa using hp
        · exact takeFirst_none e z hz

/-! ### The tie order of R27 -/

theorem rrPick_mem {n p : Nat} : ∀ {rs : List ArbReq} {w : Nat}, rrPick n p rs = some w → ∃ r ∈ rs, r.id = w
  | [], _, h => by simp [rrPick] at h
  | r :: rs, w, h => by
    unfold rrPick at h
    split at h
    · cases h; exact ⟨r, by simp, rfl⟩
    · rename_i b e
      obtain ⟨x, hx, rfl⟩ := rrPick_mem e
      split at h <;> cases h
      · exact ⟨r, by simp, rfl⟩
      · exact ⟨x, by simp [hx], rfl⟩

/-- The winner is a requester that no other precedes by deadline and rank. -/
theorem arbPick_some {n p w p' : Nat} {rs : List ArbReq} (h : arbPick n p rs = some (w, p')) :
    ∃ r ∈ rs, r.id = w ∧ ∀ o ∈ rs, o.before r = false := by
  have top : ∀ r ∈ arbTop rs, r ∈ rs ∧ ∀ o ∈ rs, o.before r = false := by
    intro r hr
    simpa [arbTop, List.mem_filter] using hr
  have pick : ∃ r ∈ arbTop rs, r.id = w := by
    unfold arbPick at h
    split at h
    · cases h
    · rename_i r e
      cases h
      exact ⟨r, by simp [e], rfl⟩
    · split at h
      · rename_i e; cases h; exact rrPick_mem e
      · cases h
  obtain ⟨r, hr, rfl⟩ := pick
  exact ⟨r, (top r hr).1, rfl, (top r hr).2⟩

/-- An arbiter changes nothing but its own pointer. -/
theorem arbitrate_frame (kind idx n : Nat) (rs : List ArbReq) (d : Dev) :
    (arbitrate kind idx n rs d).2 = { d with rr := (arbitrate kind idx n rs d).2.rr } := by
  unfold arbitrate; split <;> rfl

theorem arbitrate_some {kind idx n w : Nat} {rs : List ArbReq} {d : Dev} (h : (arbitrate kind idx n rs d).1 = some w) :
    ∃ r ∈ rs, r.id = w ∧ ∀ o ∈ rs, o.before r = false := by
  unfold arbitrate at h
  split at h
  · rename_i e; cases h; exact arbPick_some e
  · cases h

/-! ### Register writes and the change log -/

/-- A record in the journal: the one that its request spells, and its count. -/
theorem appendRecord_eq (r : ChangeReq) (d : Dev) :
    (appendRecord r d).log = { d.log with next := d.log.next + 1, hash := (makeRecord d r).hash, journal := d.log.journal ++ [makeRecord d r] }
      ∧ appendRecord r d = { d with log := (appendRecord r d).log, cnts := (appendRecord r d).cnts } := ⟨rfl, rfl⟩

/-- A request for a record behind a power fail's seal does nothing (R372). -/
theorem requestChange_sealing (r : ChangeReq) {d : Dev} (h : d.log.sealing = true) : requestChange r d = d := by
  simp [requestChange, h]

/-- A request with a free slot waits in the order of its class (R368). -/
theorem requestChange_slot (r : ChangeReq) {d : Dev} (h : d.log.sealing = false) (hs : slotFree d = true) :
    requestChange r d = { d with log := { d.log with reqs := insertReq { r with at_ := d.dt, slot := true } d.log.reqs } } := by
  simp [requestChange, h, hs]

/-- Whatever a request finds, the journal and its sequence stay. -/
theorem requestChange_journal (r : ChangeReq) (d : Dev) :
    (requestChange r d).log.journal = d.log.journal ∧ (requestChange r d).log.next = d.log.next := by
  unfold requestChange
  split
  · exact ⟨rfl, rfl⟩
  · split
    · exact ⟨rfl, rfl⟩
    · unfold evsum
      rcases guardDev_cases _ _ _ with ⟨_, e⟩ | ⟨_, e⟩ <;> rw [e] <;> exact ⟨rfl, rfl⟩

/-- A write that does not reach its register does nothing. -/
theorem committedWrite_blocked {o : Origin} {a : Nat} {d : Dev} (v : W32) (eff : Dev → Dev) (h : writeReaches d o a = false) :
    committedWrite o a v eff d = d := by
  simp [committedWrite, h]

@[simp] theorem hubUc_log (i n : Nat) (d : Dev) : (hubUc i n d).log = d.log := hubUc_keep (·.log) (fun _ _ => rfl) i n d

@[simp] theorem ctlAccess_log (from_ : Option Nat) (a : Nat) (d : Dev) : (ctlAccess from_ a d).log = d.log := by
  unfold ctlAccess; split <;> simp [ctlTo, ctlFrom]

theorem slotFree_congr {d e : Dev} (h : d.log = e.log) : slotFree d = slotFree e := by
  unfold slotFree slotsUsed; rw [h]

/-- A logged write with a free slot takes effect with its record (R368, R369). -/
theorem committedWrite_logged {o : Origin} {a : Nat} {d : Dev} (v : W32) (eff : Dev → Dev) (h : writeReaches d o a = true)
    (hl : isLogged o a = true) (hs : d.log.sealing = false) (hf : slotFree d = true) :
    committedWrite o a v eff d
      = eff (appendRecord (writeReq (ctlAccess o.quad a d) o a v) (ctlAccess o.quad a d)) := by
  have hf' : slotFree (ctlAccess o.quad a d) = true := by rw [slotFree_congr (ctlAccess_log _ _ _), hf]
  simp [committedWrite, h, hl, hs, hf']

/-- A logged write with the log sealing or no slot free is asked for, and nothing is applied. -/
theorem committedWrite_waits {o : Origin} {a : Nat} {d : Dev} (v : W32) (eff : Dev → Dev) (h : writeReaches d o a = true)
    (hl : isLogged o a = true) (hs : d.log.sealing = true ∨ slotFree d = false) :
    committedWrite o a v eff d = requestChange (writeReq (ctlAccess o.quad a d) o a v) (ctlAccess o.quad a d) := by
  have hf' : slotFree (ctlAccess o.quad a d) = slotFree d := slotFree_congr (ctlAccess_log _ _ _)
  rcases hs with hs | hs <;> simp [committedWrite, h, hl, hs, hf']

/-- A write that is not logged takes effect at once. -/
theorem committedWrite_unlogged {o : Origin} {a : Nat} {d : Dev} (v : W32) (eff : Dev → Dev) (h : writeReaches d o a = true)
    (hl : isLogged o a = false) : committedWrite o a v eff d = eff (digestWrite o a v (ctlAccess o.quad a d)) := by
  simp [committedWrite, h, hl]

/-- Storing a value by its fields' access codes changes one register (R10). -/
theorem storeFields_frame (a : Nat) (v : W32) (d : Dev) :
    storeFields a v d = { d with regs := (storeFields a v d).regs } ∧ ∀ b, b ≠ a → regRaw (storeFields a v d) b = regRaw d b := by
  unfold storeFields
  split
  · exact ⟨rfl, fun b h => regRaw_setRaw_ne h _ d⟩
  · exact ⟨rfl, fun _ _ => rfl⟩

theorem storeFields_get {a k : Nat} {e : RegEntry} (h : entryAt a = some (e, k)) (v : W32) (d : Dev) :
    regRaw (storeFields a v d) a
      = ((regRaw d a &&& ~~~BitVec.ofNat 32 (e.rw ||| e.rws)) ||| (v &&& BitVec.ofNat 32 (e.rw ||| e.rws)))
        &&& ~~~(v &&& BitVec.ofNat 32 e.w1c) := by
  simp [storeFields, h]

/-! ### Instances and reads -/

/-- An update of an instance finds its context, or does nothing once the context is another's. -/
theorem updInst_cases (i : InstRef) (f : DrvCtx → DrvCtx) (d : Dev) :
    (instHeld d i = true ∧ updInst i f d = updCtx i.q i.ctx f d) ∨ (instHeld d i = false ∧ updInst i f d = d) := guardDev_cases _ _ _

/-- A read of the scratchpad gives its bytes and whether one is uncorrectable. -/
theorem spadRead_gives (p : Party) (q a len : Nat) (d : Dev) :
    (spadRead p q a len d).1 = spadPeek d q a len ∧ (spadRead p q a len d).2.1 = spadBad d q a len := ⟨rfl, rfl⟩

end Sys2Proof.Machine
end

