-- ==== Sys2Proof/Tests/Slice0.lean ====
section
/-! SUPPORT. Tests: for each obligation, states and operands that meet the hypotheses of each of its clauses; an ill-formed command for
each check; values worked out by the spec or by the standards that it names. -/

namespace Sys2Proof.Tests
open Sys2Proof Sys2Proof.Machine Sys2Proof.Claims

/-- A small state: the module after reset, changed. -/
def st (f : Dev → Dev) : State := { dev := f {} }

/-- A byte string with values written at offsets, the rest zero (R5): each item is offset, size, value. -/
def rec_ (n : Nat) (items : List (Nat × Nat × Nat)) : List Byte :=
  items.foldl (fun bs e => bs.take e.1 ++ leBytes e.2.1 e.2.2 ++ bs.drop (e.1 + e.2.1)) (List.replicate n 0)

/-- A ROUTE entry (R37): configured, graph 1, RAW8, frames of 8 by 2 pixels, sync group 0. -/
def routeEnt : List Byte := rec_ 16 [(0, 1, 1), (4, 2, 1), (8, 1, 0x2A), (12, 2, 8), (14, 2, 2)]

/-- A GRAPH entry (R38): graph 1 of quadrant 0, with the mode, bound and flock given; one budget record. -/
def graphEnt (mode bound flock : Nat) : List Byte :=
  rec_ 64 [(0, 2, 1), (3, 1, mode), (8, 8, bound), (0x10, 8, bound), (0x18, 1, 4), (0x1A, 2, flock), (0x20, 4, 1)]

/-- A BUDGET record that gives P_min 1 (R173). -/
def budgetEnt : List Byte := rec_ 32 [(4, 4, 1)]

/-- Plane A loaded, in use and with the sections given; graph 1 runs there. -/
def plane (ss : List Sect) (d : Dev) : Dev :=
  let d1 := updPlane 0 (fun p => { p with loaded := true, inUse := true, gen := 1, sections := ss }) d
  { d1 with cfg := { d1.cfg with lastTarget := some 0, everInUse := true, graphs := [(1, { before := 0, now := 0, since := 0 })] } }

/-- The image of stream 0 and its graph, free running (mode 0 of R173). -/
def image : List Sect :=
  [{ kind := 1, scope := 0xFF, data := routeEnt }, { kind := 3, scope := 0, data := graphEnt 0 1000 0xFFFF },
   { kind := 4, scope := 0, data := budgetEnt }]

/-- The same with the graph's instances run in sequencer mode (R179). -/
def imageSeq : List Sect := image.map (fun s => if s.kind = 3 then { s with data := graphEnt 1 1000 0xFFFF } else s)

/-- Receive port 0 enabled and locked; slot 0 enabled on virtual channel 0 with the frame and kind given. -/
def camera (kind : Nat) (f : Option RxFrame) (d : Dev) : Dev :=
  updPort 0 (fun p => { p with en := true, rate := 500 })
    (updSlot 0 (fun x => { x with en := true, kind := kind, frame := f }) (setR .rxp 0 0xC 1 d))

/-- An open frame of stream 0, of 8 by 2 RAW8 pixels, after some lines. -/
def frame (lines : Nat) : RxFrame :=
  { fs := 5, index := 7, plane := 0, gid := 1, pipe := 0, sensor := 0, typ := 0x2A, width := 8, height := 2, developed := false,
    embedded := false, exps := 1, lines := [lines, 0, 0] }

/-- A live instance on context 0 of quadrant 0, of stream 0 and frame 7, at its first instruction. -/
def inst (f : DrvCtx → DrvCtx) (d : Dev) : Dev :=
  updCtx 0 0 (fun c => f { c with live := true, serial := 1, dl := 1000, index := 7, gid := 1, gen := 1 }) d

/-- Its reference. -/
def i0 : InstRef := { q := 0, ctx := 0, serial := 1 }

/-- A frame of pipe 0's context 0, of stream 0 and index 7. -/
def ispFrame : IspFrame :=
  { stream := 0, index := 7, fs := 5, plane := 0, gid := 1, width := 8, height := 2, typ := 0x2A, developed := false, embedded := false,
    exps := 1 }

/-- A read of one byte from target 0x10 that a sensor controller holds. -/
def sensorRead : CciXfer := { target := 0x10, read := true, len := 1, group := false, stream := 0, reg := 0, wide := false, data := [] }

/-- A vision context with a descriptor of zeros, started by the instance's tag 3. -/
def vctx : VisCtx := { live := true, desc := List.replicate 128 0, starter := .drover i0 3 false }

/-- Work of context 0, finished. -/
def work (unit : Nat) : VisWork := { ctx := 0, unit := unit, began := 0, due := 0 }

/-- A vision engine with context 0, at work in a datapath. -/
def vis (e dp unit : Nat) (x : VisCtx) (d : Dev) : Dev :=
  updVis e 0 (fun _ => x) (updEng e (fun g => { g with work := setAt dp (some (work unit)) g.work }) d)

/-- A ring of a quadrant with n slots, h of them filled. -/
def ring (q r n h : Nat) (d : Dev) : Dev := updRegion q r (fun g => { g with n := n, slot := 8, kind := 1, h := h }) d

/-- The scratchpad of quadrant 0 is initialised. -/
def spadUp (d : Dev) : Dev := updSpd 0 (fun s => { s with initDone := true }) d

/-- A line of the pipe's frame. -/
def ispLine : IspLine := { index := 7, exp := 0, data := [1, 2], repaired := false, arr := 0 }

/-- A feature context that matches without a flow plane, with one feature in its list. -/
def noFlow : VisCtx :=
  { vctx with desc := rec_ 128 [(0x34, 1, 0xFF)], phase := 1, stage := 2, list := [{ x := 64, y := 64, score := 1, level := 0 }] }

/-- A Drover instruction word (R182). -/
def dw (op a b c : Nat) : Nat := op * 2 ^ 56 + a * 2 ^ 48 + b * 2 ^ 32 + c

/-- The instance at an instruction word, its context changed. -/
def drover (w : Nat) (f : DrvCtx → DrvCtx) (d : Dev) : Dev := { spadUp (inst f d) with prog := [(0, BitVec.ofNat 64 w)] }

/-- The Frame Start notice of frame 7 of stream 0. -/
def notice : FsNotice := { q := 0, stream := 0, index := 7, fs := 5, plane := 0, gid := 1, hasGraph := true }

/-- Bytes in the scratchpad of quadrant 0 from address 0. -/
def spad (bs : List Byte) (d : Dev) : Dev := { d with mem := { d.mem with spad := storeBytes 0 0 bs d.mem.spad } }

/-- The registers of a DMA set that copies 8 bytes of DRAM to DRAM. -/
def dmaImage : List Byte := rec_ 128 [(16, 4, 8), (24, 4, 1), (28, 4, 8), (36, 4, 1)]

/-- A fold record (R213) of fold 0 with PYM0 as its member and one body step at cycle 0 (R214): member, action, region, argument. -/
def foldSect (member action region k : Nat) : Sect :=
  { kind := 5, scope := 0, data := rec_ 64 [(2, 2, 0x100), (4, 2, 1), (0x10, 4, 100), (0x14, 4, 1)]
                                     ++ rec_ 16 [(4, 1, member), (5, 1, action), (6, 2, region), (8, 4, k)] }

/-- Its record. -/
def foldZero : FoldRec :=
  { number := 0, members := 0x100, phases := 1, proLen := 0, bodyLen := 100, epiLen := 0, pro := [],
    body := [rec_ 16 [(4, 1, 8), (5, 1, 4), (8, 4, 1)]], epi := [] }

/-- A start of fold 0, of one iteration. -/
def foldStart (starter : Starter) : FoldStartRec :=
  { desc := List.replicate 128 0, members := [(8, List.replicate 64 0)], dl := 1000, starter := starter, plane := 0 }

/-- Fold 0 with a record of one step, in a run of it. -/
def folding (member action region k : Nat) (f : FoldSt → FoldSt) (d : Dev) : Dev :=
  updFold 0 0 (fun s => f { s with run := some (foldStart .write), phase := 1, entered := true })
    (plane [foldSect member action region k] d)

/-- The step of such a record. -/
def fstep (member action region k : Nat) : FoldStep := { cycle := 0, member := member, action := action, region := region, k := k }

/-- A load of 8 bytes at address 0 by thread 0, waiting in the open pool. -/
def poolLoad : PoolReq := { gc := 0, thread := 0, dl := 100, at_ := 0, acc := { rd := 5, addr := 0, size := 8, op := 1 } }

/-- A DMA set that copies 16 bytes, in lines of n, between two kinds of end, from address 0 to address 0. -/
def dset (n srcKind dstKind : Nat) : DmaSet :=
  { regs := (List.range 32).map (fun i => BitVec.ofNat 32 (field (rec_ 128 [(16, 4, n), (24, 4, 16 / n), (28, 4, n), (36, 4, 16 / n),
      (40, 4, srcKind + 65536 * dstKind)]) (4 * i) 4)),
    dl := 1000, starter := .drover i0 3 false }

/-- Eight bytes that have arrived, for its place 0. -/
def burst : DmaBurst := { pos := 0, len := 8, data := some [1, 2, 3, 4, 5, 6, 7, 8] }

/-- Channel 0 with an ACTIVE set. -/
def chan0 (x : DmaSet) (d : Dev) : Dev := updCh 0 (fun c => { c with active := some x }) d

/-- Memory channel 0 in use, changed. -/
def chanM (f : MemChan → MemChan) (d : Dev) : Dev :=
  let d1 := setR .memc 0 0 1 d
  { d1 with memsys := { d1.memsys with chans := mapUpd {} 0 f d1.memsys.chans } }

/-- A translation walk for page 0 by thread 0, due at once. -/
def walk0 : Walk := { cache := 0, dva := 0, use := 0, dl := 100, who := .gcData 0 0 1, source := 0, due := 0 }

/-- The device with that walk under way. -/
def walkUp (d : Dev) : Dev := { d with memsys := { d.memsys with walks := [(0, [walk0])] } }

/-- A launch of two commands. -/
def meLaunch (starter : Starter) : MeLaunch := { addr := 0, block := rec_ 128 [(8, 4, 2)], dl := 100, starter := starter }

/-- A run of it that has fetched a command and is at it. -/
def meRun (cmd : Nat) : MeRun := { no := 0, launch := meLaunch .write, cmds := [cmd, 0] }

/-- Context 0 of ME0 at a command. -/
def meAt (cmd : Nat) (f : MeCtx → MeCtx) (d : Dev) : Dev := updMeCtx 0 0 (fun x => f { x with run := some (meRun cmd) }) d

/-- A launch whose first two commands are the setup of a fold's part. -/
def setupLaunch : MeLaunch := { addr := 0, block := rec_ 128 [(8, 4, 2), (0x10, 4, 2)], dl := 100, starter := .write }

/-- The part of a fold's run that ME0 has, changed, at a command. -/
def meFold (cmd : Nat) (f : MeRun → MeRun) (d : Dev) : Dev :=
  updMe 0 (fun e => { e with fold := some 0 }) (updMeCtx 0 0 (fun x => { x with frun := some (f { meRun cmd with fold := some 0 }) }) d)

/-- A word of the R format (R298, R308). -/
def rv (op f3 f7 rd rs1 rs2 : Nat) : Nat := op + rd * 2 ^ 7 + f3 * 2 ^ 12 + rs1 * 2 ^ 15 + rs2 * 2 ^ 20 + f7 * 2 ^ 25

/-- Thread 0 runs an event, with a word at PC 0 in its core's instruction cache and values in x5 and x6. -/
def core (w a b : Nat) (f : GcThread → GcThread) (d : Dev) : Dev :=
  updThread 0 (fun th => f { th with busy := true, x := [(5, BitVec.ofNat 64 a), (6, BitVec.ofNat 64 b)] })
    (updCore 0 (fun c => { c with icache := [(0, [(0, leBytes 4 w ++ List.replicate 60 0)])] }) (spadUp d))

/-- Core 0's translation cache holds page 0, readable, writable and executable. -/
def paged (d : Dev) : Dev := { d with memsys := { d.memsys with caches := [(128, [(0, 15)])] } }

/-- A return from memory to thread 0. -/
def back (who : MemWho) (bs : List Byte) (fault : Option (Nat × Nat)) : MemReturn := { who := who, bytes := bs, fault := fault }

/-- That return is there. -/
def returned (r : MemReturn) (d : Dev) : Dev := { d with memsys := { d.memsys with returns := [r] } }

/-- A post of type 5 to quadrant 0. -/
def post0 : Post := { q := 0, src := 0, ev := { typ := 5, payload := 9 }, dl := 100 }

/-- Posts that wait. -/
def posted (p : Post) (d : Dev) : Dev := { d with fab := { d.fab with posts := [p] } }

/-- An event of type 5 in the lists of a Shepherd. -/
def event0 : ReadyEnt := { ev := { typ := 5, payload := 9 }, dl := 100 }

/-- The Shepherd of quadrant 0 enabled with one event ready. -/
def shepherd (cfg : List Byte) (d : Dev) : Dev :=
  updShp 0 (fun s => { s with ready := [event0], cfg := cfg }) (spadUp (setR .gcCore 0 0 1 (setR .shp 0 0 1 d)))

/-- A result frame of an instance. -/
def txFrame : TxFrame := { vc := 0, inst := some i0, frameNo := 1, dl := 100, header := [1] }

/-- Transmit port 0 enabled and ready with the frames given. -/
def txing (fs : List TxFrame) (d : Dev) : Dev := updTx 0 (fun t => { t with ready := true, frames := fs }) (setR .txp 0 0 1 d)

/-- Peer link 0 enabled, trained and up. -/
def peer (f : Link → Link) (d : Dev) : Dev := updLink 0 (fun l => f { l with trained := true, up := true }) (setR .pl 0 0 1 d)

/-- An entry of the shared window table. -/
def window (w : Nat) (e : List Byte) (d : Dev) : Dev := { d with peer := { d.peer with table := [(w, e)] } }

/-- The body of a HEAD flit with a segment of n bytes for window 3. -/
def segment (n : Nat) : List Byte := rec_ 248 [(6, 1, 3), (0xC, 2, n)]

/-- A command frame (R360) under a key and a counter. -/
def i3cFrame (code seq addr n : Nat) (data key : List Byte) : List Byte :=
  let h := leBytes 1 code ++ leBytes 1 seq ++ leBytes 4 addr ++ leBytes 2 n ++ data
  let b := h ++ leBytes 2 (crc16 h).toNat
  b ++ frameMac key 0 seq b

/-- The same, parsed. -/
def i3cParsed (bs : List Byte) : Frame :=
  match parseFrame bs with
  | .ok fr => fr
  | .error _ => { code := 0, session := 0, seq := 0, addr := 0, n := 0, data := [], body := [], mac := [] }

/-- The fuse array with a usable warrant in slot 0 of the privileges given (R411). -/
def warrant (mask : Nat) : FuseSt := { bytes := [(warrantBase 0 + 6, BitVec.ofNat 8 mask), (warrantBase 0 + 7, 1)] }

/-- A target with a dynamic address, and session 0 open under that warrant with its counter at 0. -/
def target (mask : Nat) (f : Dev → Dev) : State :=
  { dev := f (updSess 0 (fun x => { x with isOpen := true, key := List.replicate 32 9 })
      (updI3c (fun x => { x with da := some 8 }) (setR .i3c 0 0 3 {}))), fuse := warrant mask }

/-- A request of the change log that commits a change. -/
def req (act : Change) : ChangeReq := { at_ := 0, cls := 1, oid := 0, target := 0, kind := 1, act := act }

/-- The log with that request, at a DT when it commits. -/
def logging (act : Change) (d : Dev) : Dev := { d with dt := 125, log := { d.log with reqs := [req act] } }

/-- A record of the change log. -/
def logRec : LogRecord :=
  { seq := 0, dt := 3, cls := 1, oid := 0, target := 0, kind := 1, len := 4, old := 5, new := 6, extra := 0, hash := List.replicate 16 7 }

/-- The journal with that record. -/
def journal (d : Dev) : Dev := { d with log := { d.log with journal := [logRec], next := 1 } }

/-- The mirror enabled with four slots at DVA 0, the record in the journal. -/
def mirror (d : Dev) : Dev := setR .log 0 0x10C 1 (setR .log 0 0x108 4 (journal d))

/-- The clock state of CLK.STATUS.SRC, at a place of the dividers' sequences. -/
def clock (src : Nat) (ramp : List Nat) (d : Dev) : Dev :=
  setF .clk 0 4 0 2 src { d with clk := { d.clk with ramp := ramp } }

/-- The power state as PWR.STATE has it (R387). -/
def powerAt (state : Nat) (d : Dev) : Dev := setF .pwr 0 0 0 3 state d

/-- The module in a fallow state with wake sources enabled. -/
def fallow (wake : Nat) (f : PowSt → PowSt) (d : Dev) : Dev :=
  setR .pwr 0 0xC wake (powerAt 2 { d with pow := f { d.pow with hubUp := false } })

/-- The debug port locked with a challenge in force; key slot 0 of the fuses holds the hashes of the keys that no firmware gives. -/
def lockedKey : State :=
  { dev := updSec (fun x => { x with debug := 1, chal := some (List.replicate 32 0, 100) }) {}
    fuse := { bytes := ((List.range 96).zip (sha384 (keyRsa [] 0) ++ sha384 (keySlh [] 0))).map (fun e => (0x40 + e.1, e.2)) } }

/-- The journal is full. -/
def full : State := st (fun d => { d with log := { d.log with journal := List.replicate 1023 logRec } })

/-- The lock fuse is set, and fuse bits can be programmed. -/
def locked : State :=
  { dev := clock 0 [] (updSec (fun x => { x with debug := 1 }) { ({} : Dev) with pow := { ({} : PowSt) with v48 := true } })
    fuse := fuseSet 3592 {} }

/-- A sample record of source 0. -/
def sample : SampleRec := { source := 0, unit := 0, dl := 9 }

/-- The sample ring of quadrant 0 is region 0, of n slots with h filled; the record waits. -/
def sampled (n h : Nat) (d : Dev) : Dev :=
  updPmu 0 (fun p => { p with due := [(sample, 0)] }) (updRegion 0 0 (fun g => { g with base := 0, n := n, slot := 8, kind := 1, h := h }) (spadUp d))

/-- A scratchpad with no poison and no flipped bits is sound. -/
theorem sound_of_clean {d : Dev} {q : Nat} (hp : d.mem.poison = []) (hf : d.mem.flips = []) : spadSound d q := by
  intro k
  simp [quarterState, quarterFlips, hp, hf, mapGet, popCount]

/-- The state that a command leaves. -/
def stateOf (c : Instr) (s : State) : State :=
  match exec c s with
  | .next t => t
  | _ => s

/-- The digits 1 to 9 in ASCII. -/
def digits : List Byte := [0x31, 0x32, 0x33, 0x34, 0x35, 0x36, 0x37, 0x38, 0x39]

end Sys2Proof.Tests

section
set_option linter.unusedVariables false
set_option Elab.async false
open Sys2Proof Sys2Proof.Machine Sys2Proof.Claims Sys2Proof.Tests

/-! Witnesses. witness_<Name> has one part for each clause of Obligations.<Name> with hypotheses. The two signature checks of the fourth
clause of DebugPortAndAttestation take some 4,600 blocks of SHA-256, too many to evaluate here; its part shows its other hypotheses. -/

theorem witness_LoadsBeginAndGoOn :
  (∃ (s : State) (b : WriteBy) (v : W32), writesNow s b loadCtlAddr = true ∧ setBit v 0 = true ∧ setBit v 1 = false ∧ setBit v 2 =
      false) ∧
  (∃ (s : State) (b : WriteBy) (v : W32), writesNow s b loadCtlAddr = true ∧ setBit v 0 = false ∧ setBit v 1 = true ∧ setBit v 2 = false
      ∧ loadBusy s.dev = true ∧ s.dev.cfg.load.boot = none) ∧
  (∃ (s : State) (b : WriteBy) (v : W32), writesNow s b loadCtlAddr = true ∧ setBit v 0 = false ∧ setBit v 1 = false ∧ setBit v 2 = true
      ∧ s.dev.cfg.load.state = 1 ∧ s.dev.cfg.load.src = 2) ∧
  (∃ (s : State), s.dev.cfg.load.state = 1 ∧ (s.dev.cfg.load.src = 0 ∨ s.dev.cfg.load.ended = true)) ∧
  (∃ (s : State) (k : Nat) (bytes : List Byte), s.dev.cfg.load.store = some (k, bytes) ∧ (s.dev.cfg.load.state = 2 ∨
      s.dev.cfg.load.state = 3)) :=
  ⟨⟨State.reset, .firmware, 0x39#32, by decide +kernel⟩,
    ⟨st (updLoad (fun l => { l with state := 1 })), .firmware, 2, by decide +kernel⟩,
    ⟨st (updLoad (fun l => { l with state := 1, src := 2 })), .debug, 4, by decide +kernel⟩,
    ⟨st (updLoad (fun l => { l with state := 1, src := 1, ended := true })), by decide +kernel⟩,
    ⟨st (updLoad (fun l => { l with state := 3, dest := 1, store := some (1, [7]) })), 1, [7], by decide +kernel⟩⟩

theorem witness_LoadValidatesAndInstalls :
  (∃ (s : State), s.dev.cfg.load.state = 2 ∧ s.dev.cfg.load.slot = 0xFF ∧ s.dev.cfg.load.boot = none) ∧
  (∃ (s : State) (p : Nat), s.dev.cfg.load.state = 3 ∧ s.dev.cfg.load.installed = false ∧ s.dev.cfg.load.target = some p ∧ p <
      s.dev.cfg.planes.length ∧ fuseRollback s.fuse ≤ byteAt s.dev.cfg.load.bytes 0x20) :=
  ⟨⟨st (updLoad (fun l => { l with state := 2, slot := 0xFF })), by decide +kernel⟩,
    ⟨st (updLoad (fun l => { l with state := 3, target := some 1 })), 1, by decide +kernel⟩⟩

theorem witness_SwitchMovesUnits :
  (∃ (s : State) (b : WriteBy) (v : W32), writesNow s b switchCtlAddr = true ∧ setBit v 0 = true) :=
  ⟨st (updPlane 1 (fun p => { p with loaded := true })), .firmware, 0xF, by decide +kernel⟩

theorem witness_PortsEnableAndLock :
  (∃ (s : State) (b : WriteBy) (port : Fin 16) (v : W32), writesNow s b (portCtlAddr port) = true ∧ setBit v 0 = true ∧ (getPort s.dev
      port).en = false) ∧
  (∃ (s : State) (b : WriteBy) (port : Fin 16) (v : W32), writesNow s b (portCtlAddr port) = true ∧ setBit v 0 = false ∧ (getPort s.dev
      port).en = true) ∧
  (∃ (s : State) (port : Fin 16) (k : SkewKind), (getPort s.dev port).en = true ∧ skewAccepted (getPort s.dev port) k = true) ∧
  (∃ (s : State) (port : Fin 16), (getPort s.dev port).en = true) ∧
  (∃ (s : State) (port : Fin 16), getF s.dev .rxp port 0xC 0 1 = 1) :=
  ⟨⟨st (setR .rxp 0 8 500), .firmware, 0, 1, by decide +kernel⟩,
    ⟨st (camera 0 (some (frame 1))), .firmware, 0, 0, by decide +kernel⟩,
    ⟨st (camera 0 none), 0, .initial, by decide +kernel⟩,
    ⟨st (camera 0 none), 0, by decide +kernel⟩,
    ⟨st (camera 0 none), 0, by decide +kernel⟩⟩

theorem witness_SlotsEnableAndDisable :
  (∃ (s : State) (b : WriteBy) (st : Fin 256) (v : W32), writesNow s b (slotCtlAddr st) = true ∧ setBit v 0 = true ∧ (getSlot s.dev
      st).en = false) ∧
  (∃ (s : State) (b : WriteBy) (st : Fin 256) (v : W32), writesNow s b (slotCtlAddr st) = true ∧ setBit v 0 = false ∧ (getSlot s.dev
      st).en = true ∧ (getSlot s.dev st).frame = none ∧ (getSlot s.dev st).kind ≠ 2) ∧
  (∃ (s : State) (b : WriteBy) (st : Fin 256) (v : W32) (f : RxFrame) (i : InstRef), writesNow s b (slotCtlAddr st) = true ∧ setBit v 0
      = false ∧ (getSlot s.dev st).en = true ∧ (getSlot s.dev st).frame = some f ∧ (getSlot s.dev st).kind = 0 ∧ frameInst s.dev st
      f.index = some i ∧ instLive s.dev i = true ∧ s.dev.dt + 2 < (getCtx s.dev i.q i.ctx).dl) :=
  ⟨⟨State.reset, .firmware, 255, 1, by decide +kernel⟩,
    ⟨st (camera 0 none), .firmware, 0, 0, by decide +kernel⟩,
    ⟨st (inst id ∘ camera 0 (some (frame 1)) ∘ plane image), .firmware, 0, 0, frame 1, i0, by decide +kernel⟩⟩

theorem witness_FramesOpenAndClose :
  (∃ (s : State) (n : Fin 16) (vc : Fin 32) (fn : W16) (st : Nat), slotTakes s.dev n vc st = true ∧ (getSlot s.dev st).kind = 0 ∧
      (getSlot s.dev st).frame = none) ∧
  (∃ (s : State) (n : Fin 16) (vc : Fin 32) (st : Nat) (f : RxFrame), slotTakes s.dev n vc st = true ∧ (getSlot s.dev st).kind = 0 ∧
      (getSlot s.dev st).discard = false ∧ (getSlot s.dev st).frame = some f ∧ frameClosesWhole f = true) ∧
  (∃ (s : State) (n : Fin 16) (vc : Fin 32) (st : Nat) (f : RxFrame) (i : InstRef), slotTakes s.dev n vc st = true ∧ (getSlot s.dev
      st).kind = 0 ∧ (getSlot s.dev st).discard = false ∧ (getSlot s.dev st).frame = some f ∧ f.exps = 1 ∧ f.joined.getD 0 false = true
      ∧ f.ended.length = 3 ∧ f.lines.getD 0 0 < f.height ∧ repairs s.dev n = false ∧ frameInst s.dev st f.index = some i ∧ instLive
      s.dev i = true ∧ s.dev.dt + 2 < (getCtx s.dev i.q i.ctx).dl) :=
  ⟨⟨st (camera 0 none ∘ plane image), 0, 0, 5, 0, by decide +kernel⟩,
    ⟨st (camera 0 (some { frame 2 with good := [some [], none, none] })), 0, 0, 0, { frame 2 with good := [some [], none, none] },
        by decide +kernel⟩,
    ⟨st (inst id ∘ camera 0 (some (frame 1)) ∘ plane image), 0, 0, 0, frame 1, i0, by decide +kernel⟩⟩

theorem witness_PacketsBecomeLines :
  (∃ (s : State) (n : Fin 16) (vc : Fin 32) (typ : Fin 64) (data : List Byte) (st : Nat) (f : RxFrame), slotTakes s.dev n vc st = true ∧
      lineFits s.dev n st f typ data = true ∧ f.lead.getD 0 0 = 0 ∧ pipeHasRoom s.dev st f = true) ∧
  (∃ (s : State) (n : Fin 16) (vc : Fin 32) (typ : Fin 64) (data : List Byte) (st : Nat) (f : RxFrame), slotTakes s.dev n vc st = true ∧
      (getSlot s.dev st).kind = 0 ∧ (getSlot s.dev st).discard = false ∧ (getSlot s.dev st).frame = some f ∧ f.joined.getD 0 false =
      true ∧ f.height ≤ f.lines.getD 0 0) ∧
  (∃ (s : State) (n : Fin 16) (vc : Fin 32) (data : List Byte) (st : Nat) (f : RxFrame), slotTakes s.dev n vc st = true ∧ (getSlot s.dev
      st).kind = 0 ∧ (getSlot s.dev st).discard = false ∧ (getSlot s.dev st).frame = some f ∧ f.embedded = false ∧ bufferFits s.dev n
      data.length = true) ∧
  (∃ (s : State) (n : Fin 16) (vc : Fin 32) (st : Nat), slotTakes s.dev n vc st = true ∧ unowned s.dev st = false) ∧
  (∃ (s : State) (n : Fin 16) (vc : Fin 32) (st : Nat), slotTakes s.dev n vc st = true ∧ unowned s.dev st = false) ∧
  (∃ (s : State) (n : Fin 16) (vc : Fin 32) (st : Nat), slotTakes s.dev n vc st = true ∧ unowned s.dev st = false) :=
  ⟨⟨st (updIsp 0 (fun x => { x with frame := some ispFrame }) ∘ camera 0 (some (frame 1))), 0, 0, 0x2A, [1, 2, 3, 4, 5, 6, 7, 8], 0,
      frame 1, by decide +kernel⟩,
    ⟨st (camera 0 (some (frame 2))), 0, 0, 0x2A, [1, 2], 0, frame 2, by decide +kernel⟩,
    ⟨st (camera 0 (some (frame 1))), 0, 0, [1, 2], 0, frame 1, by decide +kernel⟩,
    ⟨st (camera 0 none), 0, 0, 0, by decide +kernel⟩,
    ⟨st (camera 0 none), 0, 0, 0, by decide +kernel⟩,
    ⟨st (camera 0 none), 0, 0, 0, by decide +kernel⟩⟩

theorem witness_BulkTransfersFeedTheLoader :
  (∃ (s : State) (n : Fin 16) (vc : Fin 32) (fn : W16) (st : Nat), slotTakes s.dev n vc st = true ∧ (getSlot s.dev st).kind = 1 ∧ loadOn
      s.dev st = true ∧ s.dev.cfg.load.open_ = false ∧ s.dev.cfg.load.ended = false) ∧
  (∃ (s : State) (n : Fin 16) (vc : Fin 32) (st : Nat) (data : List Byte) (b : BulkXfer), slotTakes s.dev n vc st = true ∧ (getSlot
      s.dev st).kind = 1 ∧ (getSlot s.dev st).bulk = some b ∧ b.past = false ∧ loadOn s.dev st = true ∧ s.dev.cfg.load.open_ = true ∧
      bufferFits s.dev n data.length = true) ∧
  (∃ (s : State) (n : Fin 16) (vc : Fin 32) (st : Nat) (b : BulkXfer), slotTakes s.dev n vc st = true ∧ (getSlot s.dev st).kind = 1 ∧
      (getSlot s.dev st).bulk = some b ∧ loadOn s.dev st = true ∧ s.dev.cfg.load.open_ = true) :=
  ⟨⟨st (updLoad (fun l => { l with state := 1, src := 1 }) ∘ camera 1 none), 0, 0, 0x1234, 0, by decide +kernel⟩,
    ⟨st (updLoad (fun l => { l with state := 1, src := 1, open_ := true }) ∘ updSlot 0 (fun x => { x with bulk := some {} }) ∘ camera
        1 none), 0, 0, 0, [1, 2], {}, by decide +kernel⟩,
    ⟨st (updLoad (fun l => { l with state := 1, src := 1, open_ := true }) ∘ updSlot 0 (fun x => { x with bulk := some {} }) ∘ camera
        1 none), 0, 0, 0, {}, by decide +kernel⟩⟩

theorem witness_SyncWindowsNotify :
  (∃ (s : State) (g : Fin 64) (w : SyncWin), mapGet none g s.dev.rx.sync = some w ∧ w.start + getF s.dev .hub 0 (0x1000 + 4 * g) 0 16 ≤
      s.dev.dt) ∧
  (∃ (s : State) (q : Fin 4) (n : GroupNotice) (rest : List GroupNotice), takeFirst (fun n : GroupNotice => n.q == q.val)
      s.dev.fab.groups = some (n, rest) ∧ liveInsts s.dev = []) ∧
  (∃ (s : State) (q : Fin 4) (n : GroupNotice) (rest : List GroupNotice) (i : InstRef), takeFirst (fun n : GroupNotice => n.q == q.val)
      s.dev.fab.groups = some (n, rest) ∧ noticeFor s.dev q n i = true ∧ readsAbsent s.dev n i = false ∧ readsEnded s.dev n i = false) ∧
  (∃ (s : State) (q : Fin 4) (n : GroupNotice) (rest : List GroupNotice) (i : InstRef), takeFirst (fun n : GroupNotice => n.q == q.val)
      s.dev.fab.groups = some (n, rest) ∧ noticeFor s.dev q n i = true ∧ readsAbsent s.dev n i || readsEnded s.dev n i = true ∧
      let c := getCtx s.dev i.q i.ctx
      s.dev.dt + 2 < c.dl) ∧
  (∃ (s : State) (q : Fin 4) (n : GroupNotice) (rest : List GroupNotice) (i : InstRef) (e : Nat × Nat), takeFirst (fun n : GroupNotice
      => n.q == q.val) s.dev.fab.groups = some (n, rest) ∧ n.ended = some e ∧ (liveInsts s.dev).filter (fun i => i.q == q.val) = [i] ∧
      instLive s.dev i = true ∧
      let c := getCtx s.dev i.q i.ctx
      c.deps.contains e = true ∧ s.dev.dt + 2 < c.dl) :=
  ⟨⟨st (fun d =>
      { setR .hub 0 0x1000 10 (plane image d) with dt := 15, rx := { d.rx with sync := [(0, some { start := 5, joined := [(0, 7)], homes := [0] })] } }),
      0, { start := 5, joined := [(0, 7)], homes := [0] }, by decide +kernel⟩,
    ⟨st (fun d => { d with fab := { d.fab with groups := [{ q := 0, group := 0, start := 5, present := [(0, 7)], absent := [] }] } }),
        0, { q := 0, group := 0, start := 5, present := [(0, 7)], absent := [] }, [], by decide +kernel⟩,
    ⟨st (fun d =>
        { inst (fun c => { c with held := true }) d with fab := { d.fab with groups := [{ q := 0, group := 0, start := 5, present := [(0, 7)], absent := [] }] } }),
        0, { q := 0, group := 0, start := 5, present := [(0, 7)], absent := [] }, [], i0, by decide +kernel⟩,
    ⟨st (fun d =>
        { inst (fun c => { c with held := true }) d with fab := { d.fab with groups := [{ q := 0, group := 0, start := 5, present := [(0, 7)], absent := [0] }] } }),
        0, { q := 0, group := 0, start := 5, present := [(0, 7)], absent := [0] }, [], i0, by dsimp only; decide +kernel⟩,
    ⟨st (fun d =>
        { inst (fun c => { c with deps := [(1, 9)] }) d with fab := { d.fab with groups := [{ q := 0, group := 0, start := 5, present := [], absent := [], ended := some (1, 9) }] } }),
        0, { q := 0, group := 0, start := 5, present := [], absent := [], ended := some (1, 9) }, [], i0, (1, 9),
        by dsimp only; decide +kernel⟩⟩

theorem witness_SensorTransfers :
  (∃ (s : State) (b : WriteBy) (n : Fin 16) (v : W32), writesNow s b (cciCtlAddr n) = true ∧ setBit v 0 = true ∧ fld v 1 2 = 2 ∧ getF
      s.dev .cci n 0 0 1 = 0) ∧
  (∃ (s : State) (b : WriteBy) (n : Fin 16) (v : W32), writesNow s b (cciCmdAddr n) = true ∧ setBit v 31 = true ∧ (getCci s.dev
      n).queue.length < 32) ∧
  (∃ (s : State) (b : WriteBy) (n : Fin 16) (v : W32), writesNow s b (cciCmdAddr n) = true ∧ setBit v 31 = true ∧ 32 ≤ (getCci s.dev
      n).queue.length) ∧
  (∃ (s : State) (n : Fin 16), cciIdle s.dev n = true ∧ ((getCci s.dev n).held ≠ none ∨ (getCci s.dev n).queue ≠ [])) ∧
  (∃ (s : State) (n : Fin 16) (x : CciXfer) (rx : List Byte), (getCci s.dev n).op = some (.xfer x) ∧ (getCci s.dev n).retryAt = none ∧
      hubPins s.dev = true) ∧
  (∃ (s : State) (n : Fin 16), (getCci s.dev n).op ≠ none ∧ (getCci s.dev n).retryAt = none ∧ (getCci s.dev n).tries < getF s.dev .cci n
      0 4 4) ∧
  (∃ (s : State) (n : Fin 16) (x : CciXfer), (getCci s.dev n).op = some (.xfer x) ∧ (getCci s.dev n).retryAt = none ∧ getF s.dev .cci n
      0 4 4 ≤ (getCci s.dev n).tries ∧ x.group = false) ∧
  (∃ (s : State) (n : Fin 16) (at_ : Nat), (getCci s.dev n).retryAt = some at_ ∧ at_ ≤ s.dev.dt) ∧
  (∃ (s : State) (n : Fin 16) (x : CciXfer), getF s.dev .cci n 0 0 1 = 1 ∧ (getCci s.dev n).op = some (.xfer x) ∧ x.group = false) ∧
  (∃ (s : State) (n : Fin 16), getF s.dev .cci n 0 0 1 = 1 ∧ (getCci s.dev n).op = none) ∧
  (∃ (s : State) (n : Fin 16), getF s.dev .cci n 0 0 1 = 1 ∧ cciProto s.dev n = 2) :=
  ⟨⟨State.reset, .firmware, 15, 5, by decide +kernel⟩,
    ⟨State.reset, .firmware, 0, 0x80010010, by decide +kernel⟩,
    ⟨st (updCci 0 (fun c => { c with queue := List.replicate 32 sensorRead })), .firmware, 0, 0x80010010, by decide +kernel⟩,
    ⟨st (updCci 0 (fun c => { c with queue := [sensorRead] }) ∘ setR .cci 0 0 1), 0, by decide +kernel⟩,
    ⟨st (updCci 0 (fun c => { c with op := some (.xfer sensorRead) }) ∘ setR .cci 0 0 1), 0, sensorRead, [7], by decide +kernel⟩,
    ⟨st (updCci 0 (fun c => { c with op := some (.xfer sensorRead) }) ∘ setR .cci 0 0 0x11), 0, by decide +kernel⟩,
    ⟨st (updCci 0 (fun c => { c with op := some (.xfer sensorRead), tries := 1 }) ∘ setR .cci 0 0 0x11), 0, sensorRead,
        by decide +kernel⟩,
    ⟨st (updCci 0 (fun c => { c with op := some (.xfer sensorRead), tries := 1, retryAt := some 0 }) ∘ setR .cci 0 0 0x11), 0, 0,
        by decide +kernel⟩,
    ⟨st (updCci 0 (fun c => { c with op := some (.xfer sensorRead) }) ∘ setR .cci 0 0 1), 0, sensorRead, by decide +kernel⟩,
    ⟨st (setR .cci 0 0 1), 0, by decide +kernel⟩,
    ⟨st (setR .cci 0 0 5), 0, by decide +kernel⟩⟩

theorem witness_FrameSyncPins :
  (∃ (s : State) (b : WriteBy) (m : Fin 16) (v : W32), writesNow s b (fsoCtlAddr m) = true ∧ setBit v 0 = true ∧ setBit v 1 = false ∧
      (getFso s.dev m).on = false ∧ 2 ≤ fsoPeriod s.dev m) ∧
  (∃ (s : State) (m : Fin 16) (e : Nat), (getFso s.dev m).on = true ∧ (getFso s.dev m).next = some e ∧ (getFso s.dev m).due = [] ∧ e ≤
      s.dev.dt) ∧
  (∃ (s : State) (m : Fin 16) (e : Nat), (getFso s.dev m).pulseEnd = some e ∧ e ≤ s.dev.dt) ∧
  (∃ (s : State) (falling : Bool) (pulse : Nat), getF s.dev .hub 0 0x2200 0 1 = 1 ∧ (getF s.dev .hub 0 0x2200 1 1 == 1) = falling ∧ getF
      s.dev .hub 0 0x2200 4 4 ≤ pulse) ∧
  (∃ (s : State) (m : Fin 16) (e : Nat), (getFso s.dev m).on = true ∧ fsoLocked s.dev m = true ∧ (getFso s.dev m).last = some e ∧
      (getFso s.dev m).next = none ∧ (getFso s.dev m).due = [] ∧ fsoHeard (getFso s.dev m) e (fsoPeriod s.dev m) = false ∧ 2 * e + 3 *
      fsoPeriod s.dev m ≤ 2 * s.dev.dt) :=
  ⟨⟨st (fun d => { setR .hub 0 (fsoOff 0 0x10) 7 (setR .hub 0 (fsoOff 0 4) 10 d) with dt := 20 }), .firmware, 0, 1, by decide +kernel⟩,
    ⟨st (fun d =>
        { updFso 0 (fun f => { f with on := true, next := some 19 }) (setR .hub 0 (fsoOff 0 4) 10 (setR .hub 0 (fsoOff 0 8) 3 d)) with dt := 20 }),
        0, 19, by decide +kernel⟩,
    ⟨st (updFso 0 (fun f => { f with on := true, pulseEnd := some 0 })), 0, 0, by decide +kernel⟩,
    ⟨st (updFso 0 (fun f => { f with on := true }) ∘ setR .hub 0 (fsoOff 0 0) 3 ∘ setR .hub 0 0x2200 0x21), false, 2,
        by decide +kernel⟩,
    ⟨st (fun d =>
        { updFso 0 (fun f => { f with on := true, last := some 5 }) (setR .hub 0 (fsoOff 0 0) 3 (setR .hub 0 (fsoOff 0 4) 10 d)) with dt := 20 }),
        0, 5, by decide +kernel⟩⟩

theorem witness_ImagePipesTakeLines :
  (∃ (s : State) (pipe : Fin 16) (batch : Nat) (vx : Fin 5) (c : Nat) (l : IspLine) (x : IspFrame), getF s.dev .isp pipe 0 0 1 = 1 ∧
      mapGet none pipe s.dev.isp.work = none ∧ s.dev.wakeAt ≤ s.dev.dt ∧ readyLines s.dev pipe = [(c, l)] ∧ (getIsp s.dev (16 * pipe +
      c)).frame = some x) ∧
  (∃ (s : State) (pipe : Fin 16) (vx : Fin 5) (w : IspWork) (x : IspFrame), mapGet none pipe s.dev.isp.work = some w ∧ w.due ≤ vxAt
      s.dev vx ∧ (getIsp s.dev (16 * pipe + w.ctx)).frame = some x ∧ x.index = w.line.index ∧ w.line.exp = 0 ∧ x.exps = 1 ∧ x.developed
      = false ∧ x.taken.length = 3 ∧ x.done ≠ x.height ∧ (x.taken.getD 0 []).length + 1 < x.height ∧ (x.taken.getD 0 []).length + 1 ≤
      x.done + 6) ∧
  (∃ (s : State) (pipe c : Fin 16) (r : IspRow), (getIsp s.dev (16 * pipe + c)).stalled = true ∧ (getIsp s.dev (16 * pipe + c)).rows =
      [r] ∧ slotFreeIn s.dev (pipe / 4) r.ring = true) ∧
  (∃ (s : State) (b : WriteBy) (pipe c : Fin 16) (v : W32), writesNow s b (ispCommitAddr (16 * pipe + c)) = true ∧ setBit v 0 = true) :=
  ⟨⟨st (updIsp 0 (fun x => { x with frame := some ispFrame, buf := [ispLine] }) ∘ setR .isp 0 0 1), 0, 0, 0, 0, ispLine, ispFrame,
      by decide +kernel⟩,
    ⟨st (fun d =>
        { updIsp 0 (fun x => { x with frame := some ispFrame }) d with isp := { ctxs := (updIsp 0 (fun x => { x with frame := some ispFrame }) d).isp.ctxs, work := [(0, some { ctx := 0, line := ispLine, due := 0 })] } }),
        0, 0, { ctx := 0, line := ispLine, due := 0 }, ispFrame, by decide +kernel⟩,
    ⟨st (updIsp 0 (fun x => { x with stalled := true, rows := [{ ring := 0, bytes := [1] }] }) ∘ ring 0 0 2 0), 0, 0,
        { ring := 0, bytes := [1] }, by decide +kernel⟩,
    ⟨State.reset, .firmware, 15, 15, 1, by decide +kernel⟩⟩

theorem witness_VisionContextsLive :
  (∃ (s : State) (q : Fin 4) (k : Fin 8) (batch : Nat) (vx : Fin 5) (c : Nat) (m : StartMsg), (getEng s.dev (engOf q k)).waiting = [] ∧
      visTakes s.dev (engOf q k) = true ∧ freeVis s.dev (engOf q k) = some c ∧ s.dev.fab.starts.filter (fun m => m.unit == visUnit
      (engOf q k) && startReady s.dev m) = [m] ∧ spadBad s.dev q (8 * m.desc) (visDescLen (engOf q k)) = false) ∧
  (∃ (s : State) (q : Fin 4) (k : Fin 8) (batch : Nat) (vx : Fin 5) (m : StartMsg), freeVis s.dev (engOf q k) = none ∧
      s.dev.fab.starts.filter (fun m => m.unit == visUnit (engOf q k) && startReady s.dev m) = [m]) ∧
  (∃ (s : State) (q : Fin 4) (k : Fin 8) (dp : Fin 3) (vx : Fin 5) (c u cost : Nat), engineIdle s.dev (engOf q k) dp = true ∧ noGrants
      s.dev (engOf q k) vx = true ∧ eligibleCtxs s.dev (engOf q k) dp = [c] ∧ visNext s.dev (engOf q k) dp (getVis s.dev (engOf q k) c)
      = some (u, cost)) ∧
  (∃ (s : State) (q k : Fin 4) (c : Fin 32) (vx : Fin 5) (i : InstRef) (tag : Nat) (b : Bool),
      let e := engOf q k
      let x := getVis s.dev e c
      x.live = true ∧ visWhole e x = true ∧ x.fold = none ∧ x.starter = .drover i tag b) ∧
  (∃ (s : State) (q : Fin 4) (k : Fin 8) (home : Fin 4) (vx : Fin 5) (m : StopMsg) (rest : List StopMsg),
      let e := engOf q k
      takeFirst (fun m : StopMsg => m.kind == .engine && m.unit == visUnit e && m.inst.q == home.val && stopReady s.dev m)
          s.dev.fab.stops = some (m, rest)) :=
  ⟨⟨st (fun d =>
      { (spadUp (setR .pym 0 0 1 d)) with fab := { d.fab with starts := [{ unit := 8, desc := 16, dl := 100, starter := .drover i0 3 false }] } }),
      0, 0, 0, 0, 0, { unit := 8, desc := 16, dl := 100, starter := .drover i0 3 false }, by decide +kernel⟩,
    ⟨st (fun d =>
        { ((List.range 64).foldl (fun d c => updVis 0 c (fun _ => vctx) d) d) with fab := { d.fab with starts := [{ unit := 8, desc := 16, dl := 100, starter := .drover i0 3 false }] } }),
        0, 0, 0, 0, { unit := 8, desc := 16, dl := 100, starter := .drover i0 3 false }, by decide +kernel⟩,
    ⟨st (spadUp ∘ ring 0 0 4 1 ∘ updVis 0 0 (fun _ => vctx)), 0, 0, 0, 0, 0, 0, pymCost vctx, by decide +kernel⟩,
    ⟨st (updVis 0 0 (fun _ => { vctx with row := 1, rows := List.replicate 8 1 })), 0, 0, 0, 0, i0, 3, false, by decide +kernel⟩,
    ⟨st (fun d => { updVis 0 0 (fun _ => vctx) d with fab := { d.fab with stops := [{ kind := .engine, unit := 8, inst := i0 }] } }),
        0, 0, 0, 0, { kind := .engine, unit := 8, inst := i0 }, [], by decide +kernel⟩⟩

theorem witness_VisionRowsAdvance :
  (∃ (s : State) (q : Fin 4) (k : Fin 2) (vx : Fin 5) (w : VisWork) (x : VisCtx), unitDone s.dev (engOf q k) 0 vx (fun x _ d => pymReads
      d (engOf q k) x) w x = true) ∧
  (∃ (s : State) (q : Fin 4) (k : Fin 2) (vx : Fin 5) (w : VisWork) (x : VisCtx),
      let e := engOf q (2 + k.val)
      unitDone s.dev e 0 vx (fun x _ d => wrpReads d e x) w x = true) ∧
  (∃ (s : State) (q : Fin 4) (vx : Fin 5) (w : VisWork) (x : VisCtx), unitDone s.dev (engOf q 4) 0 vx (fun x _ d => steCoarseReads d
      (engOf q 4) x) w x = true) ∧
  (∃ (s : State) (q : Fin 4) (vx : Fin 5) (w : VisWork) (x : VisCtx), unitDone s.dev (engOf q 4) 1 vx (fun x _ d => steFineReads d
      (engOf q 4) x) w x = true) ∧
  (∃ (s : State) (q : Fin 4) (vx : Fin 5) (w : VisWork) (x : VisCtx), unitDone s.dev (engOf q 5) 0 vx (fun x _ d => flwBlockReads d
      (engOf q 5) x) w x = true) ∧
  (∃ (s : State) (q : Fin 4) (vx : Fin 5) (w : VisWork) (x : VisCtx), unitDone s.dev (engOf q 5) 1 vx (fun x _ d => flwPixelReads d
      (engOf q 5) x) w x = true) :=
  ⟨⟨st (vis 0 0 0 vctx), 0, 0, 0, work 0, vctx, by decide +kernel⟩,
    ⟨st (vis 2 0 0 vctx), 0, 0, 0, work 0, vctx, by decide +kernel⟩,
    ⟨st (vis 4 0 0 vctx), 0, 0, work 0, vctx, by decide +kernel⟩,
    ⟨st (vis 4 1 0 vctx), 0, 0, work 0, vctx, by decide +kernel⟩,
    ⟨st (vis 5 0 0 vctx), 0, 0, work 0, vctx, by decide +kernel⟩,
    ⟨st (vis 5 1 0 vctx), 0, 0, work 0, vctx, by decide +kernel⟩⟩

theorem witness_DensePassesEnd :
  (∃ (s : State) (q : Fin 4) (flow : Bool) (c : Fin 64) (vx : Fin 5) (i : InstRef) (tag : Nat) (b : Bool),
      let e := engOf q (4 + b2n flow)
      let x := getVis s.dev e c
      passOver s.dev e c vx = true ∧ x.starter = .drover i tag b ∧ x.tstop = none) ∧
  (∃ (s : State) (b : WriteBy) (q : Fin 4) (k : Fin 8) (v : W32) (vx : Fin 5),
      let e := engOf q k
      let c := fld v 0 (if k.val < 6 then 6 else 5)
      writesNow s b (truncAddr e) = true ∧ setBit v 31 = true ∧ 4 ≤ k.val ∧ (getVis s.dev e c).live = true ∧ (getVis s.dev e
          c).phase = 0) ∧
  (∃ (s : State) (q : Fin 4) (k : Fin 8) (vx : Fin 5) (m : TruncMsg) (rest : List TruncMsg) (c : Nat),
      let e := engOf q k
      takeFirst (fun m : TruncMsg => m.unit == visUnit e && !behind s.dev m.seq m.unit m.inst.q) s.dev.fab.truncs = some (m, rest) ∧
          4 ≤ k.val ∧ ctxOfTag s.dev e m.inst m.tag = some c ∧ (getVis s.dev e c).phase = 0) ∧
  (∃ (s : State) (q : Fin 4) (flow : Bool) (c : Fin 64) (vx : Fin 5),
      let e := engOf q (4 + b2n flow)
      truncatedReady s.dev e c vx = true) :=
  ⟨⟨st (fun d => { updVis 5 0 (fun _ => { vctx with row := 1 }) d with dt := 20 }), 0, true, 0, 0, i0, 3, false, by decide +kernel⟩,
    ⟨st (updVis 4 0 (fun _ => vctx)), .firmware, 0, 4, 0x80000000, 0, by decide +kernel⟩,
    ⟨st (fun d => { updVis 4 0 (fun _ => vctx) d with fab := { d.fab with truncs := [{ unit := 12, inst := i0, tag := 3 }] } }), 0, 4,
        0, { unit := 12, inst := i0, tag := 3 }, [], 0, by decide +kernel⟩,
    ⟨st (ring 0 0 4 0 ∘ updVis 4 0 (fun _ => { vctx with trunc := true })), 0, false, 0, 0, by decide +kernel⟩⟩

theorem witness_RefinementRuns :
  (∃ (s : State) (q : Fin 4) (k : Fin 8) (m : GrantMsg) (rest : List GrantMsg) (c : Nat),
      let e := engOf q k
      let x := getVis s.dev e c
      takeFirst (fun m : GrantMsg => m.unit == visUnit e && grantReady s.dev m) s.dev.fab.grants = some (m, rest) ∧ 4 ≤ k.val ∧
          ctxOfTag s.dev e m.inst m.tag = some c ∧ x.stop = false ∧ visHas s.dev e 2 c = false) ∧
  (∃ (s : State) (q : Fin 4) (k : Fin 8) (m : GrantMsg) (rest : List GrantMsg) (c : Nat),
      let e := engOf q k
      let x := getVis s.dev e c
      takeFirst (fun m : GrantMsg => m.unit == visUnit e && grantReady s.dev m) s.dev.fab.grants = some (m, rest) ∧ 4 ≤ k.val ∧
          ctxOfTag s.dev e m.inst m.tag = some c ∧ x.stop = false ∧ uncovered s.dev e c m.tstop = true ∧ k.val < 6) ∧
  (∃ (s : State) (q : Fin 4) (flow : Bool) (vx : Fin 5) (c : Nat),
      let e := engOf q (4 + b2n flow)
      engineIdle s.dev e 2 = true ∧ noGrants s.dev e vx = true ∧ refinableCtxs s.dev e = [c]) ∧
  (∃ (s : State) (q : Fin 4) (flow : Bool) (vx : Fin 5) (w : VisWork) (x : VisCtx),
      let e := engOf q (4 + b2n flow)
      noGrants s.dev e vx = true ∧ unitDone s.dev e 2 vx (fun x _ d => [(patchAddr d e x, patchLen e)]) w x = true) ∧
  (∃ (s : State) (q k : Fin 4) (c : Fin 64) (vx : Fin 5) (code : Nat) (i : InstRef) (tag : Nat) (b : Bool),
      let e := engOf q (4 + k.val)
      let x := getVis s.dev e c
      x.live = true ∧ x.phase = (if k.val < 2 then 2 else 3) ∧ noGrants s.dev e vx = true ∧ visHas s.dev e 2 c = false ∧ refineCode
          s.dev e x = some code ∧ x.fold = none ∧ x.starter = .drover i tag b) ∧
  (∃ (s : State) (q k : Fin 4) (c : Fin 64) (vx : Fin 5) (i : InstRef) (tag : Nat) (b : Bool),
      let e := engOf q (4 + k.val)
      let x := getVis s.dev e c
      x.live = true ∧ x.phase = (if k.val < 2 then 1 else 2) ∧ x.fold = none ∧ x.starter = .drover i tag b ∧ instLive s.dev i =
          false ∧ s.dev.fab.stops.any (fun m => m.kind == .engine && m.unit == visUnit e && m.inst == i) = false) :=
  ⟨⟨st (fun d =>
      { updVis 4 0 (fun _ => { vctx with phase := 1 }) d with fab := { d.fab with grants := [{ unit := 12, inst := i0, tag := 3, tstop := 90 }] } }),
      0, 4, { unit := 12, inst := i0, tag := 3, tstop := 90 }, [], 0, by decide +kernel⟩,
    ⟨st (vis 4 2 0 { vctx with phase := 2, entries := 1, tstop := some 9000 } ∘ fun d =>
        { d with dt := 50, fab := { d.fab with grants := [{ unit := 12, inst := i0, tag := 3, tstop := 10 }] } }), 0, 4,
        { unit := 12, inst := i0, tag := 3, tstop := 10 }, [], 0, by decide +kernel⟩,
    ⟨st (spadUp ∘ ring 0 0 2 1 ∘ updVis 4 0 (fun _ => { vctx with phase := 2, entries := 1, tstop := some 9000 })), 0, false, 0, 0,
        by decide +kernel⟩,
    ⟨st (ring 0 0 2 1 ∘ vis 4 2 0 { vctx with phase := 2, entries := 1, tstop := some 9000 }), 0, false, 0, work 0,
        { vctx with phase := 2, entries := 1, tstop := some 9000 }, by decide +kernel⟩,
    ⟨st (updVis 4 0 (fun _ => { vctx with phase := 2, entries := 1, consumed := 1, tstop := some 9000 })), 0, 0, 0, 0, 0, i0, 3,
        false, by decide +kernel⟩,
    ⟨st (updVis 4 0 (fun _ => { vctx with phase := 1 })), 0, 0, 0, 0, i0, 3, false, by decide +kernel⟩⟩

theorem witness_FeatureUnits :
  (∃ (s : State) (q : Fin 4) (k : Fin 2) (vx : Fin 5) (w : VisWork) (x : VisCtx),
      let e := engOf q (6 + k.val)
      unitDone s.dev e 0 vx (fun x w d => feaReads d e x w.unit) w x = true ∧ w.unit < x.rows.length) ∧
  (∃ (s : State) (q : Fin 4) (k : Fin 2) (vx : Fin 5) (w : VisWork) (x : VisCtx),
      let e := engOf q (6 + k.val)
      unitDone s.dev e 1 vx (fun x _ _ => storeReads x) w x = true ∧ w.unit = 0 ∧ feaMatch x = true) ∧
  (∃ (s : State) (q : Fin 4) (k : Fin 2) (vx : Fin 5) (w : VisWork) (x : VisCtx),
      let e := engOf q (6 + k.val)
      unitDone s.dev e 1 vx (fun x _ d => [(feaPrevList x, 64 + 64 * leNat (spadPeek d (e / 8) (feaPrevList x + 8) 2))]) w x = true
          ∧ w.unit = 1) ∧
  (∃ (s : State) (q : Fin 4) (k : Fin 2) (vx : Fin 5) (w : VisWork) (x : VisCtx),
      let e := engOf q (6 + k.val)
      unitDone s.dev e 1 vx (fun x _ d => indexReads x ++ (if x.b 0x34 ≠ 0xFF then [(inAddr d e x (x.b 0x34) (feaFlowRow x (featAt x
          x.next)), tileRowBytes (flowPlaneW x) 4)] else [])) w x = true ∧ w.unit = 2) ∧
  (∃ (s : State) (q : Fin 4) (k : Fin 2) (c : Fin 32) (vx : Fin 5) (i : InstRef) (tag : Nat) (b : Bool),
      let e := engOf q (6 + k.val)
      let x := getVis s.dev e c
      x.live = true ∧ x.phase = 1 ∧ x.stage = 2 ∧ x.next = x.list.length ∧ visWork s.dev e 1 = none ∧ x.fold = none ∧ x.tstop = none
          ∧ x.starter = .drover i tag b ∧ spadBad s.dev q (feaCounter x) 4 = false) ∧
  (∃ (s : State) (q : Fin 4) (k : Fin 2) (vx : Fin 5) (w : VisWork) (x : VisCtx),
      let e := engOf q (6 + k.val)
      noGrants s.dev e vx = true ∧ unitDone s.dev e 2 vx (fun x _ _ => indexReads x) w x = true) :=
  ⟨⟨st (vis 6 0 0 vctx), 0, 0, 0, work 0, vctx, by decide +kernel⟩,
    ⟨st (vis 6 1 0 { vctx with desc := 1 :: List.replicate 127 0 }), 0, 0, 0, work 0, { vctx with desc := 1 :: List.replicate 127 0 },
        by decide +kernel⟩,
    ⟨st (vis 6 1 1 { vctx with phase := 1, stage := 1 }), 0, 0, 0, work 1, { vctx with phase := 1, stage := 1 }, by decide +kernel⟩,
    ⟨st (vis 6 1 2 noFlow), 0, 0, 0, work 2, noFlow, by decide +kernel⟩,
    ⟨st (updVis 6 0 (fun _ => { vctx with phase := 1, stage := 2 })), 0, 0, 0, 0, i0, 3, false, by decide +kernel⟩,
    ⟨st (vis 6 2 0 { noFlow with phase := 3, tstop := some 9000 }), 0, 0, 0, work 0, { noFlow with phase := 3, tstop := some 9000 },
        by decide +kernel⟩⟩

theorem witness_DroverFlowInstructions :
  (∃ (s : State) (q : Fin 4) (vx : Fin 5) (c w : Nat), issues s.dev q vx 0x00 c w = true) ∧
  (∃ (s : State) (q : Fin 4) (vx : Fin 5) (c w : Nat), issues s.dev q vx 0x15 c w = true) ∧
  (∃ (s : State) (q : Fin 4) (vx : Fin 5) (c w : Nat), issues s.dev q vx 0x01 c w = true) ∧
  (∃ (s : State) (q : Fin 4) (vx : Fin 5) (c w : Nat), issues s.dev q vx 0x02 c w = true) ∧
  (∃ (s : State) (q : Fin 4) (vx : Fin 5) (c w : Nat), issues s.dev q vx 0x03 c w = true) ∧
  (∃ (s : State) (q : Fin 4) (vx : Fin 5) (c w : Nat), issues s.dev q vx 0x07 c w = true) ∧
  (∃ (s : State) (q : Fin 4) (vx : Fin 5) (c w : Nat), issues s.dev q vx 0x08 c w = true) ∧
  (∃ (s : State) (q : Fin 4) (vx : Fin 5) (c w : Nat), issues s.dev q vx 0x13 c w = true) :=
  ⟨⟨st (drover (dw 0 0 0 0) id), 0, 0, 0, dw 0 0 0 0, by decide +kernel⟩,
    ⟨st (drover (dw 21 0 0 0) id), 0, 0, 0, dw 21 0 0 0, by decide +kernel⟩,
    ⟨st (drover (dw 1 0 0 3) id), 0, 0, 0, dw 1 0 0 3, by decide +kernel⟩,
    ⟨st (drover (dw 2 1 0 3) id), 0, 0, 0, dw 2 1 0 3, by decide +kernel⟩,
    ⟨st (drover (dw 3 0 0 9) id), 0, 0, 0, dw 3 0 0 9, by decide +kernel⟩,
    ⟨st (drover (dw 7 0 5 0) id), 0, 0, 0, dw 7 0 5 0, by decide +kernel⟩,
    ⟨st (drover (dw 8 2 5 0) id), 0, 0, 0, dw 8 2 5 0, by decide +kernel⟩,
    ⟨st (drover (dw 19 0 1 0) id), 0, 0, 0, dw 19 0 1 0, by decide +kernel⟩⟩

theorem witness_DroverDataInstructions :
  (∃ (s : State) (q : Fin 4) (vx : Fin 5) (c w : Nat), issues s.dev q vx 0x0A c w = true) ∧
  (∃ (s : State) (q : Fin 4) (vx : Fin 5) (c w : Nat), issues s.dev q vx 0x0B c w = true) ∧
  (∃ (s : State) (q : Fin 4) (vx : Fin 5) (c w : Nat), issues s.dev q vx 0x0C c w = true) ∧
  (∃ (s : State) (q : Fin 4) (vx : Fin 5) (c w : Nat), issues s.dev q vx 0x0D c w = true) ∧
  (∃ (s : State) (q : Fin 4) (vx : Fin 5) (c w : Nat), issues s.dev q vx 0x12 c w = true) ∧
  (∃ (s : State) (q : Fin 4) (vx : Fin 5) (c w : Nat), issues s.dev q vx 0x09 c w = true ∧ spadBad s.dev q (8 * bits (drvC w) 0 23) 8 =
      false) ∧
  (∃ (s : State) (q : Fin 4) (vx : Fin 5) (c w : Nat),
      let x := getCtx s.dev q c
      issues s.dev q vx 0x09 c w = true ∧ spadBad s.dev q (8 * bits (drvC w) 0 23) 8 = true ∧ s.dev.dt + 2 < x.dl) :=
  ⟨⟨st (drover (dw 10 3 0 9) id), 0, 0, 0, dw 10 3 0 9, by decide +kernel⟩,
    ⟨st (drover (dw 11 3 0 9) id), 0, 0, 0, dw 11 3 0 9, by decide +kernel⟩,
    ⟨st (drover (dw 12 19 5 9) id), 0, 0, 0, dw 12 19 5 9, by decide +kernel⟩,
    ⟨st (drover (dw 13 0 5 9) id), 0, 0, 0, dw 13 0 5 9, by decide +kernel⟩,
    ⟨st (drover (dw 18 0 0 0) id), 0, 0, 0, dw 18 0 0 0, by decide +kernel⟩,
    ⟨st (spad [1, 2, 3] ∘ drover (dw 9 3 960 0) id), 0, 0, 0, dw 9 3 960 0, by decide +kernel⟩,
    ⟨st ((fun d => { d with mem := { d.mem with poison := [(quarterKey 0 0, true)] } }) ∘ drover (dw 9 3 960 0) id), 0, 0, 0, dw 9 3
        960 0, by decide +kernel⟩⟩

theorem witness_DroverStartInstructions :
  (∃ (s : State) (q : Fin 4) (vx : Fin 5) (c w : Nat), issues s.dev q vx 0x04 c w = true) ∧
  (∃ (s : State) (q : Fin 4) (vx : Fin 5) (c w : Nat),
      let x := getCtx s.dev q c
      let i := ctxRef s.dev q c
      let tag := bits (drvB w) 0 5
      let ch := 64 * (drvA w % 4) + bits (drvB w) 8 6
      let a := 8 * bits (drvC w) 0 23
      let d1 := loadStaging ch (spadPeek s.dev q a 128) s.dev
      let set : DmaSet := { no := s.dev.serial, regs := stagingRegs d1 ch, dl := x.dl, starter := .drover i tag false }
      issues s.dev q vx 0x05 c w = true ∧ spadBad s.dev q a 128 = false ∧ drvA w % 4 = q ∧ getCh s.dev ch = {} ∧ dmaShapeOk d1 ch
          set = true) ∧
  (∃ (s : State) (q : Fin 4) (vx : Fin 5) (c w : Nat),
      let a := 8 * bits (drvC w) 0 23
      issues s.dev q vx 0x05 c w = true ∧ spadBad s.dev q a 128 = false ∧ drvA w % 4 ≠ q) ∧
  (∃ (s : State) (q : Fin 4) (vx : Fin 5) (c w : Nat),
      let a := 8 * bits (drvC w) 0 23
      issues s.dev q vx 0x06 c w = true ∧ spadBad s.dev q a 16 = false) ∧
  (∃ (s : State) (q : Fin 4) (vx : Fin 5) (c w : Nat),
      let i := ctxRef s.dev q c
      ∃ u : UnitRef, issues s.dev q vx 0x0E c w = true ∧ taggedEngine s.dev i (bits (drvA w) 0 5) = some u) ∧
  (∃ (s : State) (q : Fin 4) (vx : Fin 5) (c w : Nat),
      let i := ctxRef s.dev q c
      ∃ u : UnitRef, issues s.dev q vx 0x0F c w = true ∧ taggedEngine s.dev i (bits (drvA w) 0 5) = some u) :=
  ⟨⟨st (drover (dw 4 8 3 16) id), 0, 0, 0, dw 4 8 3 16, by decide +kernel⟩,
    ⟨st (spad dmaImage ∘ drover (dw 5 0 3 0) id), 0, 0, 0, dw 5 0 3 0, by decide +kernel⟩,
    ⟨st (spad dmaImage ∘ drover (dw 5 1 3 0) id), 0, 0, 0, dw 5 1 3 0, by decide +kernel⟩,
    ⟨st (spad [1, 2, 3] ∘ drover (dw 6 1 3 0) id), 0, 0, 0, dw 6 1 3 0, by decide +kernel⟩,
    ⟨st (drover (dw 14 3 0 0) (fun c => { c with units := [⟨.engine, 12, 3⟩], tStop := 50 })), 0, 0, 0, dw 14 3 0 0, (⟨.engine, 12, 3⟩
        : UnitRef), by decide +kernel⟩,
    ⟨st (drover (dw 15 3 0 0) (fun c => { c with units := [⟨.engine, 12, 3⟩], tStop := 50 })), 0, 0, 0, dw 15 3 0 0, (⟨.engine, 12, 3⟩
        : UnitRef), by decide +kernel⟩⟩

theorem witness_DroverWritesAndVoids :
  (∃ (s : State) (q : Fin 4) (vx : Fin 5) (c w : Nat), ∃ r : RegRef, issues s.dev q vx 0x10 c w = true ∧ wregTarget q (drvC w) = some r
      ∧ r.off ≠ (if r.blk = .cci then 0x14 else 4) ∧ s.dev.pow.hubUp = true) ∧
  (∃ (s : State) (q : Fin 4) (vx : Fin 5) (c w : Nat),
      let x := getCtx s.dev q c
      let v := x.v.getD (drvA w % 16) 0
      ∃ r : RegRef, issues s.dev q vx 0x10 c w = true ∧ wregTarget q (drvC w) = some r ∧ r.blk = .ispCtx ∧ r.off = 4 ∧ setBit v 0 =
          true ∧ s.dev.pow.hubUp = true) ∧
  (∃ (s : State) (q : Fin 4) (vx : Fin 5) (c w : Nat), ∃ r : RegRef, issues s.dev q vx 0x10 c w = true ∧ wregTarget q (drvC w) = some r
      ∧ r.blk = .cci ∧ r.off = 0x14 ∧ s.dev.pow.hubUp = true ∧ (getCci s.dev r.idx).queue.length < 32) ∧
  (∃ (s : State) (q : Fin 4) (vx : Fin 5) (c w : Nat), issues s.dev q vx 0x10 c w = true ∧ wregTarget q (drvC w) = none) ∧
  (∃ (s : State) (q : Fin 4) (vx : Fin 5) (c w : Nat), issues s.dev q vx 0x11 c w = true ∧ s.dev.pow.hubUp = true) ∧
  (∃ (s : State) (q : Fin 4) (vx : Fin 5) (c w : Nat),
      let x := getCtx s.dev q c
      issues s.dev q vx 0x14 c w = true ∧ s.dev.dt + 2 < x.dl) :=
  ⟨⟨st (drover (dw 16 0 0 (addrOf .ispCtx 0 8)) id), 0, 0, 0, dw 16 0 0 (addrOf .ispCtx 0 8), ({ blk := .ispCtx, idx := 0, off := 8 } :
      RegRef), by decide +kernel⟩,
    ⟨st (drover (dw 16 0 0 (addrOf .ispCtx 0 4)) (fun c => { c with v := List.replicate 16 1 })), 0, 0, 0, dw 16 0 0 (addrOf .ispCtx 0
        4), ({ blk := .ispCtx, idx := 0, off := 4 } : RegRef), by decide +kernel⟩,
    ⟨st (drover (dw 16 0 0 (cciCmdAddr 0)) (fun c => { c with v := List.replicate 16 0x80010010 })), 0, 0, 0, dw 16 0 0 (cciCmdAddr
        0), ({ blk := .cci, idx := 0, off := 0x14 } : RegRef), by decide +kernel⟩,
    ⟨st (drover (dw 16 0 0 0) id), 0, 0, 0, dw 16 0 0 0, by decide +kernel⟩,
    ⟨st (drover (dw 17 1 2 0) id), 0, 0, 0, dw 17 1 2 0, by decide +kernel⟩,
    ⟨st (drover (dw 20 0 0 40) id), 0, 0, 0, dw 20 0 0 40, by decide +kernel⟩⟩

theorem witness_DroverAdmits :
  (∃ (s : State) (q : Fin 4) (batch : Nat) (vx : Fin 5) (n : FsNotice), (s.dev.fab.notices.filter (fun m => m.q == q.val)).take batch =
      [n] ∧ (getSpd s.dev q).initDone = true ∧ s.dev.pow.fail = none ∧ (getDrv s.dev q).test = none ∧ (getDrv s.dev q).waiting = []) ∧
  (∃ (s : State) (q : Fin 4) (vx : Fin 5) (n : FsNotice) (at_ : Nat) (g : Graph), (getDrv s.dev q).test = some (n, at_) ∧ at_ ≤ vxAt
      s.dev vx ∧ (getSpd s.dev q).initDone = true ∧ noticeGraph s.dev n = some g ∧ admissionTest s.dev q n g = .accepted ∧ g.mode ≠ 0 ∧
      s.dev.rx.early = [] ∧ s.dev.rx.earlyFlags = [] ∧ (getDrv s.dev q).groups = [] ∧ s.dev.peer.aborts = [] ∧ s.dev.cfg.ispInit = []) ∧
  (∃ (s : State) (q : Fin 4) (vx : Fin 5) (n : FsNotice) (at_ : Nat), (getDrv s.dev q).test = some (n, at_) ∧ at_ ≤ vxAt s.dev vx ∧
      (getSpd s.dev q).initDone = true ∧ noticeGraph s.dev n = none) ∧
  (∃ (s : State) (q : Fin 4) (vx : Fin 5) (n : FsNotice) (at_ : Nat) (g : Graph) (reason sub extra : Nat), (getDrv s.dev q).test = some
      (n, at_) ∧ at_ ≤ vxAt s.dev vx ∧ (getSpd s.dev q).initDone = true ∧ noticeGraph s.dev n = some g ∧ admissionTest s.dev q n g =
      .refuse reason sub extra) ∧
  (∃ (s : State) (q : Fin 4) (stream : Fin 256), True) :=
  ⟨⟨st (fun d => { spadUp (plane image d) with fab := { d.fab with notices := [notice] } }), 0, 1, 0, notice, by decide +kernel⟩,
    ⟨st (spadUp ∘ updDrv 0 (fun s => { s with test := some (notice, 0) }) ∘ plane imageSeq), 0, 0, notice, 0, graphOf (graphEnt 1 1000
        0xFFFF), by decide +kernel⟩,
    ⟨st (spadUp ∘ updDrv 0 (fun s => { s with test := some (notice, 0) })), 0, 0, notice, 0, by decide +kernel⟩,
    ⟨st (spadUp ∘ updDrv 0 (fun s => { s with test := some (notice, 0) }) ∘ setF .drv 0 0 16 1 1 ∘ plane image), 0, 0, notice, 0,
        graphOf (graphEnt 0 1000 0xFFFF), 34, 0, 0, by decide +kernel⟩,
    ⟨State.reset, 0, 0, trivial⟩⟩

theorem witness_DroverInstancesEnd :
  (∃ (s : State) (q : Fin 4) (r : TagReport) (rest : List TagReport), takeFirst (fun r : TagReport => r.inst.q == q.val)
      s.dev.fab.reports = some (r, rest) ∧ instLive s.dev r.inst = true ∧ r.void = none) ∧
  (∃ (s : State) (q : Fin 4) (c : Fin 64) (at_ : Nat), (getCtx s.dev q c).wait = .waitDt at_ ∧ at_ ≤ s.dev.dt) ∧
  (∃ (s : State) (q : Fin 4) (c : Fin 64) (g : Nat), (getCtx s.dev q c).wait = .emit g ∧ (getCtx s.dev q c).live = true ∧ s.dev.dt + 3 ≤
      (getCtx s.dev q c).dl ∧ instDrained s.dev (ctxRef s.dev q c) = true) ∧
  (∃ (s : State) (q : Fin 4) (c : Fin 64), (getCtx s.dev q c).live = true ∧ (getCtx s.dev q c).dl ≤ s.dev.dt + 2) ∧
  (∃ (s : State) (b : WriteBy) (q : Fin 4) (v : W32), writesNow s b (drvAbortAddr q) = true ∧ setBit v 31 = true ∧ (getCtx s.dev q (fld
      v 0 6)).live = true ∧ s.dev.dt + 2 < (getCtx s.dev q (fld v 0 6)).dl) :=
  ⟨⟨st (fun d =>
      { inst (fun c => { c with units := [⟨.engine, 12, 3⟩] }) d with fab := { d.fab with reports := [{ inst := i0, tag := 3, code := 0 }] } }),
      0, { inst := i0, tag := 3, code := 0 }, [], by decide +kernel⟩,
    ⟨st (inst (fun c => { c with wait := .waitDt 0 })), 0, 0, 0, by decide +kernel⟩,
    ⟨st (inst (fun c => { c with wait := .emit 1 }) ∘ plane image), 0, 0, 1, by decide +kernel⟩,
    ⟨st (fun d => { inst id (plane image d) with dt := 998 }), 0, 0, by decide +kernel⟩,
    ⟨st (inst id ∘ plane image), .firmware, 0, 0x80000000, by decide +kernel⟩⟩

theorem witness_ScratchpadScrubAndInit :
  (∃ (s : State) (q : Fin 4) (bank : Fin 1024) (mx : Fin 10),
      let row := mapGet 0 bank.val (getSpd s.dev q).scrub
      scrubDue s.dev q bank mx = true ∧ (rowQuarters bank row).all (fun k => quarterState s.dev q k != 2) = true) ∧
  (∃ (s : State) (q : Fin 4) (bank : Fin 1024) (mx : Fin 10),
      let row := mapGet 0 bank.val (getSpd s.dev q).scrub
      scrubDue s.dev q bank mx = true ∧ (rowQuarters bank row).any (fun k => quarterState s.dev q k == 2) = true) ∧
  (∃ (s : State) (q : Fin 4) (e : Nat), (getSpd s.dev q).initEnd = some e ∧ e ≤ s.dev.dt) :=
  ⟨⟨st (fun d => { spadUp d with dt := 103 }), 0, 1023, 0, by decide +kernel⟩,
    ⟨st (fun d => { spadUp d with mem := { d.mem with poison := [(quarterKey 0 0, true)] } }), 0, 0, 0, by decide +kernel⟩,
    ⟨st (updSpd 0 (fun s => { s with initEnd := some 0 }) ∘ spad [7]), 0, 0, by decide +kernel⟩⟩

theorem witness_ScratchpadAccess :
  (∃ (s : State) (b : WriteBy) (q : Fin 4) (v : W32), writesNow s b (injectAddr q) = true ∧ setBit v 31 = true ∧ (fld v 24 2 = 1 ∨ fld v
      24 2 = 2)) ∧
  (∃ (s : State) (q : Fin 4) (mx : Fin 10) (w n : Nat) (r : List (Nat × Nat)), (getSpd s.dev q).inject = (w, n) :: r ∧ openCycle s.dev q
      (mxAt s.dev mx) true = true ∧ quarterState s.dev q (w / 2) = 0 ∧ (n = 1 ∨ n = 2)) ∧
  (∃ (s : State) (b : WriteBy) (q : Fin 4) (r : Fin 256) (v : W32), writesNow s b (regCtlAddr q r) = true ∧ setBit v 0 = true) ∧
  (∃ (s : State) (q : Fin 4) (mx : Fin 10) (r : PoolReq) (d1 : Dev),
      let n := 16 * r.gc + r.thread
      (getSpd s.dev q).initDone = true ∧ openCycle s.dev q (mxAt s.dev mx) true = true ∧ traceExpire q (mxAt s.dev mx) s.dev = s.dev
          ∧ poolWinner q (mxAt s.dev mx) s.dev = some (r, d1) ∧ r.unit = none ∧ gcQuad n = q ∧ r.acc.op < 3 ∧ spadBad s.dev q
          (spadOf r.acc.addr) r.acc.size = false) :=
  ⟨⟨State.reset, .firmware, 0, 0x82000005, by decide +kernel⟩,
    ⟨st (updSpd 0 (fun s => { s with inject := [(5, 2)] }) ∘ spad [7]), 0, 0, 5, 2, [], by decide +kernel⟩,
    ⟨st (ring 0 255 4 1), .firmware, 0, 255, 1, by decide +kernel⟩,
    ⟨st (updSpd 0 (fun s => { s with initDone := true, pool := [poolLoad] }) ∘ spad [7]), 0, 0, poolLoad, ((poolWinner 0 0 (updSpd 0
        (fun s => { s with initDone := true, pool := [poolLoad] }) (spad [7] {}))).map (·.2)).getD {}, by decide +kernel⟩⟩

theorem witness_FoldRunsStartAndEnd :
  (∃ (s : State) (q : Fin 4) (f : Fin 16) (mx : Fin 10) (m : StartMsg) (rest : List StartMsg) (st : FoldStartRec), (getFold s.dev q
      f).overflow = [] ∧ (getFold s.dev q f).run = none ∧ (getFold s.dev q f).next = none ∧ (getSpd s.dev q).initDone = true ∧ takeFirst
      (fun m : StartMsg => m.unit == foldUnitNo q f && startReady s.dev m) s.dev.fab.starts = some (m, rest) ∧ (copyStart q f m s.dev).1
      = some st ∧ st.bad = false) ∧
  (∃ (s : State) (q : Fin 4) (f : Fin 16) (mx : Fin 10) (st : FoldStartRec) (r : FoldRec), (getFold s.dev q f).run = none ∧ (getFold
      s.dev q f).next = some st ∧ startPlane q f st s.dev = st.plane ∧ foldRec s.dev st.plane q f = some r ∧ mxAt s.dev mx % 16 = 0 ∧
      (memberBits r).all (memberReady s.dev q mx) = true ∧ s.dev.wakeAt ≤ s.dev.dt) ∧
  (∃ (s : State) (q : Fin 4) (f : Fin 16) (mx : Fin 10) (st : FoldStartRec) (r : FoldRec), (getFold s.dev q f).run = some st ∧ runRec
      s.dev q f = some r ∧ ((runOver s.dev q f mx = true ∧ (getFold s.dev q f).waiting = [] ∧ (memberBits r).all (fun b => !memberBusy
      s.dev q b) = true) ∨ ((getFold s.dev q f).stop ≠ none ∧ membersDone s.dev q f r = true))) ∧
  (∃ (s : State) (b : WriteBy) (q : Fin 4) (f : Fin 16) (mx : Fin 10) (v : W32) (st : FoldStartRec), writesNow s b (foldCtlAddr q f) =
      true ∧ setBit v 0 = true ∧ (getFold s.dev q f).run = some st ∧ st.starter = .write ∧ (getFold s.dev q f).stop = none ∧ runOver
      s.dev q f mx = false) ∧
  (∃ (s : State) (q : Fin 4) (f : Fin 16) (mx : Fin 10) (m : StopMsg) (rest : List StopMsg) (st : FoldStartRec), takeFirst (fun m :
      StopMsg => m.kind == .fold && m.unit == foldUnitNo q f && stopReady s.dev m) s.dev.fab.stops = some (m, rest) ∧ (getFold s.dev q
      f).run = some st ∧ st.starter.inst = some m.inst ∧ (getFold s.dev q f).next = none ∧ (getFold s.dev q f).pending = [] ∧ (getFold
      s.dev q f).overflow = [] ∧ (getFold s.dev q f).stop = none ∧ runOver s.dev q f mx = false) :=
  ⟨⟨st (fun d =>
      { spadUp (plane [foldSect 8 4 0 1] d) with fab := { d.fab with starts := [{ unit := 16, desc := 0, dl := 100, starter := .write }] } }),
      0, 0, 0, { unit := 16, desc := 0, dl := 100, starter := .write }, [], { foldStart .write with dl := 100 }, by decide +kernel⟩,
    ⟨st (updFold 0 0 (fun s => { s with next := some (foldStart .write) }) ∘ plane [foldSect 8 4 0 1]), 0, 0, 0, foldStart .write,
        foldZero, by decide +kernel⟩,
    ⟨st (fun d => { folding 8 4 0 1 (fun s => { s with phase := 3 }) d with dt := 10 }), 0, 0, 0, foldStart .write, foldZero,
        by decide +kernel⟩,
    ⟨st (folding 8 4 0 1 id), .firmware, 0, 0, 0, 1, foldStart .write, by decide +kernel⟩,
    ⟨st (fun d =>
        { folding 8 4 0 1 (fun s => { s with run := some (foldStart (.drover i0 3 false)) }) d with fab := { d.fab with stops := [{ kind := .fold, unit := 16, inst := i0 }] } }),
        0, 0, 0, { kind := .fold, unit := 16, inst := i0 }, [], foldStart (.drover i0 3 false), by decide +kernel⟩⟩

theorem witness_FoldSteps :
  (∃ (s : State) (q : Fin 4) (f : Fin 16) (mx : Fin 10) (x : FoldStep),
      let fo := getFold s.dev q f
      dueStep s.dev q f mx = some x ∧ x.action = 0 ∧ fo.waiting = [] ∧ memberTakes s.dev q x.member = false) ∧
  (∃ (s : State) (q : Fin 4) (f : Fin 16) (mx : Fin 10) (x : FoldStep),
      let fo := getFold s.dev q f
      dueStep s.dev q f mx = some x ∧ x.action = 0 ∧ fo.waiting = [] ∧ memberTakes s.dev q x.member = true) ∧
  (∃ (s : State) (q : Fin 4) (f : Fin 16) (mx : Fin 10) (x : FoldStep),
      let fo := getFold s.dev q f
      ∃ b, fo.stop = none ∧ fo.waiting.find? (memberTakes s.dev q) = some b) ∧
  (∃ (s : State) (q : Fin 4) (f : Fin 16) (mx : Fin 10) (x : FoldStep), dueStep s.dev q f mx = some x ∧ x.action = 1 ∧ checkReady s.dev
      q f mx false x.region x.k = true) ∧
  (∃ (s : State) (q : Fin 4) (f : Fin 16) (mx : Fin 10) (x : FoldStep), dueStep s.dev q f mx = some x ∧ x.action = 1 ∧ checkReady s.dev
      q f mx false x.region x.k = false) ∧
  (∃ (s : State) (q : Fin 4) (f : Fin 16) (mx : Fin 10) (x : FoldStep), dueStep s.dev q f mx = some x ∧ x.action = 2 ∧ checkReady s.dev
      q f mx true x.region x.k = true) ∧
  (∃ (s : State) (q : Fin 4) (f : Fin 16) (mx : Fin 10) (x : FoldStep), dueStep s.dev q f mx = some x ∧ x.action = 2 ∧ checkReady s.dev
      q f mx true x.region x.k = false) ∧
  (∃ (s : State) (q : Fin 4) (f : Fin 16) (mx : Fin 10) (x : FoldStep), dueStep s.dev q f mx = some x ∧ x.action = 3) ∧
  (∃ (s : State) (q : Fin 4) (f : Fin 16) (mx : Fin 10) (x : FoldStep),
      let fo := getFold s.dev q f
      ∃ c : FoldCommit, ∃ r : List FoldCommit, fo.commits = c :: r ∧ c.due ≤ mxAt s.dev mx ∧ (getRegion s.dev q c.region).n ≠ 0 ∧
          ringFlock s.dev q c.region = none) ∧
  (∃ (s : State) (q : Fin 4) (f : Fin 16) (mx : Fin 10) (x : FoldStep), dueStep s.dev q f mx = some x ∧ x.action = 4 ∧ (getRegion s.dev
      q x.region).n ≠ 0 ∧ ringFlock s.dev q x.region = none ∧ x.k ≤ (getRegion s.dev q x.region).fill) :=
  ⟨⟨st (updEng 0 (fun g => { g with work := [some { ctx := 127, began := 0, due := 90 }, none, none] }) ∘ folding 8 0 0 0 id), 0, 0, 0,
      fstep 8 0 0 0, by decide +kernel⟩,
    ⟨st (folding 8 0 0 0 id), 0, 0, 0, fstep 8 0 0 0, by decide +kernel⟩,
    ⟨st (folding 8 0 0 0 (fun s => { s with waiting := [8] })), 0, 0, 0, fstep 8 0 0 0, 8, by decide +kernel⟩,
    ⟨st (ring 0 0 4 2 ∘ folding 8 1 0 1 id), 0, 0, 0, fstep 8 1 0 1, by decide +kernel⟩,
    ⟨st (ring 0 0 4 1 ∘ folding 8 1 0 1 id), 0, 0, 0, fstep 8 1 0 1, by decide +kernel⟩,
    ⟨st (ring 0 0 4 3 ∘ folding 8 2 0 3 id), 0, 0, 0, fstep 8 2 0 3, by decide +kernel⟩,
    ⟨st (ring 0 0 4 3 ∘ folding 8 2 0 4 id), 0, 0, 0, fstep 8 2 0 4, by decide +kernel⟩,
    ⟨st (ring 0 0 4 3 ∘ folding 8 3 0 0 id), 0, 0, 0, fstep 8 3 0 0, by decide +kernel⟩,
    ⟨st (ring 0 0 4 3 ∘ folding 8 3 0 0 (fun s => { s with commits := [{ region := 0, due := 0 }] })), 0, 0, 0, fstep 8 3 0 0,
        ({ region := 0, due := 0 } : FoldCommit), ([] : List FoldCommit), by decide +kernel⟩,
    ⟨st (ring 0 0 4 3 ∘ folding 8 4 0 3 id), 0, 0, 0, fstep 8 4 0 3, by decide +kernel⟩⟩

theorem witness_FoldHolds :
  (∃ (s : State) (q : Fin 4) (f : Fin 16) (mx : Fin 10) (r : FoldRec),
      let fo := getFold s.dev q f
      ∃ c : Nat, runRec s.dev q f = some r ∧ fo.hold = .check ∧ fo.cap = some c ∧ fo.stop = none ∧ fo.start + fo.frozen + c + 1 ≤
          mxAt s.dev mx ∧ fo.checks.all (fun k => checkReady s.dev q f mx k.1 k.2.1 k.2.2) = true) ∧
  (∃ (s : State) (q : Fin 4) (f : Fin 16) (mx : Fin 10) (r : FoldRec),
      let fo := getFold s.dev q f
      ∃ st, fo.run = some st ∧ runRec s.dev q f = some r ∧ fo.hold = .none ∧ fo.conflictEnd ≤ mxAt s.dev mx ∧ fo.start + fo.frozen ≤
          mxAt s.dev mx ∧ (memberBits r).any (memberBusy s.dev q) = true) ∧
  (∃ (s : State) (q : Fin 4) (f : Fin 16) (mx : Fin 10) (r : FoldRec),
      let fo := getFold s.dev q f
      ∃ st, fo.run = some st ∧ runRec s.dev q f = some r ∧ fo.phase = 1 ∧ fo.entered = false ∧ fo.stop = none ∧ fo.hold ≠ .check ∧
      let first := fo.start + fo.frozen + groupStart r (runN st) fo
      first ≤ mxAt s.dev mx ∧ fo.step < r.body.length ∧ checkReady s.dev q f mx false (byteAt st.desc 5) (field st.desc 6 2) = true)
          ∧
  (∃ (s : State) (q : Fin 4) (f : Fin 16) (mx : Fin 10) (r : FoldRec),
      let fo := getFold s.dev q f
      ∃ st, fo.run = some st ∧ runRec s.dev q f = some r ∧ fo.phase = 1 ∧ fo.entered = false ∧ fo.stop = none ∧ fo.hold ≠ .check ∧
          fo.start + fo.frozen + groupStart r (runN st) fo ≤ mxAt s.dev mx ∧ checkReady s.dev q f mx false (byteAt st.desc 5) (field
          st.desc 6 2) = false) :=
  ⟨⟨st (fun d =>
      { ring 0 0 4 3 (folding 8 4 0 1 (fun s => { s with hold := .check, cap := some 0, checks := [(false, 0, 1)] }) d) with dt := 1 }),
      0, 0, 0, foldZero, (0 : Nat), by decide +kernel⟩,
    ⟨st (updEng 0 (fun g => { g with work := [some { ctx := 127, began := 0, due := 90 }, none, none] }) ∘ folding 8 4 0 1 id), 0, 0,
        0, foldZero, foldStart .write, by decide +kernel⟩,
    ⟨st (ring 0 0 4 3 ∘ folding 8 4 0 1 (fun s => { s with entered := false })), 0, 0, 0, foldZero, foldStart .write,
        by dsimp only; decide +kernel⟩,
    ⟨st (folding 8 4 0 1 (fun s => { s with entered := false })), 0, 0, 0, foldZero, foldStart .write, by decide +kernel⟩⟩

theorem witness_DmaSetsStartAndStop :
  (∃ (s : State) (b : WriteBy) (ch : Fin 256) (v : W32), chWrites s b ch v true false false ∧ (getSpd s.dev (ch / 64)).initDone = true ∧
      (getCh s.dev ch).active = none ∧ (getCh s.dev ch).next = none ∧ dmaShapeOk s.dev ch (stagedSet s ch) = true) ∧
  (∃ (s : State) (b : WriteBy) (ch : Fin 256) (v : W32), ∃ a, chWrites s b ch v true false false ∧ (getSpd s.dev (ch / 64)).initDone =
      true ∧ (getCh s.dev ch).active = some a ∧ (getCh s.dev ch).next = none ∧ dmaShapeOk s.dev ch (stagedSet s ch) = true) ∧
  (∃ (s : State) (b : WriteBy) (ch : Fin 256) (v : W32), ∃ a, ∃ n, chWrites s b ch v true false false ∧ (getSpd s.dev (ch /
      64)).initDone = true ∧ (getCh s.dev ch).active = some a ∧ (getCh s.dev ch).next = some n) ∧
  (∃ (s : State) (b : WriteBy) (ch : Fin 256) (v : W32), chWrites s b ch v true false false ∧ (getSpd s.dev (ch / 64)).initDone = true ∧
      (getCh s.dev ch).active = none ∧ (getCh s.dev ch).next = none ∧ dmaShapeOk s.dev ch (stagedSet s ch) = false) ∧
  (∃ (s : State) (b : WriteBy) (ch : Fin 256) (v : W32), ∃ m : DmaStartMsg, ∃ rest : List DmaStartMsg, takeFirst (fun m : DmaStartMsg =>
      m.ch == ch.val && dmaStartReady s.dev m) s.dev.fab.dmaStarts = some (m, rest) ∧ (getSpd s.dev (ch / 64)).initDone = true ∧ (getCh
      s.dev ch).active = none ∧ (getCh s.dev ch).next = none ∧
      let d1 := loadStaging ch m.image s.dev
      dmaShapeOk d1 ch { no := s.dev.serial, regs := stagingRegs d1 ch, dl := m.dl, starter := m.starter } = true) ∧
  (∃ (s : State) (b : WriteBy) (ch : Fin 256) (v : W32), ∃ a, chWrites s b ch v false true false ∧ (getCh s.dev ch).active = some a) ∧
  (∃ (s : State) (b : WriteBy) (ch : Fin 256) (v : W32), ∃ n, chWrites s b ch v false false true ∧ (getCh s.dev ch).next = some n) ∧
  (∃ (s : State) (b : WriteBy) (ch : Fin 256) (v : W32), ∃ m : StopMsg, ∃ rest : List StopMsg, ∃ a, ∃ i, ∃ tag : Nat, ∃ sub, takeFirst
      (fun m : StopMsg => m.kind == .dma && m.unit == ch.val && stopReady s.dev m) s.dev.fab.stops = some (m, rest) ∧ (getCh s.dev
      ch).active = some a ∧ (getCh s.dev ch).next = none ∧ a.starter = .drover i tag sub ∧ m.inst = i ∧ a.fault = none) :=
  ⟨⟨st (spadUp ∘ loadStaging 0 dmaImage ∘ plane []), .firmware, 0, 1, by unfold chWrites; decide +kernel⟩,
    ⟨st (spadUp ∘ chan0 (dset 8 0 0) ∘ loadStaging 0 dmaImage), .firmware, 0, 1, dset 8 0 0, by unfold chWrites; decide +kernel⟩,
    ⟨st (spadUp ∘ updCh 0 (fun c => { c with active := some (dset 8 0 0), next := some (dset 8 0 0) })), .firmware, 0, 1, dset 8 0 0,
        dset 8 0 0, by unfold chWrites; decide +kernel⟩,
    ⟨st spadUp, .firmware, 0, 1, by unfold chWrites; decide +kernel⟩,
    ⟨st (fun d =>
        { spadUp d with fab := { d.fab with dmaStarts := [{ ch := 0, image := dmaImage, dl := 100, starter := .drover i0 3 false }] } }),
        .firmware, 0, 0, ({ ch := 0, image := dmaImage, dl := 100, starter := .drover i0 3 false } : DmaStartMsg), ([] : List
        DmaStartMsg), by dsimp only; decide +kernel⟩,
    ⟨st (chan0 (dset 8 0 0)), .firmware, 0, 2, dset 8 0 0, by unfold chWrites; decide +kernel⟩,
    ⟨st (updCh 0 (fun c => { c with next := some (dset 8 0 0) })), .firmware, 0, 4, dset 8 0 0, by unfold chWrites; decide +kernel⟩,
    ⟨st (fun d => { chan0 (dset 8 0 0) d with fab := { d.fab with stops := [{ kind := .dma, unit := 0, inst := i0 }] } }), .firmware,
        0, 0, ({ kind := .dma, unit := 0, inst := i0 } : StopMsg), ([] : List StopMsg), dset 8 0 0, i0, (3 : Nat), false,
        by decide +kernel⟩⟩

theorem witness_DmaBurstsMove :
  (∃ (s : State) (ch : Fin 256) (vx : Fin 5), ∃ x, ∃ c : DmaCand, mapGet 0 (ch.val / 64) s.dev.memsys.issueAt ≤ vxAt s.dev vx ∧ (getCh
      s.dev ch).active = some x ∧ (prepare ch vx false s.dev).1 = some c ∧ (∀ k : Nat, k < 64 → 64 * (ch.val / 64) + k ≠ ch → (getCh
      s.dev (64 * (ch.val / 64) + k)).active = none ∧ (getCh s.dev (64 * (ch.val / 64) + k)).next = none)) ∧
  (∃ (s : State) (ch : Fin 256) (vx : Fin 5), ∃ x, ∃ b : DmaBurst, ∃ bytes : List Byte, ∃ d1, (getCh s.dev ch).active = some x ∧ x.fault
      = none ∧ walkFault (purgeReturns ch s.dev) ch x.no (vxAt s.dev vx) = none ∧ burstArrive ch (vxAt s.dev vx) x (purgeReturns ch
      s.dev) = some (b, bytes, none, d1)) ∧
  (∃ (s : State) (ch : Fin 256) (vx : Fin 5), ∃ x, ∃ b, ∃ rest : List DmaBurst, ∃ bs : List Byte, burstAt s ch vx x b rest bs ∧
      setDstKind x = 1 ∧ x.written + b.len ≠ setVolume x) ∧
  (∃ (s : State) (ch : Fin 256) (vx : Fin 5), ∃ x, ∃ b, ∃ rest : List DmaBurst, ∃ bs : List Byte, ∃ e : Nat, burstAt s ch vx x b rest bs
      ∧ setDstKind x = 0 ∧ x.written + b.len ≠ setVolume x ∧
      let dva := endAddr s.dev ch x false (dstPlace x b.pos)
      let pa := paOf dva e
      dva / 2 ^ 38 = 0 ∧ (getCache s.dev (ch / 8)).find? (fun c => c.1 == pageOf dva) = some (pageOf dva, e) ∧ pteCause e .write = 0
          ∧ dramRoom s.dev pa = true) ∧
  (∃ (s : State) (ch : Fin 256) (vx : Fin 5), ∃ x, ∃ b, ∃ rest : List DmaBurst, ∃ bs : List Byte, burstAt s ch vx x b rest bs ∧
      setDstKind x = 1 ∧ x.written + b.len = setVolume x) ∧
  (∃ (s : State) (ch : Fin 256) (vx : Fin 5), ∃ n, (getCh s.dev ch).active = none ∧ (getCh s.dev ch).next = some n ∧ (getCh s.dev
      ch).ended = true ∧ n.fault = none ∧ (setSrcKind n = 3 ∨ n.written ≠ setVolume n)) ∧
  (∃ (s : State) (ch : Fin 256) (vx : Fin 5), ∃ n : DmaSet, (getCh s.dev ch).active = none ∧ (getCh s.dev ch).next = some n ∧ (getCh
      s.dev ch).ended = true ∧ n.fault = none ∧ setSrcKind n ≠ 3 ∧ n.written = setVolume n) :=
  ⟨⟨st (chan0 (dset 8 1 1)), 0, 0, dset 8 1 1, (⟨0, false, 8, []⟩ : DmaCand), by decide +kernel⟩,
    ⟨st (chan0 { dset 8 1 1 with bursts := [{ pos := 0, len := 8 }] }), 0, 0, { dset 8 1 1 with bursts := [{ pos := 0, len := 8 }] },
        ({ pos := 0, len := 8 } : DmaBurst), (List.replicate 8 0 : List Byte), ((burstArrive 0 0
        { dset 8 1 1 with bursts := [{ pos := 0, len := 8 }] } (purgeReturns 0 (chan0
        { dset 8 1 1 with bursts := [{ pos := 0, len := 8 }] } {}))).map (·.2.2.2)).getD {}, by decide +kernel⟩,
    ⟨st (chan0 { dset 8 1 1 with bursts := [burst] }), 0, 0, { dset 8 1 1 with bursts := [burst] }, burst, ([] : List DmaBurst), ([1,
        2, 3, 4, 5, 6, 7, 8] : List Byte), by unfold burstAt; decide +kernel⟩,
    ⟨st (fun d => { chan0 { dset 8 1 0 with bursts := [burst] } d with memsys := { d.memsys with caches := [(0, [(0, 7)])] } }), 0, 0,
        { dset 8 1 0 with bursts := [burst] }, burst, ([] : List DmaBurst), ([1, 2, 3, 4, 5, 6, 7, 8] : List Byte), (7 : Nat),
        by unfold burstAt; decide +kernel⟩,
    ⟨st (chan0 { dset 8 1 1 with bursts := [burst], written := 8 }), 0, 0, { dset 8 1 1 with bursts := [burst], written := 8 }, burst,
        ([] : List DmaBurst), ([1, 2, 3, 4, 5, 6, 7, 8] : List Byte), by unfold burstAt; decide +kernel⟩,
    ⟨st (updCh 0 (fun c => { c with next := some (dset 8 0 0), ended := true })), 0, 0, dset 8 0 0, by decide +kernel⟩,
    ⟨st (updCh 0 (fun c => { c with next := some { dset 8 0 0 with written := 16, issued := 16 }, ended := true })), 0, 0,
        ({ dset 8 0 0 with written := 16, issued := 16 } : DmaSet), by decide +kernel⟩⟩

theorem witness_TranslationWalksAndTables :
  (∃ (s : State) (q : Fin 4) (vx : Fin 5) (w : Walk) (g th n : Nat),
      let p := pageOf w.dva
      let e := pteAt s.dev p
      (walksOf s.dev q).find? (fun w => w.due ≤ vxAt s.dev vx && (walksOf s.dev q).all (fun o => w.due ≤ o.due)) = some w ∧
          badPteBlock s.dev p = none ∧ pteCause e (pageUse w.use) = 0 ∧ w.who = .gcData g th n ∧ w.len = 0) ∧
  (∃ (s : State) (q : Fin 4) (vx : Fin 5) (w : Walk),
      let p := pageOf w.dva
      let c := pteCause (pteAt s.dev p) (pageUse w.use)
      (walksOf s.dev q).find? (fun w => w.due ≤ vxAt s.dev vx && (walksOf s.dev q).all (fun o => w.due ≤ o.due)) = some w ∧
          badPteBlock s.dev p = none ∧ c ≠ 0) ∧
  (∃ (s : State) (q : Fin 4) (vx : Fin 5) (w : Walk) (blk : Nat), (walksOf s.dev q).find? (fun w => w.due ≤ vxAt s.dev vx && (walksOf
      s.dev q).all (fun o => w.due ≤ o.due)) = some w ∧ badPteBlock s.dev (pageOf w.dva) = some blk) ∧
  (∃ (s : State) (b : WriteBy) (v : W32), writesNow s b pteCtlAddr = true ∧ setBit v 0 = true ∧ setBit v 1 = false) ∧
  (∃ (s : State) (b : WriteBy) (v : W32), writesNow s b pteCtlAddr = true ∧ setBit v 1 = true ∧ setBit v 0 = false) ∧
  (∃ (s : State) (b : WriteBy) (q : Fin 4) (v : W32), writesNow s b (invCtlAddr q) = true ∧ setBit v 0 = true) :=
  ⟨⟨st (fun d => { walkUp d with mem := { d.mem with dram := storeDram (pteAddr 0) [0xF] [] } }), 0, 0, walk0, 0, 0, 1,
      by decide +kernel⟩,
    ⟨st walkUp, 0, 0, walk0, by decide +kernel⟩,
    ⟨st (fun d => { walkUp d with mem := { d.mem with dramBad := [(pteAddr 0 / 32, 2)] } }), 0, 0, walk0, pteAddr 0 / 32,
        by decide +kernel⟩,
    ⟨State.reset, .firmware, 1, by decide +kernel⟩,
    ⟨State.reset, .firmware, 2, by decide +kernel⟩,
    ⟨st (fun d => { d with memsys := { d.memsys with caches := [(0, [(0, 7)])] } }), .firmware, 3, 1, by decide +kernel⟩⟩

theorem witness_MemoryChannelsWork :
  (∃ (s : State) (c : Fin 64) (ready : BitVec 32) (vx : Fin 5) (i : Nat) (r : DramReq), chanWorks s.dev c = true ∧ (getChan s.dev
      c).slot < 197 + (getChan s.dev c).reserved ∧ (arbitrate arbDram c 32 (readyReqs s.dev c ready) s.dev).1 = some i ∧ mapGet none i
      (getChan s.dev c).queue = some r ∧ r.write = false ∧ r.who ≠ .posted ∧ ((blocksOf r.pa r.len).any (blockBad s.dev)) = false ∧
      s.dev.memsys.stalled = []) ∧
  (∃ (s : State) (c : Fin 64) (ready : BitVec 32) (e : EccResult) (vx : Fin 5), chanWorks s.dev c = true ∧ (getChan s.dev c).reserved <
      3) ∧
  (∃ (s : State) (c : Fin 64) (e : EccResult), chanWorks s.dev c = true ∧ (getChan s.dev c).reserved < 3 ∧ patrolDue s.dev c = true) ∧
  (∃ (s : State) (c : Fin 64), chanWorks s.dev c = true ∧ (getChan s.dev c).reserved < 3 ∧ zqDueNow s.dev c = true) ∧
  (∃ (s : State) (c : Fin 64) (drift : Bool), chanWorks s.dev c = true ∧ (getChan s.dev c).oscAt + 125000 ≤ s.dev.dt) ∧
  (∃ (s : State) (q : Fin 4), mapGet 0 q.val s.dev.memsys.imbMs = 0 ∧ 125000 ≤ mapGet 0 q.val s.dev.memsys.imb) ∧
  (∃ (s : State) (q : Fin 4), s.dev.pow.computeUp = true ∧ s.dev.pow.gated = false ∧ getF s.dev .clk 0 4 0 2 ≠ 1 ∧ getF s.dev .clk 0 4 0
      2 ≠ 2) :=
  ⟨⟨st (chanM (fun c => { c with queue := [(0, some { dl := 5, pa := 0, len := 8, who := .gcData 0 0 1 })] })), 0, 1, 0, 0,
      { dl := 5, pa := 0, len := 8, who := .gcData 0 0 1 }, by decide +kernel⟩,
    ⟨st (chanM (fun c => { c with reserved := 2 })), 0, 0, .clean, 0, by decide +kernel⟩,
    ⟨st (fun d => { chanM id d with dt := 686645 }), 0, .clean, by decide +kernel⟩,
    ⟨st (fun d => { chanM id d with dt := 4000000 }), 0, by decide +kernel⟩,
    ⟨st (fun d => { chanM id d with dt := 125000 }), 0, true, by decide +kernel⟩,
    ⟨st (fun d => { d with memsys := { d.memsys with imb := [(0, 125000)] } }), 0, by decide +kernel⟩,
    ⟨st ((fun d => { d with pow := { d.pow with computeUp := true }, memsys := { d.memsys with selfRefresh := [0, 1] } }) ∘ setR .clk
        0 4 0), 0, by decide +kernel⟩⟩

theorem witness_MatrixLaunches :
  (∃ (s : State) (m : Fin 32) (mx : Fin 10) (st : StartMsg) (rest : List StartMsg) (i : Nat), takeFirst (fun x : StartMsg => x.unit ==
      64 * (m.val / 8) + m.val % 8 && startReady s.dev x) s.dev.fab.starts = some (st, rest) ∧ (getMe s.dev m).waiting.all (fun x =>
      (freeLaunch s.dev m (startCtx s.dev m x)).isNone) = true ∧ meTakes s.dev m = true ∧ freeLaunch s.dev m (startCtx s.dev m st) =
      some i ∧ spadBad s.dev (m.val / 8) (8 * st.desc) 128 = false) ∧
  (∃ (s : State) (m : Fin 32) (mx : Fin 10) (st : StartMsg) (rest : List StartMsg), takeFirst (fun x : StartMsg => x.unit == 64 * (m.val
      / 8) + m.val % 8 && startReady s.dev x) s.dev.fab.starts = some (st, rest) ∧ (getMe s.dev m).waiting.all (fun x => (freeLaunch
      s.dev m (startCtx s.dev m x)).isNone) = true ∧ freeLaunch s.dev m (startCtx s.dev m st) = none) ∧
  (∃ (s : State) (m : Fin 32) (mx : Fin 10) (st : StartMsg) (rest : List StartMsg) (i : Nat), meTakes s.dev m = true ∧ takeFirst (fun x
      => (freeLaunch s.dev m (startCtx s.dev m x)).isSome) (getMe s.dev m).waiting = some (st, rest) ∧ freeLaunch s.dev m (startCtx
      s.dev m st) = some i ∧ spadBad s.dev (m.val / 8) (8 * st.desc) 128 = false) ∧
  (∃ (s : State) (m : Fin 32) (c : Fin 2) (mx : Fin 10) (i : Nat) (l : MeLaunch),
      let x := getMeCtx s.dev m c
      x.run = none ∧ x.frun = none ∧ (getMe s.dev m).fold = none ∧ s.dev.wakeAt ≤ s.dev.dt ∧ (getSpd s.dev (m.val / 8)).initDone =
          true ∧ (arbitrate arbMe (2 * m.val + c.val) 16 (meReqs s.dev m c) s.dev).1 = some i ∧ mapGet none i x.queue = some l) ∧
  (∃ (s : State) (m : Fin 32) (c : Fin 2) (mx : Fin 10) (r : MeRun) (x : MemReturn) (rest : List MemReturn), meActive s.dev m c = some r
      ∧ r.fold.isSome = (getMeCtx s.dev m c).frun.isSome ∧ takeFirst (fun x : MemReturn => x.who == .meFetch m c r.no && decide (x.due ≤
      vxAt s.dev (mx.val / 2))) s.dev.memsys.returns = some (x, rest) ∧ x.fault = none ∧ x.bad = false) ∧
  (∃ (s : State) (m : Fin 32) (c : Fin 2) (mx : Fin 10) (r : MeRun) (x : MemReturn) (rest : List MemReturn), (getMe s.dev m).fold = none
      ∧ (getMeCtx s.dev m c).frun = none ∧ (getMeCtx s.dev m c).run = some r ∧ r.fold = none ∧ r.stop = none ∧ takeFirst (fun x :
      MemReturn => x.who == .meFetch m c r.no && decide (x.due ≤ vxAt s.dev (mx.val / 2))) s.dev.memsys.returns = some (x, rest) ∧
      (x.fault.isSome = true ∨ x.bad = true) ∧ (getMeCtx s.dev m (1 - c.val)).entering.all (fun e => e.key / 2 ^ 40 != r.no) = true) ∧
  (∃ (s : State) (m : Fin 32) (c : Fin 2) (mx : Fin 10) (r : MeRun),
      let d := enterRows m (fun e => e.at_ ≤ mxAt s.dev mx) s.dev
      (getMe s.dev m).fold = none ∧ (getMeCtx d m c).run = some r ∧ meOver d m c mx r = true) ∧
  (∃ (s : State) (m : Fin 32) (mx : Fin 10) (b : WriteBy) (v : W32) (r : MeRun), writesNow s b (meStopAddr m) = true ∧ setBit v 31 =
      true ∧ (getMeCtx s.dev m (fld v 0 1)).run = some r ∧ r.launch.starter = .write ∧ r.stop = none ∧ r.ended = false ∧ meOver s.dev m
      (fld v 0 1) mx r = false) ∧
  (∃ (s : State) (m : Fin 32) (c : Fin 2) (mx : Fin 10) (x : StopMsg) (rest : List StopMsg) (r : MeRun), takeFirst (fun x : StopMsg =>
      x.kind == .me && x.unit == 64 * (m.val / 8) + m.val % 8 && stopReady s.dev x) s.dev.fab.stops = some (x, rest) ∧ (getMeCtx s.dev m
      c).run = some r ∧ r.launch.starter.inst = some x.inst ∧ r.stop = none ∧ r.ended = false ∧ meOver s.dev m c mx r = false) :=
  ⟨⟨st (fun d =>
      { spadUp (setR .me 0 0 1 d) with fab := { d.fab with starts := [{ unit := 0, desc := 16, dl := 100, starter := .drover i0 3 false }] } }),
      0, 0, { unit := 0, desc := 16, dl := 100, starter := .drover i0 3 false }, [], 0, by decide +kernel⟩,
    ⟨st (fun d =>
        { updMeCtx 0 0 (fun x => { x with queue := (List.range 16).map (fun i => (i, some (meLaunch .write))) }) d with fab := { d.fab with starts := [{ unit := 0, desc := 16, dl := 100, starter := .drover i0 3 false }] } }),
        0, 0, { unit := 0, desc := 16, dl := 100, starter := .drover i0 3 false }, [], by decide +kernel⟩,
    ⟨st (updMe 0 (fun e => { e with waiting := [{ unit := 0, desc := 16, dl := 100, starter := .drover i0 3 false }] }) ∘ spadUp ∘
        setR .me 0 0 1), 0, 0, { unit := 0, desc := 16, dl := 100, starter := .drover i0 3 false }, [], 0, by decide +kernel⟩,
    ⟨st (spadUp ∘ updMeCtx 0 0 (fun x => { x with queue := [(2, some (meLaunch .write))] })), 0, 0, 0, 2, meLaunch .write,
        by decide +kernel⟩,
    ⟨st (fun d =>
        { meAt 0 id d with memsys := { d.memsys with returns := [{ who := .meFetch 0 0 0, bytes := List.replicate 64 1 }] } }), 0, 0,
        0, meRun 0, { who := .meFetch 0 0 0, bytes := List.replicate 64 1 }, [], by decide +kernel⟩,
    ⟨st (fun d => { meAt 0 id d with memsys := { d.memsys with returns := [{ who := .meFetch 0 0 0, fault := some (2, 0) }] } }), 0,
        0, 0, meRun 0, { who := .meFetch 0 0 0, fault := some (2, 0) }, [], by decide +kernel⟩,
    ⟨st (updMeCtx 0 0 (fun x => { x with run := some { meRun 0 with launch := meLaunch (.drover i0 3 false), index := 2 } })), 0, 0,
        0, { meRun 0 with launch := meLaunch (.drover i0 3 false), index := 2 }, by decide +kernel⟩,
    ⟨st (meAt 0 id), 0, 0, .firmware, 0x80000000, meRun 0, by decide +kernel⟩,
    ⟨st (fun d =>
        { updMeCtx 0 0 (fun x => { x with run := some { meRun 0 with launch := meLaunch (.drover i0 3 false) } }) d with fab := { d.fab with stops := [{ kind := .me, unit := 0, inst := i0 }] } }),
        0, 0, 0, { kind := .me, unit := 0, inst := i0 }, [], { meRun 0 with launch := meLaunch (.drover i0 3 false) },
        by decide +kernel⟩⟩

theorem witness_MatrixCommands :
  (∃ (s : State) (m : Fin 32) (c : Fin 2) (mx : Fin 10) (r : MeRun), meTurn s m c mx r 0) ∧
  (∃ (s : State) (m : Fin 32) (c : Fin 2) (mx : Fin 10) (r : MeRun), ∃ op : Nat, 0xF ≤ op ∧ meTurn s m c mx r op) ∧
  (∃ (s : State) (m : Fin 32) (c : Fin 2) (mx : Fin 10) (r : MeRun), meTurn s m c mx r 1) ∧
  (∃ (s : State) (m : Fin 32) (c : Fin 2) (mx : Fin 10) (r : MeRun), meTurn s m c mx r 4) ∧
  (∃ (s : State) (m : Fin 32) (c : Fin 2) (mx : Fin 10) (r : MeRun), meTurn s m c mx r 7) ∧
  (∃ (s : State) (m : Fin 32) (c : Fin 2) (mx : Fin 10) (r : MeRun), meTurn s m c mx r 8) ∧
  (∃ (s : State) (m : Fin 32) (c : Fin 2) (mx : Fin 10) (r : MeRun), meTurn s m c mx r 9) ∧
  (∃ (s : State) (m : Fin 32) (c : Fin 2) (mx : Fin 10) (r : MeRun),
      let cmd := meCmd r
      let q := m.val / 8
      let reg := bits cmd 16 8
      let ring := getRegion s.dev q reg
      meTurn s m c mx r 0xA ∧ (r.fold ≠ none ∨ (ring.n ≠ 0 ∧ bits cmd 24 16 < meLag s.dev q reg (meRecv m) (mxAt s.dev mx)))) ∧
  (∃ (s : State) (m : Fin 32) (c : Fin 2) (mx : Fin 10) (r : MeRun),
      let cmd := meCmd r
      let q := m.val / 8
      let reg := bits cmd 16 8
      let ring := getRegion s.dev q reg
      meTurn s m c mx r 0xA ∧ r.fold = none ∧ (ring.n = 0 ∨ meLag s.dev q reg (meRecv m) (mxAt s.dev mx) ≤ bits cmd 24 16)) ∧
  (∃ (s : State) (m : Fin 32) (c : Fin 2) (mx : Fin 10) (r : MeRun),
      let cmd := meCmd r
      let q := m.val / 8
      let reg := bits cmd 16 8
      ringFlock s.dev q reg = none) ∧
  (∃ (s : State) (m : Fin 32) (c : Fin 2) (mx : Fin 10) (r : MeRun),
      let cmd := meCmd r
      let q := m.val / 8
      let reg := bits cmd 16 8
      let ring := getRegion s.dev q reg
      let seen := ring.asOf (mxAt s.dev mx)
      meTurn s m c mx r 0xB ∧ (r.fold ≠ none ∨ (ring.n ≠ 0 ∧ seen.fill + bits cmd 24 16 < ring.n))) ∧
  (∃ (s : State) (m : Fin 32) (c : Fin 2) (mx : Fin 10) (r : MeRun),
      let cmd := meCmd r
      let q := m.val / 8
      let reg := bits cmd 16 8
      let ring := getRegion s.dev q reg
      let seen := ring.asOf (mxAt s.dev mx)
      meTurn s m c mx r 0xB ∧ r.fold = none ∧ (ring.n = 0 ∨ ring.n ≤ seen.fill + bits cmd 24 16)) ∧
  (∃ (s : State) (m : Fin 32) (c : Fin 2) (mx : Fin 10) (r : MeRun), meTurn s m c mx r 0xC ∧ r.fold = none) ∧
  (∃ (s : State) (m : Fin 32) (c : Fin 2) (mx : Fin 10) (r : MeRun), meTurn s m c mx r 0xC ∧ r.fold ≠ none) ∧
  (∃ (s : State) (m : Fin 32) (c : Fin 2) (mx : Fin 10) (r : MeRun),
      let x := getMeCtx s.dev m c
      let cmd := meCmd r
      let q := m.val / 8
      let reg := bits cmd 16 8
      meTurn s m c mx r 0xD ∧ r.fold = none ∧ meQuiet x = true ∧ ringFlock s.dev q reg = none) ∧
  (∃ (s : State) (m : Fin 32) (c : Fin 2) (mx : Fin 10) (r : MeRun),
      let x := getMeCtx s.dev m c
      meTurn s m c mx r 0xD ∧ r.fold = none ∧ meQuiet x = true) ∧
  (∃ (s : State) (m : Fin 32) (c : Fin 2) (mx : Fin 10) (r : MeRun),
      let x := getMeCtx s.dev m c
      meTurn s m c mx r 0xD ∧ r.fold = none ∧ meQuiet x = false) ∧
  (∃ (s : State) (m : Fin 32) (c : Fin 2) (mx : Fin 10) (r : MeRun), meTurn s m c mx r 0xD ∧ r.fold ≠ none) ∧
  (∃ (s : State) (m : Fin 32) (c : Fin 2) (mx : Fin 10) (r : MeRun),
      let x := getMeCtx s.dev m c
      meTurn s m c mx r 0xE ∧ meQuiet x = true ∧ r.fold = none) ∧
  (∃ (s : State) (m : Fin 32) (c : Fin 2) (mx : Fin 10) (r : MeRun),
      let x := getMeCtx s.dev m c
      meTurn s m c mx r 0xE ∧ meQuiet x = true ∧ r.fold ≠ none ∧ r.setup = true) ∧
  (∃ (s : State) (m : Fin 32) (c : Fin 2) (mx : Fin 10) (r : MeRun),
      let x := getMeCtx s.dev m c
      meTurn s m c mx r 0xE ∧ meQuiet x = true ∧ r.fold ≠ none ∧ r.setup = false) ∧
  (∃ (s : State) (m : Fin 32) (c : Fin 2) (mx : Fin 10) (r : MeRun),
      let x := getMeCtx s.dev m c
      meTurn s m c mx r 0xE ∧ meQuiet x = false) :=
  ⟨⟨st (meAt (0 + 0) id), 0, 0, 0, meRun (0 + 0), by unfold meTurn; decide +kernel⟩,
    ⟨st (meAt (0xF + 0) id), 0, 0, 0, meRun (0xF + 0), (0xF : Nat), by unfold meTurn; decide +kernel⟩,
    ⟨st (meAt (1 + 0xABCD * 2 ^ 16) id), 0, 0, 0, meRun (1 + 0xABCD * 2 ^ 16), by unfold meTurn; decide +kernel⟩,
    ⟨st (meAt (4 + 5 * 2 ^ 16) id), 0, 0, 0, meRun (4 + 5 * 2 ^ 16), by unfold meTurn; decide +kernel⟩,
    ⟨st (meAt (7 + 5 * 2 ^ 16) id), 0, 0, 0, meRun (7 + 5 * 2 ^ 16), by unfold meTurn; decide +kernel⟩,
    ⟨st (meAt (8 + 5 * 2 ^ 16) id), 0, 0, 0, meRun (8 + 5 * 2 ^ 16), by unfold meTurn; decide +kernel⟩,
    ⟨st (meAt (9 + 5 * 2 ^ 16) id), 0, 0, 0, meRun (9 + 5 * 2 ^ 16), by unfold meTurn; decide +kernel⟩,
    ⟨st (ring 0 0 4 1 ∘ meAt (0xA + 0) id), 0, 0, 0, meRun (0xA + 0), by unfold meTurn; decide +kernel⟩,
    ⟨st (ring 0 0 4 1 ∘ meAt (0xA + 2 ^ 24) id), 0, 0, 0, meRun (0xA + 2 ^ 24), by unfold meTurn; decide +kernel⟩,
    ⟨st (ring 0 0 4 1 ∘ meAt (0xA + 0) id), 0, 0, 0, meRun (0xA + 0), by decide +kernel⟩,
    ⟨st (ring 0 0 4 3 ∘ meAt (0xB + 0) id), 0, 0, 0, meRun (0xB + 0), by unfold meTurn; decide +kernel⟩,
    ⟨st (ring 0 0 4 3 ∘ meAt (0xB + 2 ^ 24) id), 0, 0, 0, meRun (0xB + 2 ^ 24), by unfold meTurn; decide +kernel⟩,
    ⟨st (ring 0 0 4 1 ∘ meAt (0xC + 2 ^ 24) id), 0, 0, 0, meRun (0xC + 2 ^ 24), by unfold meTurn; decide +kernel⟩,
    ⟨st (ring 0 0 4 1 ∘ meFold (0xC + 2 ^ 24) (fun r => { r with setup := true, inUnit := true })), 0, 0, 0,
        { meRun (0xC + 2 ^ 24) with fold := some 0, setup := true, inUnit := true }, by unfold meTurn; decide +kernel⟩,
    ⟨st (ring 0 0 4 1 ∘ meAt (0xD + 0) id), 0, 0, 0, meRun (0xD + 0), by unfold meTurn; decide +kernel⟩,
    ⟨st (ring 0 0 4 1 ∘ meAt (0xD + 0) id), 0, 0, 0, meRun (0xD + 0), by unfold meTurn; decide +kernel⟩,
    ⟨st (ring 0 0 4 1 ∘ meAt (0xD + 0) (fun x => { x with outs := [{ entered := 0, due := 14 }] })), 0, 0, 0, meRun (0xD + 0),
        by unfold meTurn; decide +kernel⟩,
    ⟨st (ring 0 0 4 1 ∘ meFold (0xD + 0) (fun r => { r with setup := true, inUnit := true })), 0, 0, 0,
        { meRun (0xD + 0) with fold := some 0, setup := true, inUnit := true }, by unfold meTurn; decide +kernel⟩,
    ⟨st (meAt (0xE + 0) id), 0, 0, 0, meRun (0xE + 0), by unfold meTurn; decide +kernel⟩,
    ⟨st (meFold (0xE + 0) (fun r => { r with setup := true, inUnit := true })), 0, 0, 0,
        { meRun (0xE + 0) with fold := some 0, setup := true, inUnit := true }, by unfold meTurn; decide +kernel⟩,
    ⟨st (meFold (0xE + 0) (fun r => { r with launch := setupLaunch })), 0, 0, 0,
        { meRun (0xE + 0) with fold := some 0, launch := setupLaunch }, by unfold meTurn; decide +kernel⟩,
    ⟨st (meAt (0xE + 0) (fun x => { x with outs := [{ entered := 0, due := 14 }] })), 0, 0, 0, meRun (0xE + 0),
        by unfold meTurn; decide +kernel⟩⟩

theorem witness_MatrixPasses :
  (∃ (s : State) (m : Fin 32) (c : Fin 2) (mx : Fin 10),
      let x := getMeCtx s.dev m c
      let now := meNow s.dev m mx
      let q := m.val / 8
      ∃ r, meTurn s m c mx r 2 ∧ spadSound s.dev q ∧ portFree s.dev m c now = true ∧ bufClear x (meCmd r) now = true) ∧
  (∃ (s : State) (m : Fin 32) (c : Fin 2) (mx : Fin 10),
      let now := meNow s.dev m mx
      let q := m.val / 8
      ∃ r, meTurn s m c mx r 6 ∧ spadSound s.dev q ∧ portFree s.dev m c now = true) ∧
  (∃ (s : State) (m : Fin 32) (c : Fin 2) (mx : Fin 10),
      let x := getMeCtx s.dev m c
      let now := meNow s.dev m mx
      let q := m.val / 8
      ∃ r, meTurn s m c mx r 3 ∧ spadSound s.dev q ∧ inputFree (getMe s.dev m) c now = true ∧
      let cmd := meCmd r
      let b := x.bufs.getD (bits cmd 10 1) {}
      b.usable ≤ now ∧ awaitsTile x (bits cmd 10 1) = false) ∧
  (∃ (s : State) (m : Fin 32) (c : Fin 2) (mx : Fin 10),
      let now := meNow s.dev m mx
      let q := m.val / 8
      ∃ r, meTurn s m c mx r 5 ∧ spadSound s.dev q ∧ inputFree (getMe s.dev m) c now = true) ∧
  (∃ (s : State) (m : Fin 32) (c : Fin 2) (mx : Fin 10),
      let x := getMeCtx s.dev m c
      let now := meNow s.dev m mx
      ∃ b : Nat, ∃ tile : MeTile, ∃ due : Nat, ∃ rest : List MeLoad, x.loads = .tile b tile due :: rest ∧ due ≤ now) ∧
  (∃ (s : State) (m : Fin 32) (c : Fin 2) (mx : Fin 10),
      let x := getMeCtx s.dev m c
      let now := meNow s.dev m mx
      ∃ b : Nat, ∃ lut : MeLut, ∃ due : Nat, ∃ rest : List MeLoad, x.loads = .table b lut due :: rest ∧ due ≤ now) ∧
  (∃ (s : State) (m : Fin 32) (c : Fin 2) (mx : Fin 10),
      let x := getMeCtx s.dev m c
      let now := meNow s.dev m mx
      ∃ o0 : MeOut, firstOut x = some o0 ∧ o0.due ≤ now ∧ (firstOut (getMeCtx s.dev m (1 - c.val))).all (fun p => if c = 0 then
          decide (o0.due ≤ p.due) else decide (o0.due < p.due)) = true) :=
  ⟨⟨st (meAt (2 + 3 * 2 ^ 57) id), 0, 0, 0, meRun (2 + 3 * 2 ^ 57), ⟨by unfold meTurn; decide +kernel, sound_of_clean
      (by decide +kernel) (by decide +kernel), by decide +kernel⟩⟩,
    ⟨st (meAt (6 + 2 ^ 16) id), 0, 0, 0, meRun (6 + 2 ^ 16), ⟨by unfold meTurn; decide +kernel, sound_of_clean (by decide +kernel)
        (by decide +kernel), by decide +kernel⟩⟩,
    ⟨st (spad [3, 4] ∘ meAt (3 + 2 ^ 57) (fun x => { x with bufs := [{ tile := { elems := [[5], [6]] } }, {}] })), 0, 0, 0, meRun (3 +
        2 ^ 57), ⟨by unfold meTurn; decide +kernel, sound_of_clean (by decide +kernel) (by decide +kernel), by decide +kernel⟩⟩,
    ⟨st (meAt (5 + 2 ^ 57) id), 0, 0, 0, meRun (5 + 2 ^ 57), ⟨by unfold meTurn; decide +kernel, sound_of_clean (by decide +kernel)
        (by decide +kernel), by decide +kernel⟩⟩,
    ⟨st (updMeCtx 0 0 (fun x => { x with loads := [.tile 1 { elems := [[5]] } 0] })), 0, 0, 0, (1 : Nat), ({ elems := [[5]] } :
        MeTile), (0 : Nat), ([] : List MeLoad), by decide +kernel⟩,
    ⟨st (updMeCtx 0 0 (fun x => { x with loads := [.table 1 { bytes := [5] } 0] })), 0, 0, 0, (1 : Nat), ({ bytes := [5] } : MeLut),
        (0 : Nat), ([] : List MeLoad), by decide +kernel⟩,
    ⟨st (updMeCtx 0 0 (fun x => { x with outs := [{ entered := 0, due := 0, word := 3, vals := [0, 0] }] })), 0, 0, 0,
        ({ entered := 0, due := 0, word := 3, vals := [0, 0] } : MeOut), by decide +kernel⟩⟩

theorem witness_GeneralCoreIssues :
  (∃ (s : State) (g : Fin 256) (mx : Fin 10) (k w len : Nat),
      let n := 16 * g.val + k
      let th := getThread s.dev n
      ∃ v : W64, gcTurn s g mx k w len ∧ aluResult w th.pc (th.reg (rvRs1 w)) (th.reg (rvRs2 w)) = some v) ∧
  (∃ (s : State) (g : Fin 256) (mx : Fin 10) (k w len : Nat),
      let n := 16 * g.val + k
      let th := getThread s.dev n
      ∃ b, gcTurn s g mx k w len ∧ rvOp w = 0x63 ∧ brTaken w (th.reg (rvRs1 w)) (th.reg (rvRs2 w)) = some b) ∧
  (∃ (s : State) (g : Fin 256) (mx : Fin 10) (k w len : Nat), gcTurn s g mx k w len ∧ rvOp w = 0x6F) ∧
  (∃ (s : State) (g : Fin 256) (mx : Fin 10) (k w len : Nat), gcTurn s g mx k w len ∧ rvOp w = 0x67 ∧ rvF3 w = 0) ∧
  (∃ (s : State) (g : Fin 256) (mx : Fin 10) (k w len : Nat),
      let n := 16 * g.val + k
      let now := mxAt s.dev mx
      ∃ old, gcTurn s g mx k w 4 ∧ rvOp w = 0x73 ∧ rvF3 w = 1 ∧ csrRead s.dev n now (bits w 20 12) = some old ∧ bits w 30 2 ≠ 3) ∧
  (∃ (s : State) (g : Fin 256) (mx : Fin 10) (k w len : Nat), gcTurn s g mx k 0x73 4) ∧
  (∃ (s : State) (g : Fin 256) (mx : Fin 10) (k w len : Nat),
      let n := 16 * g.val + k
      let th := getThread s.dev n
      let now := mxAt s.dev mx
      let chosen := coreWorks g now s.dev = true ∧ (gcSelect g now s.dev).1 = some k
      ∃ h, chosen ∧ gcInterrupt th = false ∧ gcFetch s.dev n = .reserved h) ∧
  (∃ (s : State) (g : Fin 256) (mx : Fin 10) (k w len : Nat),
      let n := 16 * g.val + k
      let th := getThread s.dev n
      gcTurn s g mx k w len ∧ rvOp w ∉ otherOps ∧ (len = 4 → devOp w = none) ∧ aluResult w th.pc (th.reg (rvRs1 w)) (th.reg (rvRs2
          w)) = none) ∧
  (∃ (s : State) (g : Fin 256) (mx : Fin 10) (k w len : Nat),
      let n := 16 * g.val + k
      let th := getThread s.dev n
      gcTurn s g mx k 0x30200073 4 ∧ th.mode = 3) ∧
  (∃ (s : State) (g : Fin 256) (mx : Fin 10) (k w len : Nat),
      let n := 16 * g.val + k
      let th := getThread s.dev n
      let now := mxAt s.dev mx
      let chosen := coreWorks g now s.dev = true ∧ (gcSelect g now s.dev).1 = some k
      chosen ∧ gcInterrupt th = true) ∧
  (∃ (s : State) (g : Fin 256) (mx : Fin 10) (k w len : Nat),
      let n := 16 * g.val + k
      let th := getThread s.dev n
      let now := mxAt s.dev mx
      let chosen := coreWorks g now s.dev = true ∧ (gcSelect g now s.dev).1 = some k
      ∃ line, ∃ e, k < 16 ∧ chosen ∧ gcInterrupt th = false ∧ gcFetch s.dev n = .miss line ∧ gcCached s g line e .fetch) ∧
  (∃ (s : State) (g : Fin 256) (mx : Fin 10) (k w len : Nat),
      let now := mxAt s.dev mx
      coreWorks g now s.dev = true ∧ (gcSelect g now s.dev).1 = none) :=
  ⟨⟨st (core (rv 0x33 0 0 7 5 6) 1 2 id), 0, 0, 0, rv 0x33 0 0 7 5 6, 4, (3 : W64), by unfold gcTurn; decide +kernel⟩,
    ⟨st (core (rv 0x63 1 0 8 5 6) 1 2 id), 0, 0, 0, rv 0x63 1 0 8 5 6, 4, true, by unfold gcTurn; decide +kernel⟩,
    ⟨st (core (rv 0x6F 0 0 1 0 8) 1 2 id), 0, 0, 0, rv 0x6F 0 0 1 0 8, 4, by unfold gcTurn; decide +kernel⟩,
    ⟨st (core (rv 0x67 0 0 1 5 0) 9 2 id), 0, 0, 0, rv 0x67 0 0 1 5 0, 4, by unfold gcTurn; decide +kernel⟩,
    ⟨st (core (rv 0x73 1 0x1A 7 5 0) 9 2 id), 0, 0, 0, rv 0x73 1 0x1A 7 5 0, 4, 0, by unfold gcTurn; decide +kernel⟩,
    ⟨st (core (0x73) 1 2 id), 0, 0, 0, 0x73, 4, by unfold gcTurn; decide +kernel⟩,
    ⟨st (core 0 1 2 id), 0, 0, 0, 0, 4, 0, by decide +kernel⟩,
    ⟨st (core 0x5B 1 2 id), 0, 0, 0, 0x5B, 4, by unfold gcTurn; decide +kernel⟩,
    ⟨st (core (0x30200073) 1 2 id), 0, 0, 0, 0x30200073, 4, by unfold gcTurn; decide +kernel⟩,
    ⟨st (core (0) 1 2 (fun th => { th with meip := true, mie := 0x800, mstatus := 0x2008 })), 0, 0, 0, 0, 0, by decide +kernel⟩,
    ⟨st (paged ∘ core 0 1 2 (fun th => { th with pc := 64 })), 0, 0, 0, 0, 0, 64, 15, by unfold gcCached; decide +kernel⟩,
    ⟨st spadUp, 0, 0, 0, 0, 0, by decide +kernel⟩⟩

theorem witness_GeneralCoreAccesses :
  (∃ (s : State) (g : Fin 256) (mx : Fin 10) (k w len : Nat) (acc : GcAcc),
      let n := 16 * g.val + k
      let th := getThread s.dev n
      let target := gcTarget th.dataMode acc.addr
      k < 16 ∧ gcTurn s g mx k w len ∧ rvOp w ∈ [0x03, 0x07, 0x23, 0x27, 0x2F] ∧ (rvOp w = 0x07 ∨ rvOp w = 0x27 → bits th.mstatus 13
          2 ≠ 0) ∧ gcAccOf s.dev n w len = some acc ∧ (acc.addr % acc.size ≠ 0 ∨ (target = .control ∧ acc.addr % 4 ≠ 0))) ∧
  (∃ (s : State) (g : Fin 256) (mx : Fin 10) (k w len : Nat) (acc : GcAcc),
      let n := 16 * g.val + k
      let th := getThread s.dev n
      let target := gcTarget th.dataMode acc.addr
      k < 16 ∧ gcTurn s g mx k w len ∧ rvOp w ∈ [0x03, 0x07, 0x23, 0x27, 0x2F] ∧ (rvOp w = 0x07 ∨ rvOp w = 0x27 → bits th.mstatus 13
          2 ≠ 0) ∧ gcAccOf s.dev n w len = some acc ∧ acc.addr % acc.size = 0 ∧ (target = .fault ∨ (target = .control ∧ acc.addr % 4
          = 0 ∧ (acc.size ≠ 4 ∨ 4 ≤ acc.op)) ∨ (target = .dram ∧ (acc.op = 4 ∨ acc.op = 5)))) ∧
  (∃ (s : State) (g : Fin 256) (mx : Fin 10) (k w len : Nat) (acc : GcAcc),
      let n := 16 * g.val + k
      let th := getThread s.dev n
      let target := gcTarget th.dataMode acc.addr
      k < 16 ∧ gcTurn s g mx k w len ∧ rvOp w ∈ [0x03, 0x07, 0x23, 0x27, 0x2F] ∧ (rvOp w = 0x07 ∨ rvOp w = 0x27 → bits th.mstatus 13
          2 ≠ 0) ∧ gcAccOf s.dev n w len = some acc ∧ acc.addr % acc.size = 0 ∧ target = .spad ∧ acc.op ≠ 3) ∧
  (∃ (s : State) (g : Fin 256) (mx : Fin 10) (k w len : Nat) (acc : GcAcc),
      let n := 16 * g.val + k
      let th := getThread s.dev n
      let target := gcTarget th.dataMode acc.addr
      k < 16 ∧ gcTurn s g mx k w len ∧ rvOp w ∈ [0x03, 0x07, 0x23, 0x27, 0x2F] ∧ (rvOp w = 0x07 ∨ rvOp w = 0x27 → bits th.mstatus 13
          2 ≠ 0) ∧ gcAccOf s.dev n w len = some acc ∧ acc.addr % acc.size = 0 ∧ target = .spad ∧ acc.op = 3 ∧ coreStores s.dev (gcOf
          n) < 16) ∧
  (∃ (s : State) (g : Fin 256) (mx : Fin 10) (k w len : Nat) (acc : GcAcc),
      let n := 16 * g.val + k
      let th := getThread s.dev n
      let target := gcTarget th.dataMode acc.addr
      k < 16 ∧ gcTurn s g mx k w len ∧ rvOp w ∈ [0x03, 0x07, 0x23, 0x27, 0x2F] ∧ (rvOp w = 0x07 ∨ rvOp w = 0x27 → bits th.mstatus 13
          2 ≠ 0) ∧ gcAccOf s.dev n w len = some acc ∧ acc.addr % acc.size = 0 ∧ target = .spad ∧ acc.op = 3 ∧ 16 ≤ coreStores s.dev
          (gcOf n)) ∧
  (∃ (s : State) (g : Fin 256) (mx : Fin 10) (k w len : Nat) (acc : GcAcc),
      let n := 16 * g.val + k
      let th := getThread s.dev n
      let target := gcTarget th.dataMode acc.addr
      k < 16 ∧ gcTurn s g mx k w len ∧ rvOp w ∈ [0x03, 0x07, 0x23, 0x27, 0x2F] ∧ (rvOp w = 0x07 ∨ rvOp w = 0x27 → bits th.mstatus 13
          2 ≠ 0) ∧ gcAccOf s.dev n w len = some acc ∧ ∃ e, acc.addr % acc.size = 0 ∧ target = .dram ∧ acc.op < 3 ∧ gcCached s g
          acc.addr e .read) ∧
  (∃ (s : State) (g : Fin 256) (mx : Fin 10) (k w len : Nat) (acc : GcAcc),
      let n := 16 * g.val + k
      let th := getThread s.dev n
      let target := gcTarget th.dataMode acc.addr
      k < 16 ∧ gcTurn s g mx k w len ∧ rvOp w ∈ [0x03, 0x07, 0x23, 0x27, 0x2F] ∧ (rvOp w = 0x07 ∨ rvOp w = 0x27 → bits th.mstatus 13
          2 ≠ 0) ∧ gcAccOf s.dev n w len = some acc ∧ ∃ e, acc.addr % acc.size = 0 ∧ target = .dram ∧ acc.op = 3 ∧ gcCached s g
          acc.addr e .write) ∧
  (∃ (s : State) (g : Fin 256) (mx : Fin 10) (k w len : Nat) (acc : GcAcc),
      let n := 16 * g.val + k
      let th := getThread s.dev n
      let target := gcTarget th.dataMode acc.addr
      k < 16 ∧ gcTurn s g mx k w len ∧ rvOp w ∈ [0x03, 0x07, 0x23, 0x27, 0x2F] ∧ (rvOp w = 0x07 ∨ rvOp w = 0x27 → bits th.mstatus 13
          2 ≠ 0) ∧ gcAccOf s.dev n w len = some acc ∧ acc.addr % 4 = 0 ∧ target = .control ∧ acc.size = 4 ∧ acc.op < 3) :=
  ⟨⟨st (core (rv 3 3 0 7 5 0) (2 ^ 47 + 1) 2 id), 0, 0, 0, rv 3 3 0 7 5 0, 4, ((gcAccOf (core (rv 3 3 0 7 5 0) (2 ^ 47 + 1) 2 id {}) 0
      (rv 3 3 0 7 5 0) 4).getD { rd := 0, addr := 0, size := 8, op := 0 }), by unfold gcTurn; decide +kernel⟩,
    ⟨st (core (rv 3 3 0 7 5 0) (2 ^ 40) 2 id), 0, 0, 0, rv 3 3 0 7 5 0, 4, ((gcAccOf (core (rv 3 3 0 7 5 0) (2 ^ 40) 2 id {}) 0 (rv 3
        3 0 7 5 0) 4).getD { rd := 0, addr := 0, size := 8, op := 0 }), by unfold gcTurn; decide +kernel⟩,
    ⟨st (core (rv 3 3 0 7 5 0) (2 ^ 47) 2 id), 0, 0, 0, rv 3 3 0 7 5 0, 4, ((gcAccOf (core (rv 3 3 0 7 5 0) (2 ^ 47) 2 id {}) 0 (rv 3
        3 0 7 5 0) 4).getD { rd := 0, addr := 0, size := 8, op := 0 }), by unfold gcTurn; decide +kernel⟩,
    ⟨st (core (rv 0x23 3 0 0 5 6) (2 ^ 47) 2 id), 0, 0, 0, rv 0x23 3 0 0 5 6, 4, ((gcAccOf (core (rv 0x23 3 0 0 5 6) (2 ^ 47) 2 id {})
        0 (rv 0x23 3 0 0 5 6) 4).getD { rd := 0, addr := 0, size := 8, op := 0 }), by unfold gcTurn; decide +kernel⟩,
    ⟨st (updSpd 0 (fun x => { x with pool := List.replicate 16 { poolLoad with acc := { poolLoad.acc with op := 3 } } }) ∘ core (rv
        0x23 3 0 0 5 6) (2 ^ 47) 2 id), 0, 0, 0, rv 0x23 3 0 0 5 6, 4, ((gcAccOf (core (rv 0x23 3 0 0 5 6) (2 ^ 47) 2 id {}) 0 (rv
        0x23 3 0 0 5 6) 4).getD { rd := 0, addr := 0, size := 8, op := 0 }), by unfold gcTurn; decide +kernel⟩,
    ⟨st (paged ∘ core (rv 3 3 0 7 5 0) (0) (2) id), 0, 0, 0, rv 3 3 0 7 5 0, 4, ((gcAccOf (core (rv 3 3 0 7 5 0) (0) (2) id {}) 0 (rv
        3 3 0 7 5 0) 4).getD { rd := 0, addr := 0, size := 8, op := 0 }), by decide +kernel, by unfold gcTurn; decide +kernel,
        by decide +kernel, by decide +kernel, by decide +kernel, 15, by unfold gcCached; decide +kernel⟩,
    ⟨st (paged ∘ core (rv 0x23 3 0 0 5 6) (0) (2) id), 0, 0, 0, rv 0x23 3 0 0 5 6, 4, ((gcAccOf (core (rv 0x23 3 0 0 5 6) (0) (2) id
        {}) 0 (rv 0x23 3 0 0 5 6) 4).getD { rd := 0, addr := 0, size := 8, op := 0 }), by decide +kernel,
        by unfold gcTurn; decide +kernel, by decide +kernel, by decide +kernel, by decide +kernel, 15,
        by unfold gcCached; decide +kernel⟩,
    ⟨st (core (rv 3 2 0 7 5 0) (2 ^ 47 + 2 ^ 40) (2) id), 0, 0, 0, rv 3 2 0 7 5 0, 4, ((gcAccOf (core (rv 3 2 0 7 5 0) (2 ^ 47 + 2 ^
        40) (2) id {}) 0 (rv 3 2 0 7 5 0) 4).getD { rd := 0, addr := 0, size := 8, op := 0 }), by unfold gcTurn; decide +kernel⟩⟩

theorem witness_DeviceInstructions :
  (∃ (s : State) (g : Fin 256) (mx : Fin 10) (k w : Nat), k < 16 ∧ gcTurn s g mx k w 4 ∧
      let n := 16 * g.val + k
      let q := gcQuad n
      let th := getThread s.dev n
      let now := mxAt s.dev mx
      let a := (th.reg (rvRs1 w)).toNat
      let b := (th.reg (rvRs2 w)).toNat
      let r := a % 256
      let ring := getRegion s.dev q r
      let seen := ring.asOf now
      devOp w = some .rspace ∧ ringTest seen true (b % 65536) = true) ∧
  (∃ (s : State) (g : Fin 256) (mx : Fin 10) (k w : Nat), k < 16 ∧ gcTurn s g mx k w 4 ∧
      let n := 16 * g.val + k
      let q := gcQuad n
      let th := getThread s.dev n
      let now := mxAt s.dev mx
      let a := (th.reg (rvRs1 w)).toNat
      let b := (th.reg (rvRs2 w)).toNat
      let r := a % 256
      let ring := getRegion s.dev q r
      let seen := ring.asOf now
      devOp w = some .rspace ∧ ringTest seen true (b % 65536) = false) ∧
  (∃ (s : State) (g : Fin 256) (mx : Fin 10) (k w : Nat), k < 16 ∧ gcTurn s g mx k w 4 ∧
      let n := 16 * g.val + k
      let q := gcQuad n
      let th := getThread s.dev n
      let now := mxAt s.dev mx
      let a := (th.reg (rvRs1 w)).toNat
      let b := (th.reg (rvRs2 w)).toNat
      let r := a % 256
      let ring := getRegion s.dev q r
      let seen := ring.asOf now
      devOp w = some .rfill ∧ ringTest seen false (b % 65536) = true) ∧
  (∃ (s : State) (g : Fin 256) (mx : Fin 10) (k w : Nat), k < 16 ∧ gcTurn s g mx k w 4 ∧
      let n := 16 * g.val + k
      let q := gcQuad n
      let th := getThread s.dev n
      let now := mxAt s.dev mx
      let a := (th.reg (rvRs1 w)).toNat
      let b := (th.reg (rvRs2 w)).toNat
      let r := a % 256
      let ring := getRegion s.dev q r
      let seen := ring.asOf now
      devOp w = some .rfill ∧ ringTest seen false (b % 65536) = false) ∧
  (∃ (s : State) (g : Fin 256) (mx : Fin 10) (k w : Nat), k < 16 ∧ gcTurn s g mx k w 4 ∧
      let n := 16 * g.val + k
      let q := gcQuad n
      let th := getThread s.dev n
      let a := (th.reg (rvRs1 w)).toNat
      let r := a % 256
      devOp w = some .rcommit ∧ ownStores s.dev n = 0 ∧ ringFlock s.dev q r = none) ∧
  (∃ (s : State) (g : Fin 256) (mx : Fin 10) (k w : Nat), k < 16 ∧ gcTurn s g mx k w 4 ∧
      let n := 16 * g.val + k
      devOp w = some .rcommit ∧ ownStores s.dev n = 0) ∧
  (∃ (s : State) (g : Fin 256) (mx : Fin 10) (k w : Nat), k < 16 ∧ gcTurn s g mx k w 4 ∧
      let n := 16 * g.val + k
      devOp w = some .rcommit ∧ ownStores s.dev n ≠ 0) ∧
  (∃ (s : State) (g : Fin 256) (mx : Fin 10) (k w : Nat), k < 16 ∧ gcTurn s g mx k w 4 ∧ devOp w = some .rrel) ∧
  (∃ (s : State) (g : Fin 256) (mx : Fin 10) (k w : Nat), k < 16 ∧ gcTurn s g mx k w 4 ∧
      let n := 16 * g.val + k
      let th := getThread s.dev n
      let a := (th.reg (rvRs1 w)).toNat
      let b := (th.reg (rvRs2 w)).toNat
      devOp w = some .srmv ∧ a % 64 = 0 ∧ b % 64 = 0 ∧ gcTarget 0 a = .spad ∧ gcTarget 0 b = .spad) ∧
  (∃ (s : State) (g : Fin 256) (mx : Fin 10) (k w : Nat), k < 16 ∧ gcTurn s g mx k w 4 ∧
      let n := 16 * g.val + k
      let th := getThread s.dev n
      let a := (th.reg (rvRs1 w)).toNat
      let b := (th.reg (rvRs2 w)).toNat
      devOp w = some .srmv ∧ (a % 64 ≠ 0 ∨ b % 64 ≠ 0)) ∧
  (∃ (s : State) (g : Fin 256) (mx : Fin 10) (k w : Nat), k < 16 ∧ gcTurn s g mx k w 4 ∧ devOp w = some .tbr) ∧
  (∃ (s : State) (g : Fin 256) (mx : Fin 10) (k w : Nat), k < 16 ∧ gcTurn s g mx k w 4 ∧
      let n := 16 * g.val + k
      let th := getThread s.dev n
      devOp w = some .tbrdl ∧ th.attach = none) ∧
  (∃ (s : State) (g : Fin 256) (mx : Fin 10) (k w : Nat), k < 16 ∧ gcTurn s g mx k w 4 ∧
      let n := 16 * g.val + k
      let th := getThread s.dev n
      ∃ i, devOp w = some .tbrdl ∧ th.attach = some i) ∧
  (∃ (s : State) (g : Fin 256) (mx : Fin 10) (k w : Nat), k < 16 ∧ gcTurn s g mx k w 4 ∧
      let n := 16 * g.val + k
      let th := getThread s.dev n
      let a := (th.reg (rvRs1 w)).toNat
      devOp w = some .spost ∧ a % 16 = 0 ∧ gcTarget 0 a = .spad) ∧
  (∃ (s : State) (g : Fin 256) (mx : Fin 10) (k w : Nat), k < 16 ∧ gcTurn s g mx k w 4 ∧
      let n := 16 * g.val + k
      let th := getThread s.dev n
      let a := (th.reg (rvRs1 w)).toNat
      devOp w = some .spost ∧ a % 16 ≠ 0) ∧
  (∃ (s : State) (g : Fin 256) (mx : Fin 10) (k w : Nat), k < 16 ∧ gcTurn s g mx k w 4 ∧
      let n := 16 * g.val + k
      devOp w = some .yield ∧ ownStores s.dev n = 0) ∧
  (∃ (s : State) (g : Fin 256) (mx : Fin 10) (k w : Nat), k < 16 ∧ gcTurn s g mx k w 4 ∧
      let n := 16 * g.val + k
      devOp w = some .yield ∧ ownStores s.dev n ≠ 0) ∧
  (∃ (s : State) (g : Fin 256) (mx : Fin 10) (k w : Nat), k < 16 ∧ gcTurn s g mx k w 4 ∧
      let n := 16 * g.val + k
      devOp w = some .waitev ∧ mailFull s.dev n = true) ∧
  (∃ (s : State) (g : Fin 256) (mx : Fin 10) (k w : Nat), k < 16 ∧ gcTurn s g mx k w 4 ∧
      let n := 16 * g.val + k
      let th := getThread s.dev n
      let a := (th.reg (rvRs1 w)).toNat
      devOp w = some .waitev ∧ mailFull s.dev n = false ∧ a ≠ 0 ∧ a ≤ s.dev.dt) ∧
  (∃ (s : State) (g : Fin 256) (mx : Fin 10) (k w : Nat), k < 16 ∧ gcTurn s g mx k w 4 ∧
      let n := 16 * g.val + k
      let th := getThread s.dev n
      let a := (th.reg (rvRs1 w)).toNat
      devOp w = some .waitev ∧ mailFull s.dev n = false ∧ (a = 0 ∨ s.dev.dt < a)) ∧
  (∃ (s : State) (g : Fin 256) (mx : Fin 10) (k w : Nat), k < 16 ∧ gcTurn s g mx k w 4 ∧ devOp w = some .krel) ∧
  (∃ (s : State) (g : Fin 256) (mx : Fin 10) (k w : Nat), k < 16 ∧ gcTurn s g mx k w 4 ∧
      let n := 16 * g.val + k
      let q := gcQuad n
      let th := getThread s.dev n
      let a := (th.reg (rvRs1 w)).toNat
      ∃ off : Nat, ∃ grp : Nat, devOp w = some .cntr ∧ cntrSelect a = some (off, grp) ∧ (th.mode = 3 ∨ cntrGranted s.dev q grp =
          true)) ∧
  (∃ (s : State) (g : Fin 256) (mx : Fin 10) (k w : Nat), k < 16 ∧ gcTurn s g mx k w 4 ∧
      let n := 16 * g.val + k
      let th := getThread s.dev n
      let a := (th.reg (rvRs1 w)).toNat
      devOp w = some .cntr ∧ cntrSelect a = none ∧ th.mode = 3) ∧
  (∃ (s : State) (g : Fin 256) (mx : Fin 10) (k w : Nat), k < 16 ∧ gcTurn s g mx k w 4 ∧
      let n := 16 * g.val + k
      let q := gcQuad n
      let th := getThread s.dev n
      let a := (th.reg (rvRs1 w)).toNat
      devOp w = some .cntr ∧ th.mode ≠ 3 ∧ (cntrSelect a).all (fun x => !cntrGranted s.dev q x.2) = true) :=
  ⟨⟨st (ring 0 0 4 3 ∘ core (rv 0x0B 0 0 7 5 6) (0) (0) id), 0, 0, 0, rv 0x0B 0 0 7 5 6, by unfold gcTurn; decide +kernel⟩,
    ⟨st (ring 0 0 4 3 ∘ core (rv 0x0B 0 0 7 5 6) (0) (1) id), 0, 0, 0, rv 0x0B 0 0 7 5 6, by unfold gcTurn; decide +kernel⟩,
    ⟨st (ring 0 0 4 3 ∘ core (rv 0x0B 1 0 7 5 6) (0) (2) id), 0, 0, 0, rv 0x0B 1 0 7 5 6, by unfold gcTurn; decide +kernel⟩,
    ⟨st (ring 0 0 4 3 ∘ core (rv 0x0B 1 0 7 5 6) (0) (3) id), 0, 0, 0, rv 0x0B 1 0 7 5 6, by unfold gcTurn; decide +kernel⟩,
    ⟨st (ring 0 0 4 3 ∘ core (rv 0x0B 2 0 0 5 0) (0) (0) id), 0, 0, 0, rv 0x0B 2 0 0 5 0, by unfold gcTurn; decide +kernel⟩,
    ⟨st (ring 0 0 4 3 ∘ core (rv 0x0B 2 0 0 5 0) (0) (0) id), 0, 0, 0, rv 0x0B 2 0 0 5 0, by unfold gcTurn; decide +kernel⟩,
    ⟨st (updSpd 0 (fun x => { x with pool := [{ poolLoad with acc := { poolLoad.acc with op := 3 } }] }) ∘ ring 0 0 4 3 ∘ core (rv
        0x0B 2 0 0 5 0) (0) (0) id), 0, 0, 0, rv 0x0B 2 0 0 5 0, by unfold gcTurn; decide +kernel⟩,
    ⟨st (ring 0 0 4 3 ∘ core (rv 0x0B 3 0 0 5 6) (0) (3) id), 0, 0, 0, rv 0x0B 3 0 0 5 6, by unfold gcTurn; decide +kernel⟩,
    ⟨st (core (rv 0x0B 4 0 0 5 6) (2 ^ 47) (2 ^ 47 + 64) id), 0, 0, 0, rv 0x0B 4 0 0 5 6, by unfold gcTurn; decide +kernel⟩,
    ⟨st (core (rv 0x0B 4 0 0 5 6) (2 ^ 47) (2 ^ 47 + 8) id), 0, 0, 0, rv 0x0B 4 0 0 5 6, by unfold gcTurn; decide +kernel⟩,
    ⟨st (core (rv 0x0B 5 0 7 0 0) (0) (0) id), 0, 0, 0, rv 0x0B 5 0 7 0 0, by unfold gcTurn; decide +kernel⟩,
    ⟨st (core (rv 0x0B 5 1 7 0 0) (0) (0) id), 0, 0, 0, rv 0x0B 5 1 7 0 0, by unfold gcTurn; decide +kernel⟩,
    ⟨st (core (rv 0x0B 5 1 7 0 0) (0) (0) (fun th => { th with attach := some i0, ev := { dl32 := 90 } })), 0, 0, 0, rv 0x0B 5 1 7 0
        0, by decide +kernel, by unfold gcTurn; decide +kernel, i0, by decide +kernel⟩,
    ⟨st (core (rv 0x2B 0 0 7 5 6) (2 ^ 47) (1) id), 0, 0, 0, rv 0x2B 0 0 7 5 6, by unfold gcTurn; decide +kernel⟩,
    ⟨st (core (rv 0x2B 0 0 7 5 6) (2 ^ 47 + 8) (1) id), 0, 0, 0, rv 0x2B 0 0 7 5 6, by unfold gcTurn; decide +kernel⟩,
    ⟨st (core (rv 0x2B 1 0 0 0 0) (0) (0) (fun th => { th with attach := some i0, tag := some (i0, 3) })), 0, 0, 0, rv 0x2B 1 0 0 0 0,
        by unfold gcTurn; decide +kernel⟩,
    ⟨st (updSpd 0 (fun x => { x with pool := [{ poolLoad with acc := { poolLoad.acc with op := 3 } }] }) ∘ core (rv 0x2B 1 0 0 0 0)
        (0) (0) id), 0, 0, 0, rv 0x2B 1 0 0 0 0, by unfold gcTurn; decide +kernel⟩,
    ⟨st (spad [1] ∘ core (rv 0x2B 2 0 7 5 0) (0) (0) id), 0, 0, 0, rv 0x2B 2 0 7 5 0, by unfold gcTurn; decide +kernel⟩,
    ⟨st (fun d => { core (rv 0x2B 2 0 7 5 0) 4 0 id d with dt := 4 }), 0, 0, 0, rv 0x2B 2 0 7 5 0, by unfold gcTurn; decide +kernel⟩,
    ⟨st (core (rv 0x2B 2 0 7 5 0) (5) (0) id), 0, 0, 0, rv 0x2B 2 0 7 5 0, by unfold gcTurn; decide +kernel⟩,
    ⟨st (core (rv 0x2B 3 0 0 0 0) (0) (0) (fun th => { th with ev := { order := 2 } })), 0, 0, 0, rv 0x2B 3 0 0 0 0,
        by unfold gcTurn; decide +kernel⟩,
    ⟨st (core (rv 0x2B 4 0 7 5 0) (0) (0) id), 0, 0, 0, rv 0x2B 4 0 7 5 0, by decide +kernel, by unfold gcTurn; decide +kernel,
        (0x1000 : Nat), (0 : Nat), by decide +kernel⟩,
    ⟨st (core (rv 0x2B 4 0 7 5 0) (2048) (0) id), 0, 0, 0, rv 0x2B 4 0 7 5 0, by unfold gcTurn; decide +kernel⟩,
    ⟨st (plane image ∘ core (rv 0x2B 4 0 7 5 0) (0) (0) (fun th => { th with mode := 0 })), 0, 0, 0, rv 0x2B 4 0 7 5 0,
        by unfold gcTurn; decide +kernel⟩⟩

theorem witness_GeneralCoreWaitsEnd :
  (∃ (s : State) (g : Fin 256) (k : Fin 16) (vx : Fin 5) (acc : GcAcc) (r : MemReturn) (d1 : Dev),
      let n := 16 * g.val + k.val
      let th := getThread s.dev n
      th.park = .data acc ∧ takeReturn (.gcData g k th.wait) (vxAt s.dev vx) s.dev = some (r, d1) ∧ acc.op < 3 ∧ r.fault = none ∧
          r.bytes ≠ [] ∧ r.bad = false) ∧
  (∃ (s : State) (g : Fin 256) (k : Fin 16) (vx : Fin 5) (acc : GcAcc) (r : MemReturn) (d1 : Dev) (c : Nat × Nat),
      let n := 16 * g.val + k.val
      let th := getThread s.dev n
      th.park = .data acc ∧ takeReturn (.gcData g k th.wait) (vxAt s.dev vx) s.dev = some (r, d1) ∧ r.fault = some c ∧ r.bad =
          false) ∧
  (∃ (s : State) (g : Fin 256) (k : Fin 16) (vx : Fin 5) (acc : GcAcc) (r : MemReturn) (d1 : Dev),
      let n := 16 * g.val + k.val
      let th := getThread s.dev n
      th.park = .data acc ∧ takeReturn (.gcData g k th.wait) (vxAt s.dev vx) s.dev = some (r, d1) ∧ r.bad = true ∧ (r.fault ≠ none ∨
          (accKind acc.op = 0 ∧ r.bytes ≠ []))) ∧
  (∃ (s : State) (g : Fin 256) (k : Fin 16) (vx : Fin 5) (acc : GcAcc) (r : MemReturn) (d1 : Dev),
      let n := 16 * g.val + k.val
      let th := getThread s.dev n
      th.park = .data acc ∧ takeReturn (.gcData g k th.wait) (vxAt s.dev vx) s.dev = some (r, d1) ∧ r.fault = none ∧ acc.op = 18) ∧
  (∃ (s : State) (g : Fin 256) (k : Fin 16) (vx : Fin 5) (line : Nat) (r : MemReturn) (d1 : Dev),
      let n := 16 * g.val + k.val
      let th := getThread s.dev n
      th.park = .fetch line ∧ takeReturn (.gcFetch g k th.wait) (vxAt s.dev vx) s.dev = some (r, d1) ∧ r.fault = none ∧ r.bad =
          false) ∧
  (∃ (s : State) (g : Fin 256) (k : Fin 16) (mx : Fin 10) (space : Bool) (r j : Nat),
      let n := 16 * g.val + k.val
      let th := getThread s.dev n
      th.park = .ring space r j ∧ ringTest ((getRegion s.dev (gcQuad n) r).asOf (mxAt s.dev mx)) space j = true) ∧
  (∃ (s : State) (g : Fin 256) (k : Fin 16) (mx : Fin 10) (limit rd : Nat),
      let n := 16 * g.val + k.val
      let th := getThread s.dev n
      th.park = .event limit rd ∧ limit ≠ 0 ∧ limit ≤ s.dev.dt) ∧
  (∃ (s : State) (b : WriteBy) (g : Fin 256) (v : W32), writesNow s b (coreCtlAddr g) = true ∧ setBit v 1 = true) ∧
  (∃ (s : State) (g : Fin 256) (k : Fin 16) (mx : Fin 10) (e : ReadyEnt) (slot : Nat),
      let n := 16 * g.val + k.val
      let th := getThread s.dev n
      th.save = some (e, none, slot) ∧ saveReady th = true ∧ th.readyAt + 64 ≤ mxAt s.dev mx) ∧
  (∃ (s : State) (g : Fin 256) (k : Fin 16) (mx : Fin 10) (e : ReadyEnt) (from_ slot : Nat),
      let n := 16 * g.val + k.val
      let th := getThread s.dev n
      th.save = some (e, some from_, slot) ∧ saveReady th = true ∧ th.readyAt + 64 ≤ mxAt s.dev mx) ∧
  (∃ (s : State) (g : Fin 256) (k : Fin 16) (mx : Fin 10) (e : ReadyEnt) (slot due : Nat),
      let n := 16 * g.val + k.val
      let q := gcQuad n
      let th := getThread s.dev n
      th.restore = some (e, slot, due) ∧ due ≤ mxAt s.dev mx ∧ spadBad s.dev q (8 * saveWord s.dev q slot) 640 = false) :=
  ⟨⟨st (returned (back (.gcData 0 0 1) [7] none) ∘ updThread 0 (fun th =>
      { th with park := .data { rd := 5, addr := 0, size := 1, op := 1 }, wait := 1 })), 0, 0, 0,
      { rd := 5, addr := 0, size := 1, op := 1 }, back (.gcData 0 0 1) [7] none, updThread 0 (fun th =>
      { th with park := .data { rd := 5, addr := 0, size := 1, op := 1 }, wait := 1 }) {}, by decide +kernel⟩,
    ⟨st (returned (back (.gcData 0 0 1) [] (some (2, 0))) ∘ updThread 0 (fun th =>
        { th with park := .data { rd := 5, addr := 0, size := 1, op := 1 }, wait := 1 })), 0, 0, 0,
        { rd := 5, addr := 0, size := 1, op := 1 }, back (.gcData 0 0 1) [] (some (2, 0)), updThread 0 (fun th =>
        { th with park := .data { rd := 5, addr := 0, size := 1, op := 1 }, wait := 1 }) {}, (2, 0), by decide +kernel⟩,
    ⟨st (returned { back (.gcData 0 0 1) [7] none with bad := true } ∘ updThread 0 (fun th =>
        { th with park := .data { rd := 5, addr := 0, size := 1, op := 1 }, wait := 1 })), 0, 0, 0,
        { rd := 5, addr := 0, size := 1, op := 1 }, { back (.gcData 0 0 1) [7] none with bad := true }, updThread 0 (fun th =>
        { th with park := .data { rd := 5, addr := 0, size := 1, op := 1 }, wait := 1 }) {}, by decide +kernel⟩,
    ⟨st (returned (back (.gcData 0 0 1) [7] none) ∘ updThread 0 (fun th =>
        { th with park := .data { rd := 5, addr := 0, size := 1, op := 18 }, wait := 1 })), 0, 0, 0,
        { rd := 5, addr := 0, size := 1, op := 18 }, back (.gcData 0 0 1) [7] none, updThread 0 (fun th =>
        { th with park := .data { rd := 5, addr := 0, size := 1, op := 18 }, wait := 1 }) {}, by decide +kernel⟩,
    ⟨st (returned (back (.gcFetch 0 0 1) (List.replicate 64 7) none) ∘ updThread 0 (fun th =>
        { th with park := .fetch 0, wait := 1 })), 0, 0, 0, 0, back (.gcFetch 0 0 1) (List.replicate 64 7) none, updThread 0 (fun th
        => { th with park := .fetch 0, wait := 1 }) {}, by decide +kernel⟩,
    ⟨st (ring 0 0 4 3 ∘ updThread 0 (fun th => { th with park := .ring true 0 0 })), 0, 0, 0, true, 0, 0, by decide +kernel⟩,
    ⟨st (fun d => { updThread 0 (fun th => { th with park := .event 4 7 }) d with dt := 4 }), 0, 0, 0, 4, 7, by decide +kernel⟩,
    ⟨st (updCore 255 (fun c => { c with icache := [(0, [(0, [1])])] })), .firmware, 255, 2, by decide +kernel⟩,
    ⟨st (fun d =>
        { updThread 0 (fun th => { th with busy := true, save := some ({ ev := { payload := 9 }, dl := 50 }, none, 2) }) d with dt := 7 }),
        0, 0, 0, { ev := { payload := 9 }, dl := 50 }, 2, by decide +kernel⟩,
    ⟨st (fun d =>
        { updThread 0 (fun th => { th with busy := true, save := some ({ ev := { payload := 9 }, dl := 50 }, some 3, 2) }) d with dt := 7 }),
        0, 0, 0, { ev := { payload := 9 }, dl := 50 }, 3, 2, by decide +kernel⟩,
    ⟨st (updThread 0 (fun th => { th with restore := some ({ ev := { payload := 9 }, dl := 50 }, 2, 0) })), 0, 0, 0,
        { ev := { payload := 9 }, dl := 50 }, 2, 0, by decide +kernel⟩⟩

theorem witness_ShepherdTakesEvents :
  (∃ (s : State) (q : Fin 4) (vx : Fin 5) (p : Post) (rest : List Post), takeFirst (fun p : Post => p.q == q.val) s.dev.fab.posts = some
      (p, rest) ∧ p.src < 172 ∧ padsQuiet s q vx = true ∧ p.pad = none ∧ p.ret = none ∧ p.ev.typ ≠ 0 ∧ spillDepth (getSpill s.dev q 0) =
      0 ∧ (getShp s.dev q).ready.length < 3840) ∧
  (∃ (s : State) (q : Fin 4) (vx : Fin 5) (p : Post) (rest : List Post), takeFirst (fun p : Post => p.q == q.val) s.dev.fab.posts = some
      (p, rest) ∧ p.src < 172 ∧ padsQuiet s q vx = true ∧ p.ret = none ∧ p.ev.typ = 0 ∧ p.tag = none) ∧
  (∃ (s : State) (q : Fin 4) (vx : Fin 5) (p : Post) (rest : List Post) (k : Fin 4) (due : Nat), takeFirst (fun p : Post => p.q ==
      q.val) s.dev.fab.posts = some (p, rest) ∧ p.src < 172 ∧ padsQuiet s q vx = true ∧ p.pad = some (k.val, due) ∧ p.ret = none ∧
      p.ev.typ ≠ 0 ∧ (padOf s.dev q k).length < 16384) ∧
  (∃ (s : State) (b : WriteBy) (q : Fin 4) (v : W32), writesNow s b (hostGoAddr q) = true ∧ setBit v 31 = true) ∧
  (∃ (s : State) (q : Fin 4) (ring vx : Fin 5) (e : ReadyEnt),
      let x := getSpill s.dev q ring
      let dva := spillAddr s.dev q ring x.tail
      x.wbuf = [e] ∧ x.last + 64 ≤ vxAt s.dev vx ∧ issuerFree s.dev q (vxAt s.dev vx) = true ∧ dvaFault s.dev dva 32 .write = none)
          ∧
  (∃ (s : State) (q : Fin 4) (vx : Fin 5), (getSpill s.dev q 0).ring = [] ∧ (getSpill s.dev q 0).wbuf ≠ [] ∧ (getShp s.dev
      q).ready.length ≤ 3832) ∧
  (∃ (s : State) (q : Fin 4) (vx : Fin 5) (e : ReadyEnt),
      let x := getSpill s.dev q 0
      let dva := spillAddr s.dev q 0 x.head
      x.ring = [e] ∧ x.wbuf = [] ∧ (getShp s.dev q).ready.length ≤ 3832 ∧ issuerFree s.dev q (vxAt s.dev vx) = true ∧ dvaFault s.dev
          dva 32 .read = none ∧ dvaBad s.dev dva 32 = false) ∧
  (∃ (s : State) (q p : Fin 4) (vx : Fin 5) (e : ReadyEnt), padOf s.dev q p = [e] ∧ e.rel ≤ s.dev.dt ∧ e.vx < vxAt s.dev vx ∧ spillDepth
      (getSpill s.dev q 0) = 0 ∧ (getShp s.dev q).ready.length < 3840) ∧
  (∃ (s : State) (q p : Fin 4) (vx : Fin 5) (e : ReadyEnt), (getSpill s.dev q (1 + p)).ring = [] ∧ (getSpill s.dev q (1 + p)).wbuf = [e]
      ∧ (padOf s.dev q p).length < 8192 ∧ s.dev.dt ≤ e.rel) :=
  ⟨⟨st (posted post0), 0, 0, post0, [], by decide +kernel⟩,
    ⟨st (posted { post0 with ev := {} }), 0, 0, { post0 with ev := {} }, [], by decide +kernel⟩,
    ⟨st (posted { post0 with pad := some (3, 500) }), 0, 0, { post0 with pad := some (3, 500) }, [], 3, 500, by decide +kernel⟩,
    ⟨State.reset, .firmware, 3, 0x80000000, by decide +kernel⟩,
    ⟨st (fun d =>
        { updSpill 0 0 (fun x => { x with wbuf := [event0] }) { d with mem := { d.mem with dram := storeDram (pteAddr 0) [0xF] [] } } with dt := 20 }),
        0, 0, 0, event0, by decide +kernel⟩,
    ⟨st (updSpill 0 0 (fun x => { x with wbuf := [event0] })), 0, 0, by decide +kernel⟩,
    ⟨st (fun d =>
        { updSpill 0 0 (fun x => { x with ring := [event0], tail := 1 }) { d with mem := { d.mem with dram := storeDram (pteAddr 0) [0xF] [] } } with dt := 20 }),
        0, 0, event0, by decide +kernel⟩,
    ⟨st (fun d => { updShp 0 (fun s => { s with pads := [[], [event0], [], []] }) d with dt := 20 }), 0, 1, 0, event0,
        by decide +kernel⟩,
    ⟨st (updSpill 0 2 (fun x => { x with wbuf := [{ event0 with rel := 5 }] })), 0, 1, 0, { event0 with rel := 5 },
        by decide +kernel⟩⟩

theorem witness_ShepherdDispatches :
  (∃ (s : State) (q : Fin 4) (vx : Fin 5) (e : ReadyEnt) (n : Nat), dispatchTurn s q vx e ∧ e.ev.cls < 8 ∧ bit (shpCfg s.dev q 2 1)
      e.ev.cls = false ∧ idleThread s.dev q = some n) ∧
  (∃ (s : State) (q : Fin 4) (vx : Fin 5) (e : ReadyEnt) (slot n : Nat), getF s.dev .shp q 0 0 1 = 1 ∧ (getShp s.dev q).decideAt ≤ vxAt
      s.dev vx ∧ (getSpd s.dev q).initDone = true ∧ (candidatesAt s.dev q (vxAt s.dev vx)).head? = some { ent := e, slot := some slot }
      ∧ idleThread s.dev q = some n) ∧
  (∃ (s : State) (q : Fin 4) (vx : Fin 5) (e : ReadyEnt) (n slot : Nat), dispatchTurn s q vx e ∧ bit (shpCfg s.dev q 2 1) e.ev.cls =
      false ∧ idleThread s.dev q = none ∧ shpCfg s.dev q 0 1 ≤ e.ev.cls ∧ victimOf s.dev q = some n ∧ freeSlot s.dev q = some slot ∧
      laterThan e.dl e.ev.cls (getThread s.dev n) = true) ∧
  (∃ (s : State) (q : Fin 4) (vx : Fin 5) (e : ReadyEnt), dispatchTurn s q vx e ∧ e.ev.cls < 8 ∧ bit (shpCfg s.dev q 2 1) e.ev.cls =
      true ∧
      let n := mailThread s.dev q e.ev.cls
      mailFull s.dev n = false) ∧
  (∃ (s : State) (q : Fin 4) (m : StopMsg) (rest : List StopMsg), takeFirst (fun m : StopMsg => m.kind == .shepherd && m.unit == q.val
      && stopReady s.dev m) s.dev.fab.stops = some (m, rest)) :=
  ⟨⟨st (shepherd []), 0, 0, event0, 0, by unfold dispatchTurn; decide +kernel⟩,
    ⟨st (updShp 0 (fun s => { s with ready := [], resume := [⟨event0, 0⟩] }) ∘ shepherd []), 0, 0, event0, 0, 0, by decide +kernel⟩,
    ⟨st (fun d => (List.range 16).foldl (fun d t => updThread t (fun th => { th with busy := true, mode := 0, dl := 1000 }) d) (setR
        .gcx 0 4 8 (shepherd [] d))), 0, 0, event0, 15, 0, by unfold dispatchTurn; decide +kernel⟩,
    ⟨st (shepherd (rec_ 0x100 [(2, 1, 1)])), 0, 0, event0, by unfold dispatchTurn; decide +kernel⟩,
    ⟨st (fun d =>
        { shepherd [] d with fab := { d.fab with stops := [{ kind := .shepherd, unit := 0, inst := i0, event := some { typ := 8 } }] } }),
        0, { kind := .shepherd, unit := 0, inst := i0, event := some { typ := 8 } }, [], by decide +kernel⟩⟩

theorem witness_TransmitPortsSend :
  (∃ (s : State) (b : WriteBy) (p : Fin 8) (v : W32), writesNow s b (txpCtlAddr p) = true ∧ setBit v 0 = true ∧ txEnabled s.dev p =
      false) ∧
  (∃ (s : State) (p : Fin 8) (cycles : Nat) (f f1 : TxFrame) (k : TxPacket), (txChoose p s.dev).1 = some f ∧ f.closed = false ∧
      nextPacket f = some (k, f1)) ∧
  (∃ (s : State) (p : Fin 8) (cycles : Nat) (f : TxFrame) (r : List Byte), (txChoose p s.dev).1 = some f ∧ f.closed = true ∧ f.record =
      some r ∧ f.recordSent = false ∧ f.parts.find? (partReady f) = none ∧ f.header ≠ []) ∧
  (∃ (s : State) (p : Fin 8), txEnabled s.dev p = true ∧ (getTx s.dev p).ready = true ∧ txBetween (getTx s.dev p) = true ∧ (getTx s.dev
      p).lastCal + 1048576 ≤ s.dev.dt) :=
  ⟨⟨State.reset, .firmware, 7, 1, by decide +kernel⟩,
    ⟨st (txing [txFrame]), 0, 0, txFrame, { txFrame with fsSent := true }, { vc := 0, typ := 0, payload := [1, 0] },
        by decide +kernel⟩,
    ⟨st (txing [{ txFrame with closed := true, record := some [5] }]), 0, 0, { txFrame with closed := true, record := some [5] }, [5],
        by decide +kernel⟩,
    ⟨st (fun d => { txing [] d with dt := 1048576 }), 0, by decide +kernel⟩⟩

theorem witness_PeerLinksRun :
  (∃ (s : State) (n : Fin 6),
      let l := getLink s.dev n
      plEnabled s.dev n = true ∧ l.trained = false) ∧
  (∃ (s : State) (n : Fin 6),
      let l := getLink s.dev n
      ∃ b : FlitBody, ∃ rest : List FlitBody, plEnabled s.dev n = true ∧ l.trained = true ∧ l.nakDue = false ∧ l.retry[l.sent]? =
          none ∧ l.queue = b :: rest ∧ l.retry.length < 2047) ∧
  (∃ (s : State) (n : Fin 6),
      let l := getLink s.dev n
      plEnabled s.dev n = true ∧ l.trained = true ∧ l.nakDue = true ∧ (∀ k, l.lastNak = some k → k + 64 ≤ s.dev.dt)) ∧
  (∃ (s : State) (n : Fin 6),
      let l := getLink s.dev n
      ∃ k : Nat, ∃ b : FlitBody, plEnabled s.dev n = true ∧ l.trained = true ∧ l.nakDue = false ∧ l.retry[l.sent]? = some (k, b)) ∧
  (∃ (s : State) (n : Fin 6),
      let l := getLink s.dev n
      plEnabled s.dev n = true ∧ l.trained = true ∧ l.nakDue = false ∧ l.retry[l.sent]? = none ∧ l.queue = []) ∧
  (∃ (s : State) (n : Fin 6), ∃ seq : BitVec 12, ∃ ack : BitVec 12, peerTurn s n 0 seq) ∧
  (∃ (s : State) (n : Fin 6),
      let l := getLink s.dev n
      ∃ seq : BitVec 12, ∃ ack : BitVec 12, ∃ expected : BitVec 12, ∃ k : Nat, peerTurn s n 3 seq ∧ (peerAcked l ack).findIdx? (fun
          e => e.1 == expected.toNat) = some k) ∧
  (∃ (s : State) (n : Fin 6), ∃ seq : BitVec 12, ∃ ack : BitVec 12, ∃ install : W64, ∃ module : Byte, peerTurn s n 8 seq ∧ install.toNat
      = fuseInstallId s.fuse) ∧
  (∃ (s : State) (n : Fin 6), ∃ seq : BitVec 12, ∃ ack : BitVec 12, ∃ install : W64, ∃ module : Byte, peerTurn s n 8 seq ∧ install.toNat
      ≠ fuseInstallId s.fuse) ∧
  (∃ (s : State) (n : Fin 6),
      let l := getLink s.dev n
      ∃ bad : BadFlit, (∀ q a, bad ≠ .flitType q a) ∧ plEnabled s.dev n = true ∧ l.trained = true) ∧
  (∃ (s : State) (n : Fin 6),
      let l := getLink s.dev n
      ∃ seq : BitVec 12, ∃ ack : BitVec 12, plEnabled s.dev n = true ∧ l.trained = true ∧ seq.toNat = l.rxSeq) ∧
  (∃ (s : State) (n : Fin 6),
      let l := getLink s.dev n
      l.retry ≠ [] ∧ l.progress + getF s.dev .peer 0 4 0 24 ≤ s.dev.dt) ∧
  (∃ (s : State) (n : Fin 6), ∃ b : WriteBy, ∃ v : W32, writesNow s b (plCtlAddr n) = true ∧ setBit v 1 = true) :=
  ⟨⟨st (setR .pl 0 0 1), 0, by decide +kernel⟩,
    ⟨st (peer (fun l => { l with queue := [{ typ := 4, body := [1] }] })), 0, ({ typ := 4, body := [1] } : FlitBody), ([] : List
        FlitBody), by decide +kernel⟩,
    ⟨st (peer (fun l => { l with nakDue := true })), 0, ⟨by decide +kernel, by decide +kernel, by decide +kernel, fun k h => nomatch
        (show (some k : Option Nat) = none from h.symm.trans (by decide +kernel))⟩⟩,
    ⟨st (peer (fun l => { l with retry := [(4, { typ := 4, body := [1] })] })), 0, (4 : Nat), ({ typ := 4, body := [1] } : FlitBody),
        by decide +kernel⟩,
    ⟨st (peer id), 0, by decide +kernel⟩,
    ⟨st (peer id), 0, (0 : BitVec 12), (0 : BitVec 12), by unfold peerTurn; decide +kernel⟩,
    ⟨st (peer (fun l => { l with retry := [(4, { typ := 4, body := [1] })], sent := 1 })), 0, (0 : BitVec 12), (0 : BitVec 12), (4 :
        BitVec 12), (0 : Nat), by unfold peerTurn; decide +kernel⟩,
    ⟨st (peer (fun l => { l with up := false })), 0, (0 : BitVec 12), (0 : BitVec 12), (0 : W64), (7 : Byte),
        by unfold peerTurn; decide +kernel⟩,
    ⟨st (peer (fun l => { l with up := false })), 0, (0 : BitVec 12), (0 : BitVec 12), (5 : W64), (7 : Byte),
        by unfold peerTurn; decide +kernel⟩,
    ⟨st (peer id), 0, (BadFlit.crc : BadFlit), ⟨fun q a h => (by cases h), by decide +kernel, by decide +kernel⟩⟩,
    ⟨st (peer id), 0, (0 : BitVec 12), (0 : BitVec 12), by decide +kernel⟩,
    ⟨st (peer (fun l => { l with retry := [(4, { typ := 4, body := [1] })], sent := 1 }) ∘ setR .peer 0 4 0), 0, by decide +kernel⟩,
    ⟨st (peer id), 0, WriteBy.firmware, (3 : W32), by decide +kernel⟩⟩

theorem witness_PeerFlitsTakeEffect :
  (∃ (s : State) (n : Fin 6) (seq ack : BitVec 12), ∃ body : List Byte, peerTurn s n 1 seq ∧ body.length = 248 ∧ 224 < segLen (body.take
      24)) ∧
  (∃ (s : State) (n : Fin 6) (seq ack : BitVec 12), ∃ body, peerTurn s n 1 seq ∧ segmentFits s body ∧ bit (byteAt (body.take 24) 7) 1 =
      false) ∧
  (∃ (s : State) (n : Fin 6) (seq ack : BitVec 12), ∃ body : List Byte, ∃ x : RxSegment, peerTurn s n 2 seq ∧ body.length = 248 ∧
      (getLink s.dev n).seg = some x ∧ x.data.length + 248 < segLen x.header) ∧
  (∃ (s : State) (n : Fin 6) (seq ack : BitVec 12), ∃ w : Byte, ∃ k : Byte, ∃ i : Nat, peerTurn s n 4 seq ∧ (farWindows s.dev n
      w.toNat).find? (fun i => (getWin s.dev i).used != 0) = some i) ∧
  (∃ (s : State) (n : Fin 6) (seq ack : BitVec 12), ∃ w : Byte, ∃ dest : Byte, ∃ body : List Byte, peerTurn s n 5 seq ∧ dest.toNat =
      moduleId s.dev ∧ w.toNat < 64 ∧ body.length = 64 ∧
      let e := winEntry s.dev w.toNat
      winUsed e = true ∧ bit (byteAt e 0) 0 = true ∧ bit (byteAt e 0) 4 = true ∧ bit (byteAt e 0) 5 = true ∧ 4096 ≤ field e 4 4) ∧
  (∃ (s : State) (n : Fin 6) (seq ack : BitVec 12), ∃ job : W16, ∃ step : W32, ∃ module : Byte, peerTurn s n 6 seq) ∧
  (∃ (s : State) (n : Fin 6) (seq ack : BitVec 12), ∃ w : Byte, peerTurn s n 7 seq ∧ s.dev.pow.hubUp = true ∧ s.dev.log.sealing = false
      ∧ slotFree s.dev = true ∧ w.toNat < 64 ∧
      let e := winEntry s.dev w.toNat
      winUsed e = true ∧ bit (byteAt e 0) 0 = true ∧ bit (byteAt e 0) 2 = true ∧ byteAt e 1 = (getLink s.dev n).peer ∧ setBit
          (regRaw s.dev loadCtlAddr) 0 = false ∧ setBit (regRaw s.dev loadCtlAddr) 1 = false ∧ s.dev.cfg.load.state = 1 ∧
          s.dev.cfg.load.src = 2) ∧
  (∃ (s : State) (n : Fin 6) (seq ack : BitVec 12), ∃ w : Byte, ∃ off : W32, peerTurn s n 9 seq ∧ (∀ ch, ch < 256 → (getCh s.dev
      ch).active = none)) :=
  ⟨⟨st (peer id), 0, 0, 0, (segment 300 : List Byte), by unfold peerTurn; decide +kernel⟩,
    ⟨st (window 3 (rec_ 32 [(0, 1, 0x21), (4, 4, 4096)]) ∘ peer id), 0, 0, 0, segment 224,
        by unfold segmentFits peerTurn; decide +kernel⟩,
    ⟨st (peer (fun l => { l with seg := some { header := (segment 600).take 24, data := List.replicate 224 1 } })), 0, 0, 0,
        (List.replicate 248 2 : List Byte), ({ header := (segment 600).take 24, data := List.replicate 224 1 } : RxSegment),
        by unfold peerTurn; decide +kernel⟩,
    ⟨st ((fun d => { d with peer := { d.peer with windows := [(3, { used := 5 })] } }) ∘ window 3 (rec_ 32 [(2, 1, 7)]) ∘ peer id), 0,
        0, 0, (7 : Byte), (2 : Byte), (3 : Nat), by unfold peerTurn; decide +kernel⟩,
    ⟨st (window 3 (rec_ 32 [(0, 1, 0x31), (4, 4, 4096)]) ∘ peer id), 0, 0, 0, (3 : Byte), (0 : Byte), (List.replicate 64 2 : List
        Byte), by unfold peerTurn; decide +kernel⟩,
    ⟨st (peer id), 0, 0, 0, (5 : W16), (6 : W32), (7 : Byte), by unfold peerTurn; decide +kernel⟩,
    ⟨st (updLoad (fun l => { l with state := 1, src := 2 }) ∘ window 3 (rec_ 32 [(0, 1, 5)]) ∘ peer id), 0, 0, 0, (3 : Byte),
        by unfold peerTurn; decide +kernel⟩,
    ⟨st (peer id), 0, 0, 0, (3 : Byte), (6 : W32), by unfold peerTurn; decide +kernel⟩⟩

theorem witness_SessionFramesRun :
  (∃ (s : State) (bytes : List Byte), i3cHears s.dev = true ∧ frameKind bytes = 0) ∧
  (∃ (s : State) (bytes : List Byte) (fr : Frame), frameComes s bytes 1 fr ∧ frameIsNew s fr ∧
      let as := frameAddrs fr.addr fr.n
      as.all (fun a => allows (sessMask s.fuse s.dev fr.session) a false) = true ∧ readWaits as s.dev = false) ∧
  (∃ (s : State) (bytes : List Byte) (fr : Frame), frameComes s bytes 1 fr ∧ frameIsNew s fr ∧ (frameAddrs fr.addr fr.n).all (fun a =>
      allows (sessMask s.fuse s.dev fr.session) a false) = false) ∧
  (∃ (s : State) (bytes : List Byte) (fr : Frame), frameComes s bytes 2 fr ∧ frameIsNew s fr ∧ noBlockedWake s ∧ s.dev.log.sealing =
      false ∧
      let o := sessOrigin s.dev fr.session
      let as := (frameWrites fr).map (·.1)
      as.all (fun a => allows (sessMask s.fuse s.dev fr.session) a true) = true ∧ as.all (fun a => assigned a && isLogged o a &&
          (cciCmdUnit a).isNone) = true ∧ frameWrites fr ≠ []) ∧
  (∃ (s : State) (bytes : List Byte) (fr : Frame), frameComes s bytes 2 fr ∧ frameIsNew s fr ∧ ((frameWrites fr).map (·.1)).all (fun a
      => allows (sessMask s.fuse s.dev fr.session) a true) = false) ∧
  (∃ (s : State) (bytes : List Byte) (fr : Frame), frameComes s bytes 3 fr ∧ s.dev.log.sealing = false ∧
      let x := getSess s.dev fr.session
      let slot := byteAt fr.data 0
      (x.isOpen = true → x.warrant = slot ∧ x.ctl = s.dev.i3c.activeCtl) ∧ slot < 16 ∧ warrantUsable s.fuse slot = true ∧ fr.mac =
          frameMac (warrantKey s.fuse slot) 0 fr.seq fr.body) ∧
  (∃ (s : State) (bytes : List Byte) (fr : Frame), frameComes s bytes 4 fr ∧ frameIsNew s fr ∧ s.dev.log.sealing = false) ∧
  (∃ (s : State) (bytes : List Byte) (fr : Frame), frameComes s bytes 2 fr ∧
      let x := getSess s.dev fr.session
      x.isOpen = true ∧ x.ctl = s.dev.i3c.activeCtl ∧ fr.seq = x.count % 256 ∧ fr.mac = frameMac x.key 0 x.count fr.body ∧
          s.dev.i3c.waits = []) ∧
  (∃ (s : State), i3cHears s.dev = true ∧ ∃ r : List Byte, s.dev.i3c.resp = .ready r) ∧
  (∃ (s : State), i3cHears s.dev = true ∧ s.dev.i3c.resp = .empty) ∧
  (∃ (s : State), i3cHears s.dev = true ∧ ∃ n : Nat, ∃ r, s.dev.i3c.resp = .waiting n r) :=
  ⟨⟨target 0xFF id, [5], by decide +kernel⟩,
    ⟨target 0xFF id, i3cFrame 1 1 (addrOf .rxp 0 0) 4 [] (List.replicate 32 9), i3cParsed (i3cFrame 1 1 (addrOf .rxp 0 0) 4 []
        (List.replicate 32 9)), by unfold frameIsNew frameComes; decide +kernel⟩,
    ⟨target 0 id, i3cFrame 1 1 (addrOf .rxp 0 0) 4 [] (List.replicate 32 9), i3cParsed (i3cFrame 1 1 (addrOf .rxp 0 0) 4 []
        (List.replicate 32 9)), by unfold frameIsNew frameComes; decide +kernel⟩,
    ⟨target 0xFF id, i3cFrame 2 1 (addrOf .rxp 0 0) 4 [1, 0, 0, 0] (List.replicate 32 9), i3cParsed (i3cFrame 2 1 (addrOf .rxp 0 0) 4
        [1, 0, 0, 0] (List.replicate 32 9)), by unfold noBlockedWake frameIsNew frameComes; decide +kernel⟩,
    ⟨target 0 id, i3cFrame 2 1 (addrOf .rxp 0 0) 4 [1, 0, 0, 0] (List.replicate 32 9), i3cParsed (i3cFrame 2 1 (addrOf .rxp 0 0) 4 [1,
        0, 0, 0] (List.replicate 32 9)), by unfold frameIsNew frameComes; decide +kernel⟩,
    ⟨target 0xFF id, i3cFrame 3 1 0 20 (List.replicate 20 0) (List.replicate 32 0), i3cParsed (i3cFrame 3 1 0 20 (List.replicate 20 0)
        (List.replicate 32 0)), by unfold frameComes; decide +kernel⟩,
    ⟨target 0xFF id, i3cFrame 4 1 0 0 [] (List.replicate 32 9), i3cParsed (i3cFrame 4 1 0 0 [] (List.replicate 32 9)),
        by unfold frameIsNew frameComes; decide +kernel⟩,
    ⟨target 0xFF id, i3cFrame 2 0 (addrOf .rxp 0 0) 4 [1, 0, 0, 0] (List.replicate 32 9), i3cParsed (i3cFrame 2 0 (addrOf .rxp 0 0) 4
        [1, 0, 0, 0] (List.replicate 32 9)), by unfold frameComes; decide +kernel⟩,
    ⟨target 0 (updI3c (fun x => { x with resp := .ready [5] })), by decide +kernel, ([5] : List Byte), by decide +kernel⟩,
    ⟨target 0 id, by decide +kernel⟩,
    ⟨target 0 (updI3c (fun x => { x with resp := .waiting 3 false })), by decide +kernel, (3 : Nat), false, by decide +kernel⟩⟩

theorem witness_TargetFollowsTheBus :
  (∃ (s : State), cccHeard s.dev = true ∧
      let i := s.dev.i3c
      ∃ addr : BitVec 7, i.da = none) ∧
  (∃ (s : State), cccHeard s.dev = true) ∧
  (∃ (s : State), cccHeard s.dev = true ∧ ∃ ev : Byte, True) ∧
  (∃ (s : State), cccHeard s.dev = true ∧ ∃ ev : Byte, True) ∧
  (∃ (s : State), cccHeard s.dev = true ∧ ∃ first : BitVec 7, True) ∧
  (∃ (s : State), cccHeard s.dev = true ∧ ∃ target : BitVec 7, True) ∧
  (∃ (s : State), cccHeard s.dev = true ∧ ∃ target : BitVec 7, True) ∧
  (∃ (s : State), cccHeard s.dev = true ∧ ∃ action : Byte, action.toNat ≤ 1) ∧
  (∃ (s : State), cccHeard s.dev = true ∧ ∃ action : Byte, 1 < action.toNat) ∧
  (∃ (s : State), cccHeard s.dev = true) ∧
  (∃ (s : State), cccHeard s.dev = true) ∧
  (∃ (s : State), cccHeard s.dev = true ∧ ∃ len : W16, True) ∧
  (∃ (s : State), cccHeard s.dev = true ∧ ∃ len : W16, True) ∧
  (∃ (s : State), cccHeard s.dev = true ∧ ∃ code : Byte, True) ∧
  (∃ (s : State), cccHeard s.dev = true ∧ ∃ code : Byte, code.toNat < 0x20) ∧
  (∃ (s : State), cccHeard s.dev = true ∧
      let i := s.dev.i3c
      getF s.dev .i3c 0 0 1 1 = 1 ∧ i.hjOn = true ∧ i.da = none) ∧
  (∃ (s : State), cccHeard s.dev = true ∧
      let i := s.dev.i3c
      (getF s.dev .i3c 0 0 1 1 ≠ 1 ∨ i.hjOn = false ∨ i.da ≠ none)) ∧
  (∃ (s : State), cccDirect s.dev = true ∧ ∃ addr : BitVec 7, True) ∧
  (∃ (s : State), cccDirect s.dev = true ∧ ∃ action : Byte, action.toNat ≤ 1) ∧
  (∃ (s : State), cccDirect s.dev = true ∧ ∃ len : W16, True) ∧
  (∃ (s : State), cccDirect s.dev = true ∧ ∃ len : W16, True) ∧
  (∃ (s : State), cccDirect s.dev = true) ∧
  (∃ (s : State), cccDirect s.dev = true) ∧
  (∃ (s : State), cccDirect s.dev = true) ∧
  (∃ (s : State), cccDirect s.dev = true) ∧
  (∃ (s : State), cccDirect s.dev = true) ∧
  (∃ (s : State), cccDirect s.dev = true) ∧
  (∃ (s : State), cccDirect s.dev = true) ∧
  (∃ (s : State), cccDirect s.dev = true ∧
      let i := s.dev.i3c
      ∃ k : Nat, i.ibiDue = true ∧ i.ibiOn = true ∧ i.ibiOut = none ∧ lowestBit (ibiBits s.dev) 0 13 = some k) ∧
  (∃ (s : State), cccDirect s.dev = true ∧
      let i := s.dev.i3c
      ∃ k : Nat, ∃ n : Nat, i.ibiRetryAt = some n ∧ n ≤ s.dev.dt ∧ i.ibiOn = true ∧ lowestBit (ibiBits s.dev) 0 13 = some k) ∧
  (∃ (s : State), i3cUp s.dev = true) ∧
  (∃ (s : State), i3cUp s.dev = true ∧
      let i := s.dev.i3c
      ∃ kind : I3cError, (kind ≠ .crc ∨ i.hdr ≠ .sdr)) ∧
  (∃ (s : State), i3cUp s.dev = true ∧
      let i := s.dev.i3c
      ∃ k : Nat, i.ibiOut = some k ∧ i.ibiRetryAt = none ∧ bit (getR s.dev .i3c 0 0x10).toNat k = true) ∧
  (∃ (s : State), i3cUp s.dev = true ∧
      let i := s.dev.i3c
      ∃ k : Nat, i.ibiOut = some k ∧ i.ibiRetryAt = none) ∧
  (∃ (s : State), i3cUp s.dev = true ∧ s.dev.log.sealing = false) ∧
  (∃ (s : State) (b : WriteBy) (v : W32), writeReaches s.dev (originOf s.dev b) evsumAddr = true) ∧
  (∃ (s : State) (b : WriteBy) (k : Fin 4) (v : W32), writesNow s b (sessCloseAddr k) = true ∧ fld v 0 1 = 1 ∧ (getSess s.dev k).isOpen
      = true) :=
  ⟨⟨st (setR .i3c 0 0 3), by decide +kernel, (9 : BitVec 7), by decide +kernel⟩,
    ⟨target 0 id, by decide +kernel⟩,
    ⟨target 0 id, by decide +kernel, (8 : Byte), trivial⟩,
    ⟨target 0 id, by decide +kernel, (8 : Byte), trivial⟩,
    ⟨target 0 id, by decide +kernel, (9 : BitVec 7), trivial⟩,
    ⟨target 0 id, by decide +kernel, (9 : BitVec 7), trivial⟩,
    ⟨target 0 id, by decide +kernel, (9 : BitVec 7), trivial⟩,
    ⟨target 0 id, by decide +kernel, (1 : Byte), by decide +kernel⟩,
    ⟨target 0 id, by decide +kernel, (2 : Byte), by decide +kernel⟩,
    ⟨target 0 (setR .i3c 0 0 7), by decide +kernel⟩,
    ⟨target 0 (setR .i3c 0 0 15), by decide +kernel⟩,
    ⟨target 0 id, by decide +kernel, (64 : W16), trivial⟩,
    ⟨target 0 id, by decide +kernel, (64 : W16), trivial⟩,
    ⟨target 0 id, by decide +kernel, (0xFF : Byte), trivial⟩,
    ⟨target 0 id, by decide +kernel, (0x1F : Byte), by decide +kernel⟩,
    ⟨st (setR .i3c 0 0 3), by dsimp only; decide +kernel⟩,
    ⟨target 0 id, by dsimp only; decide +kernel⟩,
    ⟨target 0 id, by decide +kernel, (9 : BitVec 7), trivial⟩,
    ⟨target 0 id, by decide +kernel, (1 : Byte), by decide +kernel⟩,
    ⟨target 0 id, by decide +kernel, (64 : W16), trivial⟩,
    ⟨target 0 id, by decide +kernel, (64 : W16), trivial⟩,
    ⟨target 0 id, by decide +kernel⟩,
    ⟨target 0 id, by decide +kernel⟩,
    ⟨target 0 id, by decide +kernel⟩,
    ⟨target 0 id, by decide +kernel⟩,
    ⟨target 0 id, by decide +kernel⟩,
    ⟨target 0 id, by decide +kernel⟩,
    ⟨target 0 id, by decide +kernel⟩,
    ⟨target 0 (updI3c (fun x => { x with ibiDue := true }) ∘ setR .i3c 0 0x10 1), by decide +kernel, (0 : Nat), by decide +kernel⟩,
    ⟨target 0 (updI3c (fun x => { x with ibiRetryAt := some 0 }) ∘ setR .i3c 0 0x10 1), by decide +kernel, (0 : Nat), (0 : Nat),
        by decide +kernel⟩,
    ⟨target 0 (updI3c (fun x => { x with hdr := .other })), by decide +kernel⟩,
    ⟨target 0 id, by decide +kernel, I3cError.te0, by decide +kernel⟩,
    ⟨target 0 (updI3c (fun x => { x with ibiOut := some 3 }) ∘ setR .i3c 0 0x10 8), by decide +kernel, (3 : Nat), by decide +kernel⟩,
    ⟨target 0 (updI3c (fun x => { x with ibiOut := some 3 }) ∘ setR .i3c 0 0x10 8), by decide +kernel, (3 : Nat), by decide +kernel⟩,
    ⟨target 0 id, by decide +kernel⟩,
    ⟨st (updI3c (fun x => { x with ibiAcked := some 3 }) ∘ setR .i3c 0 0x10 9), .firmware, 8, by decide +kernel⟩,
    ⟨target 0 id, .firmware, 0, 1, by decide +kernel⟩⟩

theorem witness_LogCommitsFlushesAndReads :
  (∃ (s : State) (r : ChangeReq) (rest : List ChangeReq), commitTurn s r rest ∧ r.act = .none) ∧
  (∃ (s : State) (r : ChangeReq) (rest : List ChangeReq), commitTurn s r rest ∧ ∃ o, ∃ a, ∃ v : W32, r.act = .write o a v 0 ∧ cciCmdUnit
      a = none ∧ r.frame = none) ∧
  (∃ (s : State) (r : ChangeReq) (rest : List ChangeReq), commitTurn s r rest ∧ ∃ k : Nat, r.act = .closeSession k) ∧
  (∃ (s : State) (r : ChangeReq) (rest : List ChangeReq), commitTurn s r rest ∧ ∃ o : OpenSess, r.act = .openSession o) ∧
  (∃ (s : State) (r : LogRecord) (rest : List LogRecord), s.dev.log.journal = r :: rest ∧ s.dev.log.page = none) ∧
  (∃ (s : State) (q n : Nat), s.dev.log.page = some (q, n)) ∧
  (∃ (s : State) (q n : Nat), s.dev.log.page = some (q, n)) ∧
  (∃ (s : State) (b : WriteBy) (v : W32), writeReaches s.dev (originOf s.dev b) rdCtlAddr = true ∧ fld v 0 1 = 1 ∧ s.dev.log.read =
      none) ∧
  (∃ (s : State) (ok : Bool) (q n : Nat), s.dev.log.read = some (q, n) ∧ n + 2 ≤ s.dev.dt ∧ (∀ w ∈ s.dev.i3c.waits, w.read = none)) ∧
  (∃ (s : State) (r : LogRecord), mirrorTurn s r ∧
      let dva := getPair s.dev .log 0 0x100 0x104 + 64 * (s.dev.log.mirror % getF s.dev .log 0 0x108 0 22)
      ∃ ecc : EccResult, dvaFault s.dev dva 64 .write = none ∧ ecc.isUe = false) ∧
  (∃ (s : State) (r : LogRecord), mirrorTurn s r ∧
      let dva := getPair s.dev .log 0 0x100 0x104 + 64 * (s.dev.log.mirror % getF s.dev .log 0 0x108 0 22)
      ∃ ecc : EccResult, dvaFault s.dev dva 64 .write = none ∧ ecc.isUe = true) ∧
  (∃ (s : State) (r : LogRecord), mirrorTurn s r ∧
      let dva := getPair s.dev .log 0 0x100 0x104 + 64 * (s.dev.log.mirror % getF s.dev .log 0 0x108 0 22)
      ∃ ecc : EccResult, dvaFault s.dev dva 64 .write ≠ none) :=
  ⟨⟨st (logging .none), req .none, [], by unfold commitTurn; decide +kernel⟩,
    ⟨st (logging (.write .firmware (addrOf .rxp 0 0x20) 5 0)), req (.write .firmware (addrOf .rxp 0 0x20) 5 0), [],
        by unfold commitTurn; decide +kernel, Origin.firmware, addrOf .rxp 0 0x20, (5 : W32), by decide +kernel⟩,
    ⟨st (logging (.closeSession 2) ∘ updSess 2 (fun x => { x with isOpen := true })), req (.closeSession 2), [],
        by unfold commitTurn; decide +kernel, (2 : Nat), by decide +kernel⟩,
    ⟨st (logging (.openSession { s := 2, warrant := 1, ctl := 9, count := 4, key := [1] })), req (.openSession
        { s := 2, warrant := 1, ctl := 9, count := 4, key := [1] }), [], by unfold commitTurn; decide +kernel,
        ({ s := 2, warrant := 1, ctl := 9, count := 4, key := [1] } : OpenSess), by decide +kernel⟩,
    ⟨st journal, logRec, [], by decide +kernel⟩,
    ⟨st (fun d => { journal d with log := { (journal d).log with page := some (0, 1) } }), 0, 1, by decide +kernel⟩,
    ⟨st (fun d => { journal d with log := { (journal d).log with page := some (0, 1) } }), 0, 1, by decide +kernel⟩,
    ⟨State.reset, .firmware, 1, by decide +kernel⟩,
    ⟨st (fun d => { journal d with dt := 9, log := { (journal d).log with read := some (0, 7) } }), true, 0, 7, by decide +kernel⟩,
    ⟨st (mirror ∘ fun d => { d with mem := { d.mem with dram := storeDram (pteAddr 0) [0xF] [] } }), logRec,
        by unfold mirrorTurn; decide +kernel, EccResult.clean, by decide +kernel⟩,
    ⟨st (mirror ∘ fun d => { d with mem := { d.mem with dram := storeDram (pteAddr 0) [0xF] [] } }), logRec,
        by unfold mirrorTurn; decide +kernel, (.uncorrectable 0 : EccResult), by decide +kernel⟩,
    ⟨st mirror, logRec, by unfold mirrorTurn; decide +kernel, EccResult.clean, by decide +kernel⟩⟩

theorem witness_MonitorWindowsCountStableRun :
  (∃ (s : State) (count : BitVec 13), s.dev.pow.standby = true ∧ 3891 ≤ count.toNat ∧ count.toNat ≤ 4301) ∧
  (∃ (s : State) (count : BitVec 13), s.dev.pow.standby = true ∧ (count.toNat < 3891 ∨ 4301 < count.toNat)) :=
  ⟨⟨st (clock 0 [0, 0, 0, 0]), 4301, by decide +kernel⟩,
    ⟨st (fun d => { clock 0 [0, 0, 0, 0] d with clk := { d.clk with bad := true } }), 3890, by decide +kernel⟩⟩

theorem witness_ClocksFailOverAndReturn :
  (∃ (s : State) (b : WriteBy) (v : W32), writesNow s b clkCtlAddr = true ∧ fld v 0 1 = 1 ∧ (clkSrc s.dev = 0 ∨ clkSrc s.dev = 3) ∧
      mapRising 0 s.dev.ctxs = true) ∧
  (∃ (s : State) (k : Fin 4), s.dev.clk.due.getD k 0 ≤ 10 * s.dev.dt ∧
      let i := s.dev.clk.ramp.getD k 0
      clkSrc s.dev = 1 ∧ i + 1 < (dividers k).length) ∧
  (∃ (s : State) (k : Fin 4), s.dev.clk.due.getD k 0 ≤ 10 * s.dev.dt ∧
      let i := s.dev.clk.ramp.getD k 0
      clkSrc s.dev = 3 ∧ 0 < i) ∧
  (∃ (s : State) (n : Nat), s.dev.clk.stopAt = some n ∧ n + 25000 ≤ s.dev.dt ∧ rootLock s.dev = true) ∧
  (∃ (s : State), refStable s.dev = true ∧ s.dev.pow.hubUp = true ∧ s.dev.pow.computeUp = true) ∧
  (∃ (s : State), refStable s.dev = true ∧ s.dev.pow.hubUp = true ∧ s.dev.pow.computeUp = false ∧ s.dev.pow.booted = true ∧
      s.dev.sec.recovery = false ∧ s.dev.pow.gated = false ∧ wakeAllowed s.dev = true) ∧
  (∃ (s : State), s.dev.clk.stopAt = none) ∧
  (∃ (s : State) (up : Bool), clkSrc s.dev = 0 ∧ s.dev.pow.hubUp = true ∧ (∀ n, s.dev.clk.trimAt = some n → n + 125000000 ≤ s.dev.dt)) ∧
  (∃ (s : State), s.dev.pow.standby = true) :=
  ⟨⟨st (inst id ∘ plane image ∘ clock 0 [0, 0, 0, 0]), .firmware, 1, by decide +kernel⟩,
    ⟨st (clock 1 [13, 17, 19, 21]), 0, by dsimp only; decide +kernel⟩,
    ⟨st (clock 3 [1, 0, 0, 0]), 0, by dsimp only; decide +kernel⟩,
    ⟨st (fun d => { setF .clk 0 4 3 1 1 d with dt := 25000, clk := { d.clk with stopAt := some 0 } }), 0, by decide +kernel⟩,
    ⟨st (fun d => { setF .clk 0 4 2 1 1 (clock 2 [14, 17, 19, 21] d) with pow := { d.pow with computeUp := true } }),
        by decide +kernel⟩,
    ⟨st (fun d => { setF .clk 0 4 2 1 1 d with pow := { d.pow with booted := true } }), by decide +kernel⟩,
    ⟨State.reset, by decide +kernel⟩,
    ⟨st (clock 0 [0, 0, 0, 0]), true, by decide +kernel⟩,
    ⟨State.reset, by decide +kernel⟩⟩

theorem witness_PowerStatesChange :
  (∃ (s : State), getF s.dev .pwr 0 4 4 1 = 1 ∧ powerState s.dev = 4 ∧ s.dev.pow.fallow = none ∧ s.dev.pow.fail = none ∧ idleQuiet s.dev
      = true ∧ getF s.dev .pwr 0 8 0 24 ≤ s.dev.pow.quiet) ∧
  (∃ (s : State) (b : WriteBy) (v : W32), writesNow s b pwrCtlAddr = true ∧ (fld v 0 3 = 1 ∨ fld v 0 3 = 2) ∧ 3 ≤ powerState s.dev ∧
      s.dev.pow.fallow = none ∧ s.dev.pow.fail = none ∧ mapRising 0 s.dev.ctxs = true) ∧
  (∃ (s : State) (target n : Nat), s.dev.pow.fallow = some (target, n) ∧ n + 125000 ≤ s.dev.dt ∧ s.dev.log.reqs = [] ∧ s.dev.log.sealing
      = false ∧ (target = 1 ∨ target = 2)) ∧
  (∃ (s : State), inFallow s.dev = true ∧ getF s.dev .pwr 0 0xC 0 1 = 1) ∧
  (∃ (s : State), inFallow s.dev = true ∧ ∃ falling, getF s.dev .pwr 0 0xC 1 1 = 1 ∧ getF s.dev .pwr 0 0xC 3 1 = b2n falling) ∧
  (∃ (s : State), inFallow s.dev = true ∧ s.dev.pow.timerDue = true ∧ getF s.dev .pwr 0 0xC 2 1 = 1 ∧ wakeAllowed s.dev = true) ∧
  (∃ (s : State), inFallow s.dev = true ∧ getF s.dev .pwr 0 0xC 0 1 = 0) ∧
  (∃ (s : State), inFallow s.dev = true ∧ ∃ c, ∃ n : Nat, s.dev.pow.computeUp = false ∧ s.dev.pow.blocked = some (c, n) ∧ s.dev.dt ≤ n +
      1250000000 ∧ wakeAllowed s.dev = false) ∧
  (∃ (s : State), inFallow s.dev = true ∧ ∃ c, ∃ n : Nat, ∃ inlet, ∃ hub, s.dev.pow.computeUp = false ∧ s.dev.pow.blocked = some (c, n)
      ∧ s.dev.pow.v48 = true ∧ (inlet = false ∨ hub = false)) ∧
  (∃ (s : State), s.dev.pow.hubUp = true ∧ s.dev.pow.computeUp = false ∧ s.dev.pow.blocked ≠ none ∧ wakeAllowed s.dev = true) ∧
  (∃ (s : State) (c : WakeCause) (n : Nat), s.dev.pow.standby = true ∧ s.dev.pow.hubUp = true ∧ s.dev.pow.computeUp = true ∧
      s.dev.pow.blocked = some (c, n) ∧ s.dev.dt ≤ n + 1250000000 ∧ powerState s.dev = 2 ∧ s.dev.pow.v48 = true ∧ wakeAllowed s.dev =
      false) ∧
  (∃ (s : State) (n : Nat), s.dev.sec.running = some n ∧ s.dev.sec.restarting = none ∧ s.dev.pow.hubUp = true) ∧
  (∃ (s : State) (n : Nat), s.dev.sec.restarting = some n ∧ s.dev.log.sealing = false ∧ s.dev.tel.tripWaits = false) :=
  ⟨⟨st (fun d => { setF .pwr 0 4 4 1 1 (powerAt 4 d) with pow := { d.pow with quiet := 2 ^ 24 } }), by decide +kernel⟩,
    ⟨st (inst id ∘ plane image ∘ powerAt 4), .firmware, 1, by decide +kernel⟩,
    ⟨st (fun d =>
        { updSess 2 (fun x => { x with isOpen := true }) (powerAt 4 d) with dt := 125000, pow := { d.pow with fallow := some (2, 0) } }),
        2, 0, by decide +kernel⟩,
    ⟨st (fallow 1 id), by decide +kernel⟩,
    ⟨st (fallow 0xA id), by decide +kernel, true, by decide +kernel⟩,
    ⟨st (fallow 4 (fun p => { p with timerDue := true })), by decide +kernel⟩,
    ⟨st (fallow 0 id), by decide +kernel⟩,
    ⟨st (fallow 1 (fun p => { p with blocked := some (.i3c, 0), inletOk := false })), by decide +kernel, WakeCause.i3c, (0 : Nat),
        by decide +kernel⟩,
    ⟨st (fallow 1 (fun p => { p with blocked := some (.i3c, 0) })), by decide +kernel, WakeCause.i3c, (0 : Nat), false, true,
        by decide +kernel⟩,
    ⟨st (updPow (fun p => { p with blocked := some (.write, 0) })), by decide +kernel⟩,
    ⟨st (powerAt 2 ∘ updPow (fun p => { p with computeUp := true, blocked := some (.powerOn, 0), inletOk := false })),
        WakeCause.powerOn, (0 : Nat), by decide +kernel⟩,
    ⟨st (updSec (fun x => { x with running := some 0 })), 0, by decide +kernel⟩,
    ⟨st (updSec (fun x => { x with restarting := some 1 })), 1, by decide +kernel⟩⟩

theorem witness_PowerComesAndGoes :
  (∃ (s : State), s.dev.pow.standby = false) ∧
  (∃ (s : State) (mv : W16), 44000 ≤ mv.toNat ∧ s.dev.pow.standby = true ∧ s.dev.pow.v3 = true ∧ s.dev.pow.booted = false ∧
      s.dev.pow.fail = none ∧ powerState s.dev = 0 ∧ (s.dev.sec.boot = 0 ∨ s.dev.sec.boot = 1)) ∧
  (∃ (s : State), s.dev.pow.v48 = true) ∧
  (∃ (s : State) (c : PowerCause), s.dev.pow.standby = true ∧ s.dev.pow.fail = none ∧ s.dev.pow.hubUp = true ∧ mapRising 0 s.dev.ctxs =
      true) ∧
  (∃ (s : State) (c : PowerCause), s.dev.pow.standby = true ∧ s.dev.pow.fail ≠ none) ∧
  (∃ (s : State) (n : Nat), s.dev.pow.fail = some n ∧ s.dev.pow.gated = false ∧ s.dev.pow.hubUp = true ∧ n + 64 ≤ s.dev.dt) ∧
  (∃ (s : State) (n : Nat), s.dev.pow.fail = some n ∧ n + 625000 ≤ s.dev.dt ∧ s.dev.log.reqs = [] ∧ s.dev.pow.hubUp = true) :=
  ⟨⟨st (updPow (fun p => { p with standby := false })), by decide +kernel⟩,
    ⟨st (powerAt 0), 44000, by decide +kernel⟩,
    ⟨State.reset, by decide +kernel⟩,
    ⟨st (inst id ∘ plane image), .v48, by decide +kernel⟩,
    ⟨st (updPow (fun p => { p with fail := some 0 })), .v3, by decide +kernel⟩,
    ⟨st (fun d => { updPow (fun p => { p with fail := some 0 }) d with dt := 64 }), 0, by decide +kernel⟩,
    ⟨st (fun d => { updPow (fun p => { p with fail := some 0 }) (journal d) with dt := 625000 }), 0, by decide +kernel⟩⟩

theorem witness_TelemetryThermalAndAging :
  (∃ (s : State) (m0 m1 m2 m3 : W16), s.dev.tel.marginAt + 125000000 ≤ s.dev.dt ∧ s.dev.pow.computeUp = true ∧ s.dev.sec.restarting =
      none ∧ s.dev.sec.running ≠ none) ∧
  (∃ (s : State) (inlet hub a b c e : W16), s.dev.pow.hubUp = true ∧ s.dev.tel.sampleAt + 125000 ≤ s.dev.dt ∧ s.dev.pow.computeUp =
      true) ∧
  (∃ (s : State) (r : TelReading) (ecc : EccResult), s.dev.pow.hubUp = true ∧ s.dev.tel.lastAt / 125000000 < s.dev.dt / 125000000) :=
  ⟨⟨st (fun d => updSec (fun x => { x with running := some 0 }) { d with dt := 125000000, pow := { d.pow with computeUp := true } }),
      39, 40, 41, 42, by decide +kernel⟩,
    ⟨st (fun d => { d with dt := 125000, pow := { d.pow with computeUp := true } }), 0x2D00, 0x2000, 0x6E00, 0x3000, 0x3000, 0x3000,
        by decide +kernel⟩,
    ⟨st (fun d => powerAt 4 { d with dt := 125000001 }),
        { power := 1, quads := (1, 2, 3, 4), v48 := 5, wearMean := 6, wearMax := 7, bad := 8, spare := 9, seconds := 10 }, .clean,
        by decide +kernel⟩⟩

theorem witness_FusesAndFirmware :
  (∃ (s : State) (i : Nat) (event : Bool) (rest : List (Nat × Bool)), s.dev.sec.queue = (i, event) :: rest ∧ s.dev.sec.fuseDue ≤
      s.dev.dt) ∧
  (∃ (s : State) (b : WriteBy) (v : W32), writesNow s b (secAddr 0x100) = true ∧ setBit v 31 = true) ∧
  (∃ (s : State) (b : WriteBy) (v : W32), writesNow s b (secAddr 0x20) = true ∧ onlyBit v 0 3 ∧ fwBusy s.dev = false) ∧
  (∃ (s : State) (b : WriteBy) (v : W32), writesNow s b (secAddr 0x20) = true ∧ onlyBit v 1 3 ∧ fwBusy s.dev = true) ∧
  (∃ (s : State) (b : WriteBy) (v : W32), writesNow s b (secAddr 0x20) = true ∧
      let o := otherBank s.dev
      onlyBit v 2 3 ∧ bankValid s.dev o = true) ∧
  (∃ (s : State) (b : WriteBy) (v : W32), writesNow s b (secAddr 0x20) = true ∧
      let o := otherBank s.dev
      onlyBit v 2 3 ∧ bankValid s.dev o = false) ∧
  (∃ (s : State) (w : FwLoad), s.dev.sec.fwLoad = some w ∧ w.open_ = false ∧ getF s.dev .sec 0 0x24 0 3 = 2) ∧
  (∃ (s : State) (b : WriteBy) (v : W32), writesNow s b (secAddr 0x40) = true ∧ setBit v 31 = true) ∧
  (∃ (s : State) (b : WriteBy) (v : W32), writesNow s b (secAddr 0x44) = true ∧ setBit v 31 = true) :=
  ⟨⟨st (updSec (fun x => { x with queue := [(3585, true)] })), 3585, true, [], by decide +kernel⟩,
    ⟨State.reset, .debug, 0x80000040, by decide +kernel⟩,
    ⟨State.reset, .firmware, 1, by unfold onlyBit; decide +kernel⟩,
    ⟨st (setR .sec 0 0x24 1), .firmware, 2, by unfold onlyBit; decide +kernel⟩,
    ⟨st (updSec (fun x => { x with valid := [true, true] })), .firmware, 4, by unfold onlyBit; decide +kernel⟩,
    ⟨State.reset, .firmware, 4, by unfold onlyBit; decide +kernel⟩,
    ⟨st (setR .sec 0 0x24 2 ∘ updSec (fun x => { x with fwLoad := some { bank := 1, rxp := 0, slot := 0 } })),
        { bank := 1, rxp := 0, slot := 0 }, by decide +kernel⟩,
    ⟨State.reset, .firmware, 0x80000001, by decide +kernel⟩,
    ⟨State.reset, .firmware, 0x80000001, by decide +kernel⟩⟩

theorem witness_DebugPortAndAttestation :
  (∃ (s : State) (b : WriteBy) (v : W32), writesNow s b (secAddr 0x50) = true ∧ onlyBit v 0 5 ∧ s.dev.sec.fails < 16) ∧
  (∃ (s : State) (b : WriteBy) (v : W32), writesNow s b (secAddr 0x50) = true ∧ onlyBit v 0 5 ∧ 16 ≤ s.dev.sec.fails) ∧
  (∃ (s : State) (b : WriteBy) (v : W32), writesNow s b (secAddr 0x50) = true ∧ onlyBit v 1 5 ∧ (∀ c n, s.dev.sec.chal = some (c, n) → n
      ≤ s.dev.dt)) ∧
  (∃ (s : State) (b : WriteBy) (v : W32), writesNow s b (secAddr 0x50) = true ∧ ∃ c, ∃ n,
      let slot := byteAt (respBytes s.dev 0 1) 0
      onlyBit v 1 5 ∧ s.dev.sec.chal = some (c, n) ∧ s.dev.dt < n ∧ (usableSlots s.fuse (runningFw s.dev)).contains slot = true) ∧
  (∃ (s : State) (b : WriteBy) (v : W32), writesNow s b (secAddr 0x50) = true ∧ onlyBit v 2 5 ∧ s.dev.sec.unlock ≠ none) ∧
  (∃ (s : State) (b : WriteBy) (v : W32), writesNow s b (secAddr 0x50) = true ∧ onlyBit v 3 5 ∧ fuseSupply s.dev = true ∧ fuseLocked
      s.fuse = false) ∧
  (∃ (s : State) (b : WriteBy) (v : W32), writesNow s b (secAddr 0x50) = true ∧ onlyBit v 4 5 ∧ fuseSupply s.dev = true ∧ fuseLocked
      s.fuse = true ∧ fuseSealed s.fuse = false) ∧
  (∃ (s : State) (b : WriteBy) (v : W32), writesNow s b (secAddr 0x50) = true ∧ onlyBit v 4 5 ∧ fuseLocked s.fuse = false) ∧
  (∃ (s : State) (n : Nat), s.dev.sec.unlock = some n ∧ n ≤ s.dev.dt ∧ s.dev.log.sealing = false) ∧
  (∃ (s : State) (n : Nat), s.dev.sec.unlock = some n ∧ s.dev.dt < n) ∧
  (∃ (s : State) (c : List Byte) (n : Nat), s.dev.sec.chal = some (c, n) ∧ n ≤ s.dev.dt) ∧
  (∃ (s : State) (b : WriteBy) (v : W32), writesNow s b (secAddr 0x80) = true ∧ setBit v 0 = true) ∧
  (∃ (s : State) (r : List Byte), s.dev.sec.att = some r) :=
  ⟨⟨State.reset, .debug, 1, by unfold onlyBit; decide +kernel⟩,
    ⟨st (updSec (fun x => { x with fails := 16 })), .debug, 1, by unfold onlyBit; decide +kernel⟩,
    ⟨State.reset, .debug, 2, ⟨by decide +kernel, by unfold onlyBit; decide +kernel, fun _ _ h => by cases h⟩⟩,
    ⟨lockedKey, .debug, 2, by decide +kernel, List.replicate 32 0, 100, by unfold onlyBit; decide +kernel⟩,
    ⟨st (updSec (fun x => { x with unlock := some 9, debug := 2 })), .debug, 4, by unfold onlyBit; decide +kernel⟩,
    ⟨st (fun d => clock 0 [] { d with pow := { d.pow with v48 := true } }), .debug, 8, by unfold onlyBit; decide +kernel⟩,
    ⟨locked, .debug, 16, by unfold onlyBit; decide +kernel⟩,
    ⟨State.reset, .debug, 16, by unfold onlyBit; decide +kernel⟩,
    ⟨st (fun d => updSec (fun x => { x with unlock := some 9, debug := 2 }) { d with dt := 9 }), 9, by decide +kernel⟩,
    ⟨st (updSec (fun x => { x with unlock := some 9, debug := 2 })), 9, by decide +kernel⟩,
    ⟨st (updSec (fun x => { x with chal := some ([], 0) })), [], 0, by decide +kernel⟩,
    ⟨State.reset, .i3c 0, 1, by decide +kernel⟩,
    ⟨st (updSec (fun x => { x with att := some [7] })), [7], by decide +kernel⟩⟩

theorem witness_RegisterWritesAreRecorded :
  (∃ (s : State) (b : WriteBy) (a v : W32) (mx : Fin 10), writesNow s b a.toNat = true ∧ plainWrite s a.toNat ∧ isLogged (originOf s.dev
      b) a.toNat = true) ∧
  (∃ (s : State) (b : WriteBy) (a v : W32) (mx : Fin 10), writeReaches s.dev (originOf s.dev b) a.toNat = true ∧ plainWrite s a.toNat ∧
      isLogged (originOf s.dev b) a.toNat = true ∧ s.dev.log.sealing = false ∧ slotFree s.dev = false) ∧
  (∃ (s : State) (b : WriteBy) (a v : W32) (mx : Fin 10), writeReaches s.dev (originOf s.dev b) a.toNat = false ∧ plainWrite s a.toNat)
      ∧
  (∃ (s : State) (b : WriteBy) (a v : W32) (mx : Fin 10) (r : RegRef), writesNow s b a.toNat = true ∧ plainWrite s a.toNat ∧ locate
      a.toNat = some r ∧ storesOnly r.blk = true) :=
  ⟨⟨State.reset, .firmware, BitVec.ofNat 32 (addrOf .tel 0 0x10), 1, 0, by unfold plainWrite noBlockedWake; decide +kernel⟩,
    ⟨full, .firmware, BitVec.ofNat 32 (addrOf .tel 0 0x10), 1, 0, by unfold plainWrite noBlockedWake; decide +kernel⟩,
    ⟨st (fun d => { d with pow := { d.pow with hubUp := false } }), .firmware, 4, 1, 0,
        by unfold plainWrite noBlockedWake; decide +kernel⟩,
    ⟨State.reset, .firmware, BitVec.ofNat 32 (addrOf .memc 0 0), 1, 0, { blk := .memc, idx := 0, off := 0 },
        by unfold plainWrite noBlockedWake; decide +kernel⟩⟩

theorem witness_DeviceTimeReadsAsOneValue :
  (∃ (s : State) (r : ReadBy) (a : W32), s.dev.pow.hubUp = true ∧ (r = .debug → debugReaches s.dev a.toNat = true) ∧ a.toNat = addrOf
      .clk 0 0x20) ∧
  (∃ (s : State) (r : ReadBy), True) ∧
  (∃ (s : State) (g : Fin 256) (mx : Fin 10) (k w : Nat), k < 16 ∧ gcTurn s g mx k w 4 ∧ devOp w = some .tbr ∧ rvRd w ≠ 0) :=
  ⟨⟨st (fun d => { d with dt := 2 ^ 32 + 5 }), .debug, BitVec.ofNat 32 (addrOf .clk 0 0x20), by decide +kernel⟩,
    ⟨State.reset, .i3c, trivial⟩,
    ⟨st (core (rv 0x0B 5 0 7 0 0) (0) (0) id), 0, 0, 0, rv 0x0B 5 0 7 0 0, by unfold gcTurn; decide +kernel⟩⟩

theorem witness_CountersAreReadAndSampled :
  (∃ (s : State) (r : ReadBy) (a : W32), s.dev.pow.hubUp = true ∧ (r = .debug → debugReaches s.dev a.toNat = true) ∧ ∃ (q : Fin 4) (i :
      Fin 1152), a.toNat = addrOf .pmu q (0x1000 + 8 * i)) ∧
  (∃ (s : State) (b : WriteBy) (q : Fin 5) (v : W32), writeReaches s.dev (originOf s.dev b) (snapAddr q) = true ∧ setBit v 0 = true) ∧
  (∃ (s : State) (q : Fin 4) (vx : Fin 5) (r : SampleRec) (n : Nat) (rest : List (SampleRec × Nat)), (getPmu s.dev q).due = (r, n) ::
      rest ∧
      let k := getF s.dev .pmu q 0x100 8 8
      let g := getRegion s.dev q k
      sampleRingOk s.dev q = true ∧ g.fill < g.n ∧ vxAt s.dev vx ≤ n + 64 ∧ ringFlock s.dev q k = none) ∧
  (∃ (s : State) (q : Fin 4) (vx : Fin 5) (r : SampleRec) (n : Nat) (rest : List (SampleRec × Nat)), (getPmu s.dev q).due = (r, n) ::
      rest ∧
      let k := getF s.dev .pmu q 0x100 8 8
      let g := getRegion s.dev q k
      (sampleRingOk s.dev q = false ∨ g.n ≤ g.fill ∨ n + 64 < vxAt s.dev vx)) :=
  ⟨⟨State.reset, .i3c, BitVec.ofNat 32 (addrOf .pmu 0 0x1000), by decide +kernel, by decide +kernel, 0, 0, by decide +kernel⟩,
    ⟨st (fun d => { d with dt := 2 ^ 32 + 5 }), .firmware, 4, 1, by decide +kernel⟩,
    ⟨st (sampled 4 0), 0, 0, sample, 0, [], by dsimp only; decide +kernel⟩,
    ⟨st (sampled 4 4), 0, 0, sample, 0, [], by dsimp only; decide +kernel⟩⟩

theorem witness_StepRunsTheFrontCommand :
  (∃ (c : Instr) (rest : List Instr) (s : State), True) ∧
  (∃ s : State, s.pending = []) :=
  ⟨⟨.fuseBitProgrammed, [], State.reset, trivial⟩,
    ⟨State.reset, by decide +kernel⟩⟩

theorem witness_FusesOnlyGain :
  (∃ s : State, mapWf (fun _ => 0#8) s.fuse.bytes = true) :=
  ⟨{ State.reset with fuse := warrant 1, pending := [.fuseBitProgrammed], dev := updSec (fun x => { x with queue := [(5, false)] }) {} },
      by decide +kernel⟩

/-! Well-formed commands: an ill-formed term for each check, which it refuses. -/

theorem test_ill_formed_registers : ([.loadStart .firmware 0, .loadAbort .firmware 0, .loadDone .firmware 0, .switchCommit .firmware 0, .portEnable .firmware 0 0,
    .portDisable .firmware 0 1, .slotEnable .firmware 0 0, .slotDisable .firmware 0 1, .cciEnable .firmware 0 0, .cciPush .firmware 0 0,
    .cciTransferDone 0 (List.replicate 9 0), .fsyncGeneratorEnable .firmware 0 0, .ispCommit .firmware 0 0 0,
    .visTruncate 0 0 (some (.firmware, 0)) 0, .drvAbort .firmware 0 0, .spdInject .firmware 0 0, .regionReset .firmware 0 0 0,
    .foldStop .firmware 0 0 0 0, .dmaStart (some .firmware) 0 0, .dmaAbort .firmware 0 0, .dmaAbortNext .firmware 0 0, .pteWrite .firmware 0,
    .pteRead .firmware 0, .xltInvalidate .firmware 0 0, .meStop 0 (some (.firmware, 0)) 0, .gcIinv .firmware 0 0, .hostGo .firmware 0 0] : List Instr).all (fun i => !i.wellFormed) = true := by
  decide +kernel

theorem test_ill_formed_rest : ([.txPortEnable .firmware 0 0, .peerHead 0 0 0 [], .peerData 0 0 0 [], .peerRecord 0 0 0 0 0 [], .peerRetrain .firmware 0 0,
    .i3cRead [], .i3cWrite [], .i3cOpen [], .i3cClose [], .i3cMalformedFrame (i3cFrame 1 0 0 4 [] []), .sessionClose .firmware 0 0,
    .logRead .firmware 0, .powerTargetWrite .firmware 0, .fuseProg .firmware 0, .fwLoadStart .firmware 0, .fwLoadAbort .firmware 0,
    .fwActivate .firmware 0, .rollbackAdvance .firmware 0, .revoke .firmware 0, .dbgChal .firmware 0, .dbgSubmit .firmware 0,
    .dbgRelock .firmware 0, .dbgLock .firmware 0, .dbgSeal .firmware 0, .attGo .firmware 0, .pmuSnap 0 .firmware 0,
    .registerWrite .firmware 2 0 0, .latchedPairRead .i3c 2] : List Instr).all (fun i => !i.wellFormed) = true := by
  decide +kernel

theorem test_ill_formed_long_packet : ([.longPacket 0 0 0 (List.replicate 65536 0) .good, .embeddedData 0 0 (List.replicate 65536 0) .good,
    .bulkPacket 0 0 (List.replicate 65536 0) .good] : List Instr).all (fun i => !i.wellFormed) = true := by
  simp only [List.all_cons, List.all_nil, Instr.wellFormed, List.length_replicate]; decide

theorem test_well_formed : ([.loadStart .firmware 1, .i3cRead (i3cFrame 1 0 0 4 [] []), .dtTick, .slotDisable .firmware 0 0] : List Instr).all
    Instr.wellFormed = true := by decide +kernel

/-! Names and addresses that the spec works out (R8, R12, the tables of 00_scope.md, and R229 and R281). -/

theorem test_addresses : [addrOf .ch 133 0, addrOf .isp 9 0, addrOf .me 21 0, addrOf .ch 72 0, addrOf .me 10 0, addrOf .wrp 2 0, addrOf .fea 2 0,
    addrOf .ispCtx 64 0] = [0x330500, 0x354000, 0x375000, 0x230800, 0x272000, 0x264000, 0x26C000, 0x250400] := by decide +kernel

/-- R299: thread 5 of GC80 reads mhartid. -/
theorem test_hart : gcReg (stateOf (.gcInstruction 80 0) (st (fun d => updThread (16 * 80 + 5) (fun th => { th with busy := true })
    (updCore 80 (fun c => { c with icache := [(0, [(0, leBytes 4 0xF14022F3 ++ List.replicate 60 0)])] })
      (updSpd 1 (fun s => { s with initDone := true }) d))))).dev (16 * 80 + 5) 5 = 1285 := by decide +kernel

/-! Arithmetic that the spec works out. -/

/-- The sub-pixel example of R129: 23 and 3/32 is element 739. -/
theorem test_subpixel : steElem 0 { lo := 22, s := [420, 300, 380] } 23 = 739 := by decide +kernel

/-- The table of R248: channels of five offsets under variants 0 and 1. -/
theorem test_channel_hash : [0x240000000, 0x240001100, 0x240002200, 0x240003300, 0x24000FF00].map (fun a => (hashChannel 0 a, hashChannel 1 a))
    = [(6, 0), (6, 3), (6, 6), (6, 5), (6, 0)] := by decide +kernel

/-- The companding function of R83 at its ends. -/
theorem test_compand : [compand 0, compand 1, compand 4, compand 0xFFFFFF] = [0, 16, 32, 65535] := by decide +kernel

/-- The check values of the CRCs that R35 and R360 name, over the digits 1 to 9. -/
theorem test_crc : (crc32 digits = 0xCBF43926) ∧ (crc16 digits = 0x29B1) := by decide +kernel

/-- FIPS 180-4's example of SHA-384. -/
theorem test_sha384 : (sha384 [0x61, 0x62, 0x63]).take 8 = [0xCB, 0x00, 0x75, 0x3F, 0x45, 0xA3, 0x5E, 0x8B] := by decide +kernel

/-- FIPS 180-4's example of SHA-256, and RFC 8017's RSAVP1 on the textbook key n 3233, e 17: 65 gives 2790. -/
theorem test_sha256 : (sha256 [0x61, 0x62, 0x63]).take 8 = [0xBA, 0x78, 0x16, 0xBF, 0x8F, 0x01, 0xCF, 0xEA] := by decide +kernel
theorem test_powMod : powMod 3233 32 65 17 = 2790 ∧ powMod 3233 32 2790 2753 = 65 := by decide +kernel

/-- Base-16 digits of FIPS 205, most significant first, and a signature block of no bytes, which verifies under no key. -/
theorem test_slh : slhDigits [0x12, 0xAF] 4 4 = [1, 2, 10, 15] ∧ rsaVerifies [] [] [] = false := by decide +kernel

/-! RV64 words (R298): each word as its format spells it, with its result. -/

theorem test_addi : aluResult 0xFFF30293 0 0 0 = some (0xFFFFFFFFFFFFFFFF : W64) := by decide +kernel
theorem test_add : aluResult 0x006283B3 0 3 4 = some (7 : W64) := by decide +kernel
theorem test_sraw : aluResult 0x4062D3BB 0 0x80000000 4 = some (0xFFFFFFFFF8000000 : W64) := by decide +kernel
theorem test_div_by_zero : aluResult 0x0262C3B3 0 7 0 = some (0xFFFFFFFFFFFFFFFF : W64) := by decide +kernel
theorem test_rem_overflow : aluResult 0x0262E3B3 0 0x8000000000000000 0xFFFFFFFFFFFFFFFF = some (0 : W64) := by decide +kernel
theorem test_c_li : expandC 0x4505 = some 0x00100513 := by decide +kernel
theorem test_c_mv : expandC 0x852E = some 0x00B00533 := by decide +kernel

/-! Binary32 (R298, R266): ties to even, overflow to infinity, and a sum that cancels. -/

theorem test_f32_add : ((f32.add 0 (f32.decode 0x3F800000) (f32.decode 0x3F800000)).1, (f32.add 0 (f32.decode 0x7F7FFFFF)
    (f32.decode 0x7F7FFFFF)).1) = (0x40000000, 0x7F800000) := by decide +kernel
theorem test_f32_div : (f32.div 0 (f32.decode 0x3F800000) (f32.decode 0x40400000)).1 = 0x3EAAAAAB := by decide +kernel
theorem test_f32_sqrt : (f32.sqrt 0 (f32.decode 0x40000000)).1 = 0x3FB504F3 := by decide +kernel

/-! Memory: a store is read back, little-endian, and writing the value that nothing listed reads as removes the entry. -/

theorem test_little_endian : leBytes 4 0x12345678 = [0x78, 0x56, 0x34, 0x12] := by decide
theorem test_store_zero_unlists : storeBytes 0 8 [0, 0] (storeBytes 0 8 [1, 2] []) = [] := by decide +kernel
theorem test_store_reads_back : spadPeek (spad [1, 2, 3] {}) 0 0 4 = [1, 2, 3, 0] := by decide +kernel

/-! A step: DT advances (R2), a wait for a tag ends with its report, a fuse bit is set. -/

theorem test_tick : (stateOf .dtTick State.reset).dev.dt = 1 := by decide +kernel
theorem test_fuse_bit : fuseBit (stateOf .fuseBitProgrammed (st (updSec (fun x => { x with queue := [(3585, true)] })))).fuse 3585 = true := by
  decide +kernel
theorem test_step_takes_front : ((match step { State.reset with pending := [.dtTick, .rstdaa] } with
    | .next t => t.pending
    | _ => []) : List Instr) = [.rstdaa] := by decide +kernel

end
end

section
/-! SUPPORT. Views of the module that counts, samples, trace entries and the end of IDLE leave alone, one lemma for each operation that
a Shepherd's decision is made of. -/

namespace Sys2Proof.Machine

/-! ### Threads and Shepherds read back -/

@[simp] theorem getThread_updThread_same (t : Nat) (f : GcThread → GcThread) (d : Dev) :
    getThread (updThread t f d) t = f (getThread d t) := by simp [getThread, updThread]

theorem getThread_updThread_ne {t m : Nat} (h : m ≠ t) (f : GcThread → GcThread) (d : Dev) :
    getThread (updThread t f d) m = getThread d m := mapGet_upd_ne _ _ h f d.threads

theorem getThread_congr {d e : Dev} (h : e.threads = d.threads) (t : Nat) : getThread e t = getThread d t := by
  unfold getThread; rw [h]

theorem getShp_updThread (t q : Nat) (f : GcThread → GcThread) (d : Dev) : getShp (updThread t f d) q = getShp d q := rfl

theorem spadByte_congr {d e : Dev} (h : e.mem.spad = d.mem.spad) (q a : Nat) : spadByte e q a = spadByte d q a := by
  unfold spadByte; rw [h]

/-- What an update of any Shepherd's record keeps of every record, it keeps of the module's. -/
theorem getShp_updShp_keep {β : Type} (p : ShpSt → β) {f : ShpSt → ShpSt} (hf : ∀ s, p (f s) = p s) (q r : Nat) (d : Dev) :
    p (getShp (updShp r f d) q) = p (getShp d q) := by
  by_cases h : q = r
  · subst h; rw [getShp_updShp_same, hf]
  · exact congrArg p (mapGet_upd_ne _ _ h f d.shp)

/-- A register read after a write of a register: x0 stays 0. -/
theorem GcThread.reg_setReg (th : GcThread) (n m : Nat) (v : W64) (hn : n ≠ 0) :
    (th.setReg n v).reg m = if m = n then v else th.reg m := by
  unfold GcThread.setReg GcThread.reg
  by_cases h : m = n
  · subst h; simp [hn]
  · simp [h, hn, mapGet_set_ne _ _ h]

theorem GcThread.reg_congr {a b : GcThread} (h : a.x = b.x) (n : Nat) : a.reg n = b.reg n := by
  unfold GcThread.reg; rw [h]

@[simp] theorem GcThread.setReg_mail (th : GcThread) (n : Nat) (v : W64) : (th.setReg n v).mail = th.mail := by
  unfold GcThread.setReg; split <;> rfl

@[simp] theorem GcThread.setReg_meip (th : GcThread) (n : Nat) (v : W64) : (th.setReg n v).meip = th.meip := by
  unfold GcThread.setReg; split <;> rfl

/-! ### Views that bookkeeping leaves alone -/

/-- Control addresses at and above the wait histograms of the Shepherds' blocks (R22, R328). -/
def HistAddr (a : Nat) : Prop := 0x100000 ≤ a ∧ a / 0x10000 % 16 = 2 ∧ 0x400 ≤ a % 0x10000

theorem histAddr_shp {q off : Nat} (h : 0x400 ≤ off) (h' : off < 0x10000) : HistAddr (addrOf .shp q off) := by
  simp only [HistAddr, addrOf, Nat.div_one]
  omega

theorem not_histAddr_shpCnt {q i : Nat} (h : i < 8) : ¬ HistAddr (addrOf .shp q (0x80 + 4 * i)) := by
  simp only [HistAddr, addrOf, Nat.div_one]
  omega

theorem not_histAddr_spd {q off : Nat} (h : off < 0x10000) : ¬ HistAddr (addrOf .spd q off) := by
  simp only [HistAddr, addrOf, Nat.div_one]
  omega

theorem not_histAddr_pmu {q off : Nat} (h : off < 0x10000) : ¬ HistAddr (addrOf .pmu q off) := by
  simp only [HistAddr, addrOf, Nat.div_one]
  omega

theorem not_histAddr_gcx {q off : Nat} (h : off < 0x1000) : ¬ HistAddr (addrOf .gcx q off) := by
  simp only [HistAddr, addrOf, Nat.div_one]
  omega

theorem not_histAddr_pwr {off : Nat} (h : off < 0x10000) : ¬ HistAddr (addrOf .pwr 0 off) := by
  simp only [HistAddr, addrOf]
  omega

/-- A view of the module that no bookkeeping changes: neither registers, EVSUM's IBI, the wake time and the sampler, nor a counter
outside the histograms, nor a trace entry that is made. -/
structure Untold {β : Type} (g : Dev → β) : Prop where
  stored : ∀ (d : Dev) w r i p, g { d with wakeAt := w, regs := r, i3c := i, pmu := p } = g d
  counted : ∀ (d : Dev) b i off n, ¬ HistAddr (addrOf b i off) → g (addCnt b i off n d) = g d
  traced : ∀ (d : Dev) q x, g (updShp q (fun s => { s with traces := s.traces ++ [x] }) d) = g d

namespace Untold

section
variable {β : Type} {g : Dev → β} (hg : Untold g)
include hg

theorem pmuEv {e : Nat} (he : e < 64) (q n : Nat) (b : EvBy) (a : EvAddr) (d : Dev) : g (pmuEv q e n b a d) = g d := by
  unfold Machine.pmuEv
  split
  · rfl
  · have step : ∀ (l : List Nat), (∀ f ∈ l, f < 8) → ∀ d : Dev,
        g (l.foldl (fun d f => guardDev (fsPasses d q f e b a) (addCnt .pmu q (0x2400 + 8 * (64 * f + e)) n) d) d) = g d := by
      intro l
      induction l with
      | nil => intros; rfl
      | cons f r ih =>
        intro hl d
        have hf : f < 8 := hl f (by simp)
        rw [List.foldl_cons, ih (fun x hx => hl x (by simp [hx])),
          guardDev_keep g _ _ (fun d => hg.counted d _ _ _ _ (not_histAddr_pmu (by omega)))]
    exact step _ (fun f hf => List.mem_range.1 hf) d

theorem shpCnt {i : Nat} (hi : i < 8) (q n : Nat) (d : Dev) : g (shpCnt q i n d) = g d :=
  hg.counted d _ _ _ _ (not_histAddr_shpCnt hi)

theorem gcCnt {i : Nat} (hi : i < 8) (t n : Nat) (d : Dev) : g (gcCnt t i n d) = g d :=
  hg.counted d _ _ _ _ (not_histAddr_gcx (by omega))

theorem setPowerState (n : Nat) (d : Dev) : g (setPowerState n d) = g d := by
  unfold Machine.setPowerState
  split
  · rfl
  · unfold evsum
    rw [guardDev_keep g _ _ (fun d => hg.stored d d.wakeAt d.regs _ d.pmu)]
    exact hg.stored d d.wakeAt _ d.i3c d.pmu

theorem idleExit (d : Dev) : g (idleExit d) = g d := by
  unfold Machine.idleExit
  split
  · rw [hg.counted _ _ _ _ _ (not_histAddr_pwr (by decide)), hg.setPowerState]
    exact hg.stored d _ d.regs d.i3c d.pmu
  · rfl

theorem updPmu (q : Nat) (f : PmuSt → PmuSt) (d : Dev) : g (updPmu q f d) = g d := hg.stored d d.wakeAt d.regs d.i3c _

theorem sampleStage (q s key k : Nat) (d : Dev) : g (sampleStage q s key k d) = g d := by
  unfold Machine.sampleStage sampleStageAt sampleUpd
  split
  · exact guardDev_keep g _ _ (hg.updPmu q _) d
  · rfl

theorem sampleEnd (q s key vx : Nat) (early : Bool) (d : Dev) : g (sampleEnd q s key vx early d) = g d := by
  unfold Machine.sampleEnd
  split
  · exact guardDev_keep g _ _ (hg.updPmu q _) d
  · rfl

theorem trace (t kind wait : Nat) (ev : Event) (now : Nat) (d : Dev) : g (trace t kind wait ev now d) = g d := by
  unfold Machine.trace
  simp only
  split
  · rfl
  · exact hg.traced d _ _

/-- A retirement changes, beside bookkeeping, the thread's count of instructions. -/
theorem gcRetire {t : Nat} (ht : ∀ d : Dev, g (updThread t (fun th => { th with instret := th.instret + 1 }) d) = g d) (vx : Nat) (d : Dev) :
    g (gcRetire t vx d) = g d := by
  unfold Machine.gcRetire
  rw [hg.sampleEnd, hg.sampleStage, hg.pmuEv (by decide), ht]

/-- A count in a histogram changes a counter alone. -/
theorem histCount (hc : ∀ (d : Dev) c, g { d with cnts := c } = g d) (q vx : Nat) (e : ReadyEnt) (d : Dev) : g (histCount q vx e d) = g d := by
  unfold Machine.histCount
  rw [hg.pmuEv (by decide)]
  exact hc d _

end

/-! ### The views of a decision -/

theorem threads : Untold (fun d : Dev => d.threads) := ⟨fun _ _ _ _ _ => rfl, fun _ _ _ _ _ _ => rfl, fun _ _ _ => rfl⟩

theorem mem : Untold (fun d : Dev => d.mem) := ⟨fun _ _ _ _ _ => rfl, fun _ _ _ _ _ _ => rfl, fun _ _ _ => rfl⟩

theorem hist {a : Nat} (h : HistAddr a) : Untold (fun d : Dev => cntAt d a) :=
  ⟨fun _ _ _ _ _ => rfl, fun d _ _ _ _ ho => cntAt_addCnt_ne _ _ _ _ (fun e => ho (e ▸ h)) d, fun _ _ _ => rfl⟩

theorem shp {β : Type} {p : ShpSt → β} (hp : ∀ (s : ShpSt) l, p { s with traces := l } = p s) (q : Nat) :
    Untold (fun d : Dev => p (getShp d q)) :=
  ⟨fun _ _ _ _ _ => rfl, fun _ _ _ _ _ _ => rfl, fun d _ _ => getShp_updShp_keep p (fun s => hp s _) q _ d⟩

end Untold

/-! ### Writes of scratchpad bytes -/

/-- A view that a write of scratchpad bytes leaves alone (R201, R223, R305). -/
structure Unwritten {β : Type} (g : Dev → β) : Prop extends Untold g where
  written : ∀ (d : Dev) m t s, g { d with mem := m, threads := t, spd := s } = g d

namespace Unwritten

section
variable {β : Type} {g : Dev → β} (hg : Unwritten g)
include hg

theorem breakResv (q a len : Nat) (d : Dev) : g (breakResv q a len d) = g d := by
  unfold Machine.breakResv
  simp only
  split
  · exact hg.written d d.mem _ d.spd
  · rfl

theorem setR (b : Blk) (i off v : Nat) (d : Dev) : g (setR b i off v d) = g d := hg.stored d d.wakeAt _ d.i3c d.pmu

theorem auditViolation (q r s kind n : Nat) (p : Party) (d : Dev) : g (auditViolation q r s kind n p d) = g d := by
  have first : ∀ d : Dev, g (orR .spd q 0x8 4 (addCnt .spd q (if kind = 0 then 0x34 else 0x38) n d)) = g d := by
    intro d
    unfold orR
    rw [hg.setR, hg.counted _ _ _ _ _ (not_histAddr_spd (by split <;> decide))]
  unfold Machine.auditViolation
  simp only
  split
  · exact first d
  · rw [hg.setR, hg.setR]
    exact (hg.written _ _ _ _).trans (first d)

theorem auditAccess (q a len : Nat) (w : Bool) (p : Party) (d : Dev) : g (auditAccess q a len w p d) = g d := by
  unfold Machine.auditAccess
  refine foldl_keep g _ (fun d x => ?_) _ d
  simp only
  split <;> exact guardDev_keep g _ _ (hg.auditViolation _ _ _ _ _ _) d

theorem countRows (q a len : Nat) (p : Party) (d : Dev) : g (countRows q a len p d) = g d := by
  unfold Machine.countRows
  split
  · exact hg.pmuEv (by decide) _ _ _ _ _
  · rw [hg.pmuEv (by decide), hg.counted _ _ _ _ _ (not_histAddr_spd (by decide))]

theorem writeQuarter (q a len k : Nat) (d : Dev) : g (writeQuarter q a len k d) = g d := by
  have clean : g (cleanQuarter q k d) = g d := hg.written d _ d.threads d.spd
  unfold Machine.writeQuarter
  split
  · exact clean
  · split
    · rw [hg.counted _ _ _ _ _ (not_histAddr_spd (by decide))]
      exact hg.written d _ d.threads d.spd
    · exact clean

theorem spadWrite (p : Party) (q a : Nat) (bs : List Byte) (d : Dev) : g (spadWrite p q a bs d) = g d := by
  unfold Machine.spadWrite
  refine (hg.written _ _ _ _).trans ?_
  rw [foldl_keep g _ (fun d k => hg.writeQuarter q a bs.length k d), hg.countRows, hg.auditAccess, hg.breakResv]

end

theorem hist {a : Nat} (h : HistAddr a) : Unwritten (fun d : Dev => cntAt d a) := ⟨Untold.hist h, fun _ _ _ _ => rfl⟩

theorem shp {β : Type} {p : ShpSt → β} (hp : ∀ (s : ShpSt) l, p { s with traces := l } = p s) (q : Nat) :
    Unwritten (fun d : Dev => p (getShp d q)) := ⟨Untold.shp hp q, fun _ _ _ _ => rfl⟩

end Unwritten

end Sys2Proof.Machine
end

section
/-! SUPPORT. The frame of a Shepherd's decision, a start on an idle thread (R301, R317, R320, R328), a delivery to a mailbox (R322), and
the decision from its winner's place (R317). -/

namespace Sys2Proof.Machine

/-! ### The frame of a decision -/

/-- The module without the parts that a decision may change. -/
def undecided (d : Dev) : Dev :=
  { d with wakeAt := 0, regs := [], cnts := [], mem := {}, fab := {}, i3c := {}, spd := [], shp := [], threads := [], pmu := [], rr := [] }

theorem Unwritten.undecided : Unwritten undecided :=
  ⟨⟨fun _ _ _ _ _ => rfl, fun _ _ _ _ _ _ => rfl, fun _ _ _ => rfl⟩, fun _ _ _ _ => rfl⟩

/-- A view that a decision without a write of the scratchpad leaves alone: threads, lists and counts do not enter it. -/
structure Unplaced {β : Type} (g : Dev → β) : Prop extends Untold g where
  updThread : ∀ t f (d : Dev), g (updThread t f d) = g d
  listed : ∀ q f (d : Dev), g (updShp q f d) = g d
  counts : ∀ (d : Dev) c, g { d with cnts := c } = g d

theorem Unplaced.undecided : Unplaced undecided :=
  ⟨Unwritten.undecided.toUntold, fun _ _ _ => rfl, fun _ _ _ => rfl, fun _ _ => rfl⟩

theorem Unplaced.mem : Unplaced (fun d : Dev => d.mem) := ⟨Untold.mem, fun _ _ _ => rfl, fun _ _ _ => rfl, fun _ _ => rfl⟩

theorem Unplaced.leaveList {β : Type} {g : Dev → β} (hg : Unplaced g) (q t : Nat) (mailbox : Bool) (e : ReadyEnt) (d : Dev) :
    g (leaveList q t mailbox e d) = g d := hg.listed q _ d

theorem Unplaced.leaveResume {β : Type} {g : Dev → β} (hg : Unplaced g) (q slot : Nat) (d : Dev) : g (leaveResume q slot d) = g d :=
  hg.listed q _ d

theorem dispatchFrame_of_undecided {s : State} {e : Dev} (hu : undecided e = undecided s.dev) (hm : e.mem.dram = s.dev.mem.dram) :
    Claims.DispatchFrame s { s with dev := e } := by
  refine ⟨?_, fun a => by unfold dramByte; rw [hm]⟩
  have he : e = { undecided e with wakeAt := e.wakeAt, regs := e.regs, cnts := e.cnts, mem := e.mem, fab := e.fab, i3c := e.i3c
                                   spd := e.spd, shp := e.shp, threads := e.threads, pmu := e.pmu, rr := e.rr } := rfl
  rw [hu] at he
  exact congrArg (fun x => { s with dev := x }) he

/-! ### Events that leave the list, and the threads that take them -/

theorem leaveList_ready (q t : Nat) (mailbox : Bool) (e : ReadyEnt) (d : Dev) :
    (getShp (leaveList q t mailbox e d) q).ready = (getShp d q).ready.filter (fun x => x.arr != e.arr) := by simp [leaveList]

/-- An ATOMIC event holds its key from its dispatch on (R316). -/
theorem leaveList_keys (q t : Nat) (mailbox : Bool) (e : ReadyEnt) (d : Dev) :
    (getShp (leaveList q t mailbox e d) q).keys
      = (getShp d q).keys ++ (if 2 ≤ e.ev.order then [{ key := e.ev.key, thread := t, mailbox := mailbox }] else []) := by
  simp only [leaveList, getShp_updShp_same]
  split <;> simp

/-- R320 reads the configuration alone. -/
theorem entryOf_leaveList (q t q' : Nat) (mailbox : Bool) (e : ReadyEnt) (ev : Event) (d : Dev) :
    entryOf (leaveList q t mailbox e d) q' ev = entryOf d q' ev := by
  have hcfg : (getShp (leaveList q t mailbox e d) q').cfg = (getShp d q').cfg := by
    unfold leaveList
    exact getShp_updShp_keep (·.cfg) (fun _ => by rfl) q' q d
  unfold entryOf shpCfg
  rw [hcfg]

/-- The thread that takes an event is one of the Shepherd's own quadrant. -/
theorem gcQuad_of_idleThread {d : Dev} {q n : Nat} (h : idleThread d q = some n) : gcQuad n = q := by
  unfold idleThread at h
  simp only at h
  split at h
  · next c hc =>
    have hmem := List.mem_of_find?_eq_some h
    have hcore := List.mem_of_find?_eq_some hc
    simp only [List.mem_map, List.mem_range, List.mem_filter] at hmem hcore
    obtain ⟨k, hk, rfl⟩ := hmem
    unfold gcQuad
    omega
  · cases h

/-! ### A winner starts on an idle thread (R301, R317) -/

/-- A view that a thread's record does not enter is the same after a start. -/
theorem startThread_view {β : Type} {g : Dev → β} {t : Nat} (h : ∀ f (d : Dev), g (updThread t f d) = g d) (e : ReadyEnt) (at_ : Nat) (d : Dev) :
    g (startThread t e at_ d) = g d := by
  unfold startThread
  exact h _ _

theorem dispatchTo_view {β : Type} {g : Dev → β} (hg : Untold g) (hc : ∀ (d : Dev) c, g { d with cnts := c } = g d)
    (q t vx : Nat) (e : ReadyEnt) (d : Dev) : g (dispatchTo q t vx e d) = g (startThread t e (2 * vx + 10) d) := by
  unfold dispatchTo
  rw [hg.trace, hg.histCount hc, hg.pmuEv (by decide), hg.shpCnt (by decide), hg.idleExit]

/-- A start leaves the Shepherds' records but for their trace entries. -/
theorem dispatchTo_shp {β : Type} {p : ShpSt → β} (hp : ∀ (s : ShpSt) l, p { s with traces := l } = p s) (q t vx : Nat) (e : ReadyEnt) (d : Dev) :
    p (getShp (dispatchTo q t vx e d) q) = p (getShp d q) :=
  (dispatchTo_view (Untold.shp hp q) (fun _ _ => rfl) q t vx e d).trans
    (startThread_view (g := fun d => p (getShp d q)) (fun _ _ => rfl) e _ _)

theorem Unplaced.dispatchTo {β : Type} {g : Dev → β} (hg : Unplaced g) (q t vx : Nat) (e : ReadyEnt) (d : Dev) :
    g (dispatchTo q t vx e d) = g d := by
  rw [dispatchTo_view hg.toUntold hg.counts, startThread_view (hg.updThread t)]

theorem histBin_lt (w : Nat) : histBin w < 16 := by
  unfold histBin
  split
  · omega
  · split
    · next h0 h =>
      have := (Nat.log2_lt (by omega)).2 h
      omega
    · omega

/-- The address of a wait's bin in its class's histogram (R328). -/
def histOf (q w cls : Nat) : Nat := addrOf .shp q (0x400 + 0x40 * cls + 4 * histBin w)

theorem histAddr_histOf {cls : Nat} (h : cls < 8) (q w : Nat) : HistAddr (histOf q w cls) :=
  histAddr_shp (by omega) (by have := histBin_lt w; omega)

theorem cntAt_histCount {e : ReadyEnt} (h : e.ev.cls < 8) (q vx : Nat) (d : Dev) :
    cntAt (histCount q vx e d) (histOf q (waitOf e vx) e.ev.cls) = cntAt d (histOf q (waitOf e vx) e.ev.cls) + 1 := by
  unfold histCount
  rw [(Untold.hist (histAddr_histOf h q _)).pmuEv (by decide)]
  unfold histOf
  rw [cntAt_addCnt_same]
  rfl

theorem dispatchTo_hist {e : ReadyEnt} (h : e.ev.cls < 8) (q t vx : Nat) (d : Dev) :
    cntAt (dispatchTo q t vx e d) (histOf q (waitOf e vx) e.ev.cls) = cntAt d (histOf q (waitOf e vx) e.ev.cls) + 1 := by
  have hg := Untold.hist (histAddr_histOf h q (waitOf e vx))
  unfold dispatchTo
  rw [hg.trace, cntAt_histCount h, hg.pmuEv (by decide), hg.shpCnt (by decide), hg.idleExit]
  exact congrArg (· + 1) (startThread_view (g := (cntAt · _)) (fun _ _ => rfl) e _ d)

/-! ### A winner is delivered to its mailbox (R322) -/

theorem tagDone_view {β : Type} {g : Dev → β} (h : ∀ (d : Dev) f, g { d with fab := f } = g d) (tag : Option (InstRef × Nat)) (code q : Nat)
    (d : Dev) : g (tagDone tag code q d) = g d := by
  unfold tagDone
  split
  · exact h d _
  · rfl

/-- Emptying a mailbox changes its thread, the keys held through it and the reports on their way. -/
theorem mailEmptied_view {β : Type} {g : Dev → β} (h : ∀ (d : Dev) f t, g { d with fab := f, threads := t } = g d)
    (hk : ∀ (d : Dev) q (ks : ShpSt → List KeyHold) (fs : ShpSt → List (Nat × Nat)),
      g (updShp q (fun s => { s with keys := ks s, freed := fs s }) d) = g d) (t vx : Nat) (d : Dev) :
    g (mailEmptied t vx d) = g d := by
  unfold mailEmptied
  simp only
  split
  · rfl
  · rw [tagDone_view (fun d f => h d f d.threads)]
    exact (hk _ _ _ _).trans (h d d.fab _)

/-- A delivery: the entry leaves, the mailbox is written, its thread is told and may return from WAITEV, and the delivery is counted. -/
theorem deliver_eq (q t vx : Nat) (e : ReadyEnt) (d : Dev) :
    ∃ (waits : Bool) (f : GcThread → GcThread), (∀ th, (f th).mail = some (e.ev, e.tag) ∧ (f th).meip = true) ∧
      deliver q t vx e d = trace t 3 (waitOf e vx) e.ev (2 * vx) (histCount q vx e (pmuEv q 54 1 (byShepherd e.ev.cls) .none (shpCnt q 3 1
        (guardDev waits (gcRetire t vx) (updThread t f (spadWrite { req := 149, idx := e.ev.cls } q (8 * mailWord d t) (eventBytes e.ev)
          (mailEmptied t vx (leaveList q t true e d)))))))) := by
  refine ⟨_, _, fun th => ?_, rfl⟩
  simp only
  split <;> simp

/-- A view that threads and counters do not enter sees of a delivery the write into the mailbox. -/
theorem deliver_view {β : Type} {g : Dev → β} (hg : Untold g) (hc : ∀ (d : Dev) c t, g { d with cnts := c, threads := t } = g d)
    (q t vx : Nat) (e : ReadyEnt) (d : Dev) :
    g (deliver q t vx e d) = g (spadWrite { req := 149, idx := e.ev.cls } q (8 * mailWord d t) (eventBytes e.ev)
      (mailEmptied t vx (leaveList q t true e d))) := by
  obtain ⟨waits, f, -, h⟩ := deliver_eq q t vx e d
  have ht : ∀ f (d : Dev), g (updThread t f d) = g d := fun f d => hc d d.cnts _
  rw [h, hg.trace, hg.histCount (fun d c => hc d c d.threads), hg.pmuEv (by decide), hg.shpCnt (by decide),
    guardDev_keep g _ _ (fun d => hg.gcRetire (ht _) vx d), ht]

/-- The thread has the event in its mailbox, and its interrupt is pending. -/
theorem deliver_thread (q t vx : Nat) (e : ReadyEnt) (d : Dev) :
    (getThread (deliver q t vx e d) t).mail = some (e.ev, e.tag) ∧ (getThread (deliver q t vx e d) t).meip = true := by
  obtain ⟨waits, f, hf, h⟩ := deliver_eq q t vx e d
  have hg : Untold (fun d : Dev => ((getThread d t).mail, (getThread d t).meip)) :=
    ⟨fun _ _ _ _ _ => rfl, fun _ _ _ _ _ _ => rfl, fun _ _ _ => rfl⟩
  have hret := hg.gcRetire (t := t) (fun d => by simp) vx
  have key : ((getThread (deliver q t vx e d) t).mail, (getThread (deliver q t vx e d) t).meip) = (some (e.ev, e.tag), true) := by
    rw [h, hg.trace, hg.histCount (fun _ _ => rfl), hg.pmuEv (by decide), hg.shpCnt (by decide),
      guardDev_keep (fun d : Dev => ((getThread d t).mail, (getThread d t).meip)) _ _ hret, getThread_updThread_same, (hf _).1, (hf _).2]
  exact Prod.mk.inj key

theorem deliver_hist {e : ReadyEnt} (h : e.ev.cls < 8) (q t vx : Nat) (d : Dev) :
    cntAt (deliver q t vx e d) (histOf q (waitOf e vx) e.ev.cls) = cntAt d (histOf q (waitOf e vx) e.ev.cls) + 1 := by
  obtain ⟨waits, f, -, hd⟩ := deliver_eq q t vx e d
  have hg := Unwritten.hist (histAddr_histOf h q (waitOf e vx))
  rw [hd, hg.trace, cntAt_histCount h, hg.pmuEv (by decide), hg.shpCnt (by decide),
    guardDev_keep (cntAt · _) _ _ (hg.gcRetire (t := t) (fun _ => rfl) vx)]
  refine congrArg (· + 1) ((hg.spadWrite _ _ _ _ _).trans ?_)
  exact mailEmptied_view (g := (cntAt · _)) (fun _ _ _ => rfl) (fun _ _ _ _ => rfl) t vx _

theorem deliver_ready (q t vx : Nat) (e : ReadyEnt) (d : Dev) :
    (getShp (deliver q t vx e d) q).ready = (getShp d q).ready.filter (fun x => x.arr != e.arr) := by
  have hg := Unwritten.shp (p := fun s => s.ready) (fun _ _ => rfl) q
  calc (getShp (deliver q t vx e d) q).ready
    _ = (getShp (mailEmptied t vx (leaveList q t true e d)) q).ready :=
        (deliver_view hg.toUntold (fun _ _ _ => rfl) q t vx e d).trans (hg.spadWrite _ _ _ _ _)
    _ = (getShp (leaveList q t true e d) q).ready :=
        mailEmptied_view (g := fun d => (getShp d q).ready) (fun _ _ _ => rfl)
          (fun d r _ _ => getShp_updShp_keep (·.ready) (fun _ => by rfl) q r d) t vx _
    _ = _ := leaveList_ready q t true e d

theorem deliver_undecided (q t vx : Nat) (e : ReadyEnt) (d : Dev) : undecided (deliver q t vx e d) = undecided d := by
  rw [deliver_view Unwritten.undecided.toUntold (fun _ _ _ => rfl), Unwritten.undecided.spadWrite,
    mailEmptied_view (g := undecided) (fun _ _ _ => rfl) (fun _ _ _ _ => rfl)]
  rfl

/-- The memories after a delivery: the event in its mailbox. -/
theorem deliver_mem (q t vx : Nat) (e : ReadyEnt) (d : Dev) :
    (deliver q t vx e d).mem.dram = d.mem.dram
      ∧ (deliver q t vx e d).mem.spad = storeBytes q (8 * mailWord d t) (eventBytes e.ev) d.mem.spad := by
  have hmail : (mailEmptied t vx (leaveList q t true e d)).mem = d.mem :=
    mailEmptied_view (g := fun d => d.mem) (fun _ _ _ => rfl) (fun _ _ _ _ => rfl) t vx _
  have h := deliver_view Untold.mem (fun _ _ _ => rfl) q t vx e d
  rw [h, spadWrite_dram, spadWrite_spad, hmail]
  exact ⟨rfl, rfl⟩

theorem leBytes_length (k n : Nat) : (leBytes k n).length = k := by
  induction k generalizing n with
  | zero => rfl
  | succ k ih => simp [leBytes, ih]

/-- An event is 16 bytes (R313). -/
theorem eventBytes_length (ev : Event) : (eventBytes ev).length = 16 := by simp [eventBytes, leBytes_length]

theorem spadPeek_deliver (q t vx : Nat) (e : ReadyEnt) (d : Dev) :
    spadPeek (deliver q t vx e d) q (8 * mailWord d t) 16 = eventBytes e.ev := by
  refine List.ext_getElem (by simp [spadPeek, eventBytes_length]) fun i _ hi => ?_
  simp only [spadPeek, List.getElem_map, List.getElem_range]
  unfold spadByte
  rw [(deliver_mem q t vx e d).2]
  exact mapGet_storeBytes_in q _ _ i _ (by simp [eventBytes_length]) hi

theorem spadByte_deliver_out {q t : Nat} {d : Dev} {p a : Nat} (h : ∀ i, i < 16 → spadKey p a ≠ spadKey q (8 * mailWord d t + i))
    (vx : Nat) (e : ReadyEnt) : spadByte (deliver q t vx e d) p a = spadByte d p a := by
  unfold spadByte
  rw [(deliver_mem q t vx e d).2]
  exact mapGet_storeBytes_out q _ _ _ _ (by simpa [eventBytes_length] using h)

/-! ### A decision goes to the first candidate that something takes (R317) -/

/-- What a decision adds to where its winner went: the next VX cycle is the next decision's, and the arbiter's pointer may move. -/
structure DecidedAfter (q now : Nat) (d e : Dev) : Prop where
  undecided : undecided e = undecided d
  threads : e.threads = d.threads
  mem : e.mem = d.mem
  cnts : e.cnts = d.cnts
  shp : getShp e q = { getShp d q with decideAt := now + 1 }

theorem shpDispatch_of_head {q vx : Nat} {d d1 : Dev} {c : Cand} (hen : getF d .shp q 0 0 1 = 1) (hat : (getShp d q).decideAt ≤ vxAt d vx)
    (hi : (getSpd d q).initDone = true) (hc : (candidatesAt d q (vxAt d vx)).head? = some c) (hp : place q (vxAt d vx) c d = some d1) :
    DecidedAfter q (vxAt d vx) d1 (shpDispatch q vx d) := by
  obtain ⟨r, hl⟩ : ∃ r, candidatesAt d q (vxAt d vx) = c :: r := by
    cases h : candidatesAt d q (vxAt d vx) with
    | nil => simp [h] at hc
    | cons x r => simp [h] at hc; exact ⟨r, by rw [hc]⟩
  have hfirst : placeFirst q (vxAt d vx) d (c :: r) = some (c, d1) := by simp [placeFirst, hp]
  have hgo : ¬ (getF d .shp q 0 0 1 = 0 ∨ vxAt d vx < (getShp d q).decideAt ∨ (!(getSpd d q).initDone) = true) := by
    simp [hen, hi, hat]
  have hat1 := getShp_updShp_same q (fun s => { s with decideAt := vxAt d vx + 1 }) d1
  unfold shpDispatch
  simp only [if_neg hgo, hl, hfirst]
  split <;> exact ⟨rfl, rfl, rfl, rfl, hat1⟩

end Sys2Proof.Machine
end

section
/-! SUPPORT. Where each winner goes (R317, R321, R322), restores and preemptions, the thread that starts an event (R301, R320), the notice
of a void (R324), and the statement on the Shepherds' dispatch. -/

open Sys2Proof Sys2Proof.Machine Sys2Proof.Claims

namespace Sys2Proof.Machine

/-! ### Where each winner goes (R317, R321, R322) -/

section
variable {q vx : Nat} {e : ReadyEnt} {d : Dev}

theorem place_idle {n : Nat} (hm : bit (shpCfg d q 2 1) e.ev.cls = false) (hi : idleThread d q = some n) :
    place q vx { ent := e, slot := none } d = some (dispatchTo q n vx e (leaveList q n false e d)) := by
  simp [place, hm, hi]

theorem place_restore {slot n : Nat} (hi : idleThread d q = some n) :
    place q vx { ent := e, slot := some slot } d = some (restoreTo n vx e slot (leaveResume q slot d)) := by
  simp [place, hi]

theorem place_preempt {n slot : Nat} (hm : bit (shpCfg d q 2 1) e.ev.cls = false) (hi : idleThread d q = none)
    (hc : shpCfg d q 0 1 ≤ e.ev.cls) (hv : victimOf d q = some n) (hs : freeSlot d q = some slot)
    (hl : laterThan e.dl e.ev.cls (getThread d n) = true) :
    place q vx { ent := e, slot := none } d = some (preempt q n slot vx { ent := e, slot := none } d) := by
  simp [place, hm, hi, Nat.not_lt.2 hc, hv, hs, hl]

theorem place_mailbox (hm : bit (shpCfg d q 2 1) e.ev.cls = true) (hf : mailFull d (mailThread d q e.ev.cls) = false) :
    place q vx { ent := e, slot := none } d = some (deliver q (mailThread d q e.ev.cls) vx e d) := by
  simp [place, hm, hf]

end

/-- A restore changes, beside bookkeeping, its thread (R311). -/
theorem restoreTo_view {β : Type} {g : Dev → β} (hg : Untold g) (t vx : Nat) (e : ReadyEnt) (slot : Nat) (d : Dev) :
    g (restoreTo t vx e slot d) = g (updThread t (fun th => { th with restore := some (e, slot, 2 * vx + 64) }) d) := by
  unfold restoreTo
  rw [hg.trace]

theorem Unplaced.restoreTo {β : Type} {g : Dev → β} (hg : Unplaced g) (t vx : Nat) (e : ReadyEnt) (slot : Nat) (d : Dev) :
    g (restoreTo t vx e slot d) = g d := by
  rw [restoreTo_view hg.toUntold, hg.updThread]

/-- A preemption for a list entry changes, beside bookkeeping, the victim, its key's holder and the list (R321). -/
theorem preempt_view {β : Type} {g : Dev → β} (hg : Untold g) (q t slot vx : Nat) (e : ReadyEnt) (d : Dev) :
    g (preempt q t slot vx { ent := e, slot := none } d)
      = g (updThread t (fun th => { th with save := some (e, none, slot), readyAt := max th.readyAt (2 * vx) })
          (leaveList q t false e (keyMove q t (slotHolder slot) d))) := by
  unfold preempt
  rw [hg.pmuEv (by decide), hg.gcCnt (by decide), hg.shpCnt (by decide)]

theorem Unplaced.preempt {β : Type} {g : Dev → β} (hg : Unplaced g) (q t slot vx : Nat) (e : ReadyEnt) (d : Dev) :
    g (preempt q t slot vx { ent := e, slot := none } d) = g d := by
  rw [preempt_view hg.toUntold, hg.updThread, hg.leaveList, keyMove, hg.listed]

/-! ### What a start sets, and what it leaves -/

theorem sameSpad_of_mem {d e : Dev} (h : e.mem = d.mem) : SameSpad d e := fun q a => spadByte_congr (by rw [h]) q a

/-- A wait is counted where the counter of its bin advances by 1 (R328). -/
theorem waitCounted_of_hist {s t : State} {q : Fin 4} {w cls : Nat}
    (h : cntAt t.dev (histOf q w cls) = cntAt s.dev (histOf q w cls) + 1) : waitCounted s t q w cls := h

/-- A thread starts an event: everything that R301 and R320 set, and the other registers as they were. -/
theorem startThread_thread (t : Nat) (e : ReadyEnt) (at_ : Nat) (d : Dev) :
    let th := getThread (startThread t e at_ d) t
    let en := entryOf d (gcQuad t) e.ev
    th.busy = true ∧ th.ev = e.ev ∧ th.dl = e.dl ∧ th.attach = e.attach ∧ th.pc = en.1 ∧ th.mode = (if en.2 = 3 then 3 else 0)
      ∧ th.reg 11 = BitVec.ofNat 64 (leNat ((eventBytes e.ev).take 8))
      ∧ (∀ x : Nat, x ≠ 10 → x ≠ 11 → th.reg x = (getThread d t).reg x)
      ∧ th.reg 10 = BitVec.ofNat 64 e.ev.payload ∧ th.park = .none := by
  have h10 := fun x => GcThread.reg_setReg (getThread d t) 10 x (BitVec.ofNat 64 e.ev.payload) (by decide)
  have h11 := fun x => GcThread.reg_setReg ((getThread d t).setReg 10 (BitVec.ofNat 64 e.ev.payload)) 11 x
    (BitVec.ofNat 64 (leNat ((eventBytes e.ev).take 8))) (by decide)
  unfold startThread
  simp only [getThread_updThread_same, true_and, and_true]
  generalize GcThread.setReg 11 _ _ = th1 at h11 ⊢
  generalize entryOf d (gcQuad t) e.ev = en
  have hreg : ∀ x, GcThread.reg { th1 with pc := en.1, mode := if en.2 = 3 then 3 else 0, busy := true, attach := e.attach, ev := e.ev
                                           dl := e.dl, tag := e.tag, park := .none, readyAt := at_, resv := none } x = th1.reg x :=
    fun x => GcThread.reg_congr rfl x
  refine ⟨?_, fun x hx hy => ?_, ?_⟩
  · rw [hreg, h11, if_pos rfl]
  · rw [hreg, h11, if_neg hy, h10, if_neg hx]
  · rw [hreg, h11, if_neg (by decide), h10, if_pos rfl]

theorem startThread_other {t m : Nat} (h : m ≠ t) (e : ReadyEnt) (at_ : Nat) (d : Dev) :
    getThread (startThread t e at_ d) m = getThread d m := by
  unfold startThread
  exact getThread_updThread_ne h _ d

/-- The entry point of an event (R320). -/
theorem entryOf_fst (d : Dev) (q : Nat) (ev : Event) :
    (entryOf d q ev).1 = if ev.typ < 0x40 ∧ shpCfg d q (0x100 + 16 * ev.typ) 8 ≠ 0 then shpCfg d q (0x100 + 16 * ev.typ) 8
      else shpCfg d q (0x60 + 16 * ev.cls) 8 := apply_ite Prod.fst _ _ _

/-- The mode of an event's entry (R320). -/
theorem entryOf_snd (d : Dev) (q : Nat) (ev : Event) :
    (entryOf d q ev).2 = if ev.typ < 0x40 ∧ shpCfg d q (0x100 + 16 * ev.typ) 8 ≠ 0 then shpCfg d q (0x108 + 16 * ev.typ) 1
      else shpCfg d q (0x68 + 16 * ev.cls) 1 := apply_ite Prod.snd _ _ _

/-- The frame of a decision, from its winner's place. -/
theorem DecidedAfter.frame {s : State} {q now : Nat} {d e : Dev} (h : DecidedAfter q now d e) (hu : Machine.undecided d = Machine.undecided s.dev)
    (hm : d.mem.dram = s.dev.mem.dram) : DispatchFrame s { s with dev := e } :=
  dispatchFrame_of_undecided (h.undecided.trans hu) (by rw [h.mem, hm])

/-! ### A void's notice (R324) -/

/-- The events of a void marked wherever a Shepherd holds them. -/
def staleShp (i : InstRef) (s : ShpSt) : ShpSt :=
  { s with ready := staleIn i s.ready
           spills := s.spills.map (fun x => { x with ring := staleIn i x.ring, wbuf := staleIn i x.wbuf })
           pads := s.pads.map (staleIn i)
           resume := s.resume.map (fun r => { r with ent := (staleIn i [r.ent]).headD r.ent }) }

section
variable {q : Nat} {d : Dev} {m : StopMsg} {rest : List StopMsg}
  (hm : takeFirst (fun m : StopMsg => m.kind == .shepherd && m.unit == q && stopReady d m) d.fab.stops = some (m, rest))
include hm

theorem shpVoidNotice_silent (he : m.event = none) :
    shpVoidNotice q d = updShp q (staleShp m.inst) { d with fab := { d.fab with stops := rest } } := by
  unfold shpVoidNotice
  rw [hm]
  simp only [he]
  rfl

/-- INSTANCE_VOID is posted behind the marking. -/
theorem shpVoidNotice_posts {ev : Event} (he : m.event = some ev) :
    shpVoidNotice q d = post { q := q, src := 164 + m.inst.q, ev := ev, dl := m.dl }
      (updShp q (staleShp m.inst) { d with fab := { d.fab with stops := rest } }) := by
  unfold shpVoidNotice
  rw [hm]
  simp only [he]
  rfl

end

end Sys2Proof.Machine

/-- Settles O41: the first candidate has a place (an idle thread, a restore, a preemption, its mailbox), and each view of the module sees
of the decision that place alone. -/
theorem shepherdDispatches : Obligations.ShepherdDispatches := by
  refine ⟨?idle, ?resume, ?preempt, ?mailbox, ?void⟩
  case idle =>
    intro s q vx e n ⟨hen, hat, hinit, hhead⟩ hcls hmask hidle
    have h := shpDispatch_of_head hen hat hinit hhead (place_idle hmask hidle)
    have hmem := (Unplaced.mem.dispatchTo q n (vxAt s.dev vx) e _).trans (Unplaced.mem.leaveList q n false e s.dev)
    have hund := (Unplaced.undecided.dispatchTo q n (vxAt s.dev vx) e _).trans (Unplaced.undecided.leaveList q n false e s.dev)
    have hthr := getThread_congr (h.threads.trans (dispatchTo_view Untold.threads (fun _ _ => rfl) ..))
    obtain ⟨hbusy, hev, hdl, hatt, hpc, hmode, h11, hregs, h10, hpark⟩ :=
      startThread_thread n e (2 * vxAt s.dev vx + 10) (leaveList q n false e s.dev)
    rw [← hthr n] at hbusy hev hdl hatt hpc hmode h11 h10 hpark
    simp only [← hthr n] at hregs
    rw [entryOf_leaveList, gcQuad_of_idleThread hidle] at hpc hmode
    refine ⟨{ s with dev := shpDispatch q vx s.dev }, rfl, h.frame hund (congrArg (·.dram) hmem), sameSpad_of_mem (h.mem.trans hmem),
      fun m hm => (hthr m).trans (startThread_other hm e _ _), ?_, by rw [h.shp], hbusy, hev, hdl, hatt, ⟨?_, ?_⟩, ?_, h11, hregs,
      h10, hpark, ?_⟩
    · rw [h.shp]
      exact (dispatchTo_shp (p := (·.ready)) (fun _ _ => rfl) ..).trans (leaveList_ready ..)
    · rw [hpc, entryOf_fst]
    · rw [hmode, entryOf_snd]
    · exact waitCounted_of_hist ((congrArg (mapGet _ _) h.cnts).trans (dispatchTo_hist hcls ..))
    · rw [h.shp]
      exact (dispatchTo_shp (p := (·.keys)) (fun _ _ => rfl) ..).trans (leaveList_keys ..)
  case resume =>
    intro s q vx e slot n hen hat hinit hhead hidle
    have h := shpDispatch_of_head hen hat hinit hhead (place_restore hidle)
    have hthr := getThread_congr (h.threads.trans (restoreTo_view Untold.threads ..))
    have hmem := (Unplaced.mem.restoreTo n (vxAt s.dev vx) e slot _).trans (Unplaced.mem.leaveResume q slot s.dev)
    have hund := (Unplaced.undecided.restoreTo n (vxAt s.dev vx) e slot _).trans (Unplaced.undecided.leaveResume q slot s.dev)
    refine ⟨{ s with dev := shpDispatch q vx s.dev }, rfl,
      h.frame hund (congrArg (·.dram) hmem), sameSpad_of_mem (h.mem.trans hmem),
      fun m hm => (hthr m).trans (getThread_updThread_ne hm _ _), (hthr n).trans (getThread_updThread_same ..), ?_, by rw [h.shp]⟩
    rw [h.shp]
    exact (restoreTo_view (Untold.shp (p := (·.resume)) (fun _ _ => rfl) q) ..).trans (by simp [leaveResume, getShp_updThread])
  case preempt =>
    intro s q vx e n slot ⟨hen, hat, hinit, hhead⟩ hmask hidle hmin hvictim hslot hlater
    have h := shpDispatch_of_head hen hat hinit hhead (place_preempt hmask hidle hmin hvictim hslot hlater)
    have hthr := getThread_congr (h.threads.trans (preempt_view Untold.threads ..))
    have hmem := Unplaced.mem.preempt q n slot (vxAt s.dev vx) e s.dev
    refine ⟨{ s with dev := shpDispatch q vx s.dev }, rfl,
      h.frame (Unplaced.undecided.preempt ..) (congrArg (·.dram) hmem), sameSpad_of_mem (h.mem.trans hmem),
      fun m hm => (hthr m).trans (getThread_updThread_ne hm _ _), (hthr n).trans (getThread_updThread_same ..), ?_, by rw [h.shp]⟩
    rw [h.shp]
    refine (preempt_view (Untold.shp (p := (·.ready)) (fun _ _ => rfl) q) ..).trans ((leaveList_ready ..).trans ?_)
    exact congrArg (List.filter _) (getShp_updShp_keep (·.ready) (fun _ => by rfl) q q s.dev)
  case mailbox =>
    intro s q vx e ⟨hen, hat, hinit, hhead⟩ hcls hmask n hfull
    have h := shpDispatch_of_head hen hat hinit hhead (place_mailbox hmask hfull)
    have hbyte := spadByte_congr (congrArg (·.spad) h.mem)
    have hn := getThread_congr h.threads n
    refine ⟨{ s with dev := shpDispatch q vx s.dev }, rfl, h.frame (deliver_undecided ..) (deliver_mem ..).1, ?_, ?_, ?_,
      waitCounted_of_hist ((congrArg (mapGet _ _) h.cnts).trans (deliver_hist hcls ..)), ?_, fun p a ha => ?_⟩
    · rw [h.shp]
      exact deliver_ready ..
    · exact (congrArg (·.mail) hn).trans (deliver_thread ..).1
    · exact (congrArg (·.meip) hn).trans (deliver_thread ..).2
    · exact (congrArg (List.map · _) (funext fun i => hbyte _ _)).trans (spadPeek_deliver q n (vxAt s.dev vx) e s.dev)
    · exact (hbyte p a).trans (spadByte_deliver_out ha ..)
  case void =>
    intro s q m rest hm
    have hmark := getShp_updShp_same q (staleShp m.inst) { s.dev with fab := { s.dev.fab with stops := rest } }
    refine ⟨{ s with dev := shpVoidNotice q s.dev }, rfl, ?_⟩
    cases hev : m.event with
    | none =>
      rw [shpVoidNotice_silent hm hev]
      exact ⟨rfl, rfl, congrArg (·.ready) hmark, congrArg (·.pads) hmark, congrArg (·.spills) hmark, fun _ => rfl, nofun⟩
    | some ev =>
      rw [shpVoidNotice_posts hm hev]
      exact ⟨rfl, rfl, congrArg (·.ready) hmark, congrArg (·.pads) hmark, congrArg (·.spills) hmark, nofun,
        fun ev' h => ⟨_, rfl, rfl, by exact Option.some.inj h⟩⟩
end

section
/-! SUPPORT. Fields of stored registers (R6, R10): what a field reads as after a write of it, of another field, or of another register. -/

namespace Sys2Proof.Machine

/-! ### Bits of a number -/

theorem testBit_bits (n lo len i : Nat) : (bits n lo len).testBit i = (decide (i < len) && n.testBit (lo + i)) := by
  simp [bits, Nat.testBit_mod_two_pow, Nat.testBit_div_two_pow, Nat.add_comm]

theorem putBits_eq (n lo len v : Nat) :
    putBits n lo len v = 2 ^ lo * (2 ^ len * (n / 2 ^ lo / 2 ^ len) + v % 2 ^ len) + n % 2 ^ lo := by
  have hn := Nat.div_add_mod n (2 ^ lo)
  have hm := Nat.div_add_mod (n / 2 ^ lo) (2 ^ len)
  have h : n = bits n lo len * 2 ^ lo + (2 ^ lo * (2 ^ len * (n / 2 ^ lo / 2 ^ len)) + n % 2 ^ lo) := by
    calc n = 2 ^ lo * (2 ^ len * (n / 2 ^ lo / 2 ^ len) + n / 2 ^ lo % 2 ^ len) + n % 2 ^ lo := by rw [hm, hn]
      _ = _ := by unfold bits; ring
  calc putBits n lo len v = 2 ^ lo * (2 ^ len * (n / 2 ^ lo / 2 ^ len)) + n % 2 ^ lo + v % 2 ^ len * 2 ^ lo := by
        unfold putBits; omega
    _ = _ := by ring

theorem testBit_putBits (n lo len v i : Nat) :
    (putBits n lo len v).testBit i = if lo ≤ i ∧ i < lo + len then v.testBit (i - lo) else n.testBit i := by
  rw [putBits_eq, Nat.testBit_two_pow_mul_add _ (Nat.mod_lt _ (Nat.two_pow_pos lo))]
  by_cases hlo : i < lo
  · simp [hlo, Nat.testBit_mod_two_pow]
  · rw [if_neg hlo, Nat.testBit_two_pow_mul_add _ (Nat.mod_lt _ (Nat.two_pow_pos len))]
    by_cases hlen : i - lo < len
    · rw [if_pos hlen, if_pos (by omega)]
      simp [Nat.testBit_mod_two_pow, hlen]
    · rw [if_neg hlen, if_neg (by omega), Nat.testBit_div_two_pow, Nat.testBit_div_two_pow]
      congr 1
      omega

theorem bits_putBits_same (n lo len v : Nat) : bits (putBits n lo len v) lo len = v % 2 ^ len := by
  refine Nat.eq_of_testBit_eq fun i => ?_
  rw [testBit_bits, testBit_putBits, Nat.testBit_mod_two_pow]
  by_cases h : i < len <;> simp [h]

theorem bits_putBits_disjoint {lo len lo' len' : Nat} (h : lo' + len' ≤ lo ∨ lo + len ≤ lo') (n v : Nat) :
    bits (putBits n lo len v) lo' len' = bits n lo' len' := by
  refine Nat.eq_of_testBit_eq fun i => ?_
  rw [testBit_bits, testBit_bits, testBit_putBits]
  by_cases hi : i < len'
  · rw [if_neg (by omega)]
  · simp [hi]

theorem bits_or (a b lo len : Nat) : bits (a ||| b) lo len = bits a lo len ||| bits b lo len := by
  refine Nat.eq_of_testBit_eq fun i => ?_
  simp [testBit_bits, Bool.and_or_distrib_left]

theorem fld_ofNat {lo len : Nat} (h : lo + len ≤ 32) (n : Nat) : fld (BitVec.ofNat 32 n) lo len = bits n lo len := by
  refine Nat.eq_of_testBit_eq fun i => ?_
  rw [fld, testBit_bits, testBit_bits, BitVec.toNat_ofNat, Nat.testBit_mod_two_pow]
  by_cases hi : i < len
  · simp [show lo + i < 32 by omega]
  · simp [hi]

/-! ### Registers of one unit -/

@[simp] theorem getR_setR_same (b : Blk) (i off v : Nat) (d : Dev) : getR (setR b i off v d) b i off = BitVec.ofNat 32 v :=
  regRaw_setRaw_same ..

theorem addrOf_ne {off off' : Nat} (h : off ≠ off') (b : Blk) (i : Nat) : addrOf b i off ≠ addrOf b i off' :=
  fun e => h (Nat.add_right_cancel e)

@[simp] theorem getR_setR_off {off off' : Nat} (h : off' ≠ off) (b : Blk) (i v : Nat) (d : Dev) :
    getR (setR b i off v d) b i off' = getR d b i off' := regRaw_setRaw_ne (addrOf_ne h b i) ..

@[simp] theorem getR_setF_off {off off' : Nat} (h : off' ≠ off) (b : Blk) (i lo len v : Nat) (d : Dev) :
    getR (setF b i off lo len v d) b i off' = getR d b i off' := getR_setR_off h ..

@[simp] theorem getR_orR_off {off off' : Nat} (h : off' ≠ off) (b : Blk) (i m : Nat) (d : Dev) :
    getR (orR b i off m d) b i off' = getR d b i off' := getR_setR_off h ..

@[simp] theorem getR_addCnt (b b' : Blk) (i off n i' off' : Nat) (d : Dev) : getR (addCnt b i off n d) b' i' off' = getR d b' i' off' := rfl

@[simp] theorem getR_updClk (f : ClkSt → ClkSt) (b : Blk) (i off : Nat) (d : Dev) : getR (updClk f d) b i off = getR d b i off := rfl

theorem getR_congr {d e : Dev} (h : e.regs = d.regs) (b : Blk) (i off : Nat) : getR e b i off = getR d b i off := by
  unfold getR regRaw; rw [h]

theorem regRaw_congr {d e : Dev} (h : e.regs = d.regs) (a : Nat) : regRaw e a = regRaw d a := by
  unfold regRaw; rw [h]

theorem getF_lt (d : Dev) (b : Blk) (i off lo len : Nat) : getF d b i off lo len < 2 ^ len := Nat.mod_lt _ (Nat.two_pow_pos len)

theorem getF_setF_same {lo len : Nat} (h : lo + len ≤ 32) (b : Blk) (i off v : Nat) (d : Dev) :
    getF (setF b i off lo len v d) b i off lo len = v % 2 ^ len := by
  rw [getF, setF, getR_setR_same, fld_ofNat h, bits_putBits_same]

theorem getF_setF_disjoint {lo len lo' len' : Nat} (h : lo' + len' ≤ 32) (hd : lo' + len' ≤ lo ∨ lo + len ≤ lo') (b : Blk) (i off v : Nat)
    (d : Dev) : getF (setF b i off lo len v d) b i off lo' len' = getF d b i off lo' len' := by
  rw [getF, setF, getR_setR_same, fld_ofNat h, bits_putBits_disjoint hd]
  rfl

theorem getF_orR {lo len : Nat} (h : lo + len ≤ 32) (b : Blk) (i off m : Nat) (d : Dev) :
    getF (orR b i off m d) b i off lo len = getF d b i off lo len ||| bits m lo len := by
  rw [getF, orR, getR_setR_same, fld_ofNat h, bits_or]
  rfl

/-- A bit that is set reads as 1. -/
theorem getF_orR_bit {k : Nat} (h : k < 32) {m : Nat} (hm : bits m k 1 = 1) (b : Blk) (i off : Nat) (d : Dev) :
    getF (orR b i off m d) b i off k 1 = 1 := by
  have hlt := getF_lt (orR b i off m d) b i off k 1
  rw [getF_orR (by omega), hm] at hlt ⊢
  have := Nat.right_le_or (n := getF d b i off k 1) (m := 1)
  omega

/-! ### EVSUM (R366) -/

theorem evsum_regs (k : Nat) (d : Dev) : (evsum k d).regs = (orR .i3c 0 0x10 (2 ^ k) d).regs := by
  unfold evsum
  exact guardDev_keep (·.regs) _ _ (fun _ => by rfl) _

theorem regRaw_evsum_ne {a : Nat} (h : a ≠ evsumAddr) (k : Nat) (d : Dev) : regRaw (evsum k d) a = regRaw d a :=
  (regRaw_congr (evsum_regs k d) a).trans (regRaw_setRaw_ne h _ d)

/-- A view that neither EVSUM nor its IBI enters. -/
theorem evsum_view {β : Type} {g : Dev → β} (hr : ∀ (d : Dev) v, g (setRaw evsumAddr v d) = g d)
    (hi : ∀ (d : Dev) x, g { d with i3c := x } = g d) (k : Nat) (d : Dev) : g (evsum k d) = g d := by
  unfold evsum
  rw [guardDev_keep g _ _ (fun d => hi d _)]
  exact hr d _

theorem getF_evsum_same {k : Nat} (h : k < 32) (d : Dev) : getF (evsum k d) .i3c 0 0x10 k 1 = 1 := by
  have hb : bits (2 ^ k) k 1 = 1 := by simp [bits]
  rw [getF, getR_congr (evsum_regs k d)]
  exact getF_orR_bit h hb ..

theorem getF_evsum_ne {j k : Nat} (h : j < 32) (hk : j ≠ k) (d : Dev) :
    getF (evsum k d) .i3c 0 0x10 j 1 = getF d .i3c 0 0x10 j 1 := by
  have hb : bits (2 ^ k) j 1 = 0 := by
    refine Nat.eq_of_testBit_eq fun i => ?_
    rw [testBit_bits, Nat.testBit_two_pow, Nat.zero_testBit]
    by_cases hi : i < 1
    · simp [show ¬ k = j + i by omega]
    · simp [hi]
  rw [getF, getR_congr (evsum_regs k d)]
  exact (getF_orR (by omega) ..).trans (by rw [hb, Nat.or_zero])

end Sys2Proof.Machine
end

section
/-! SUPPORT. The clock monitor (R379, R380, R385): what the end of a window stores, and what it leaves alone. -/

namespace Sys2Proof.Machine

/-! ### A request for a record (R368) -/

/-- A view that no request for a record changes: the log, its count of waiting requests and EVSUM.LOG do not enter it. -/
structure Unasked {β : Type} (g : Dev → β) : Prop where
  evented : ∀ d : Dev, g (evsum 6 d) = g d
  logged : ∀ (d : Dev) l, g { d with log := l } = g d
  counted : ∀ (d : Dev) n, g (addCnt .log 0 0x12C n d) = g d

theorem Unasked.requestChange {β : Type} {g : Dev → β} (hg : Unasked g) (r : ChangeReq) (d : Dev) : g (requestChange r d) = g d := by
  unfold Machine.requestChange
  split
  · rfl
  · split
    · exact hg.logged d _
    · rw [hg.evented, hg.counted]
      exact hg.logged d _

theorem Unasked.regRaw {a : Nat} (h : a ≠ evsumAddr) : Unasked (fun d : Dev => regRaw d a) :=
  ⟨fun d => regRaw_evsum_ne h 6 d, fun _ _ => rfl, fun _ _ => rfl⟩

theorem Unasked.evsumBit {k : Nat} (h : k < 32) (h6 : k ≠ 6) : Unasked (fun d : Dev => getF d .i3c 0 0x10 k 1) :=
  ⟨fun d => getF_evsum_ne h h6 d, fun _ _ => rfl, fun _ _ => rfl⟩

theorem Unasked.cntAt {a : Nat} (h : a ≠ addrOf .log 0 0x12C) : Unasked (fun d : Dev => cntAt d a) :=
  ⟨fun d => evsum_view (g := fun d => Machine.cntAt d a) (fun _ _ => rfl) (fun _ _ => rfl) 6 d, fun _ _ => rfl,
    fun d n => cntAt_addCnt_ne _ _ _ n h d⟩

theorem Unasked.clk : Unasked (fun d : Dev => d.clk) :=
  ⟨fun d => evsum_view (g := (·.clk)) (fun _ _ => rfl) (fun _ _ => rfl) 6 d, fun _ _ => rfl, fun _ _ => rfl⟩

theorem mem_insertReq (r : ChangeReq) : ∀ l : List ChangeReq, r ∈ insertReq r l
  | [] => by simp [insertReq]
  | e :: l => by
    unfold insertReq
    split <;> simp [mem_insertReq r l]

@[simp] theorem evsum_log (k : Nat) (d : Dev) : (evsum k d).log = d.log :=
  evsum_view (g := (·.log)) (fun _ _ => rfl) (fun _ _ => rfl) k d

/-- Before a power fail's seal a request waits in the log, with a slot or for one. -/
theorem requestChange_asks (r : ChangeReq) {d : Dev} (h : d.log.sealing = false) :
    ∃ slot, { r with at_ := d.dt, slot := slot } ∈ (requestChange r d).log.reqs := by
  by_cases hs : slotFree d = true
  · exact ⟨true, by rw [requestChange_slot r h hs]; exact mem_insertReq _ _⟩
  · exact ⟨false, by simp [requestChange, h, hs]⟩

/-! ### A failure declared (R381) -/

section
variable {β : Type} {g : Dev → β} (h : ∀ d : Dev, g (evsum 0 d) = g d) (h8 : ∀ d : Dev, g (orR .clk 0 8 1 d) = g d)
include h h8

theorem Unasked.declareFailure (hg : Unasked g) (d : Dev) : g (declareFailure d) = g d :=
  guardDev_keep g _ _ (fun d => (hg.requestChange _ _).trans ((h _).trans (h8 d))) d

end

theorem declareFailure_getR {off : Nat} (h : off < 0x10000) (h8 : off ≠ 8) (d : Dev) :
    getR (declareFailure d) .clk 0 off = getR d .clk 0 off :=
  have ha : addrOf .clk 0 off ≠ evsumAddr := by simp only [addrOf, evsumAddr]; omega
  (Unasked.regRaw ha).declareFailure (fun d => regRaw_evsum_ne ha 0 d) (fun d => getR_orR_off h8 .clk 0 1 d) d

theorem declareFailure_badWindowBit (d : Dev) : getF (declareFailure d) .clk 0 8 1 1 = getF d .clk 0 8 1 1 :=
  have ha : addrOf .clk 0 8 ≠ evsumAddr := by decide
  have hg : Unasked (fun d : Dev => getF d .clk 0 8 1 1) :=
    ⟨fun d => congrArg (fld · 1 1) (regRaw_evsum_ne ha 6 d), fun _ _ => rfl, fun _ _ => rfl⟩
  hg.declareFailure (fun d => congrArg (fld · 1 1) (regRaw_evsum_ne ha 0 d)) 
    (fun d => (getF_orR (by decide : 1 + 1 ≤ 32) .clk 0 8 1 d).trans (Nat.or_zero _)) d

theorem declareFailure_clk (d : Dev) : (declareFailure d).clk = d.clk :=
  Unasked.clk.declareFailure (fun d => evsum_view (g := (·.clk)) (fun _ _ => rfl) (fun _ _ => rfl) 0 d) (fun _ => rfl) d

theorem declareFailure_cntAt {a : Nat} (h : a ≠ addrOf .log 0 0x12C) (d : Dev) : cntAt (declareFailure d) a = cntAt d a :=
  (Unasked.cntAt h).declareFailure (fun d => evsum_view (g := fun d => cntAt d a) (fun _ _ => rfl) (fun _ _ => rfl) 0 d) (fun _ => rfl) d

/-- On REFCLK or on the way back to it, a failure not asked for yet raises CLOCKFAIL and asks for the failover's record. -/
theorem declareFailure_asks {d : Dev} (hsrc : clkSrc d = 0 ∨ clkSrc d = 3) (hseal : d.log.sealing = false)
    (hask : d.log.reqs.any (fun r => r.act == .failover) = false) :
    getF (declareFailure d) .clk 0 8 0 1 = 1 ∧ getF (declareFailure d) .i3c 0 0x10 0 1 = 1
      ∧ ∃ r ∈ (declareFailure d).log.reqs, r.kind = 7 ∧ r.cls = 6 ∧ r.act = .failover := by
  have hgo : ((clkSrc d == 0 || clkSrc d == 3) && !d.log.reqs.any (fun r => r.act == .failover)) = true := by
    rcases hsrc with h | h <;> simp [h, hask]
  have ha : addrOf .clk 0 8 ≠ evsumAddr := by decide
  unfold declareFailure
  simp only [hgo, guardDev_true]
  refine ⟨?_, ?_, ?_⟩
  · rw [getF, getR, (Unasked.regRaw ha).requestChange, raiseClockfail, regRaw_evsum_ne ha]
    exact getF_orR_bit (by decide) (by decide) ..
  · exact ((Unasked.evsumBit (by decide) (by decide)).requestChange ..).trans (getF_evsum_same (by decide) _)
  · obtain ⟨slot, hmem⟩ := requestChange_asks
      { at_ := d.dt, cls := 6, oid := 0, target := addrOf .clk 0 0, kind := 0x0007, act := .failover }
      (d := raiseClockfail d) (by rw [raiseClockfail, evsum_log]; exact hseal)
    exact ⟨_, hmem, rfl, rfl, rfl⟩

/-! ### The end of a window (R379, R380, R385) -/

/-- What every good window stores: STABLE_RUN with the count added, REF_STABLE, and the end of a row of bad windows. -/
def goodCounted (c : Nat) (d : Dev) : Dev :=
  let run := min 65535 (getF d .clk 0 0x10 0 16 + c)
  setF .clk 0 4 2 1 (b2n (decide (16384 ≤ run))) (setR .clk 0 0x10 run (updClk (fun x => { x with bad := false, stopAt := none }) d))

/-- What every bad window stores: BAD_WINDOW and its count, STABLE_RUN and REF_STABLE at 0. -/
def badCounted (d : Dev) : Dev :=
  updClk (fun x => { x with bad := true }) (setF .clk 0 4 2 1 0 (setR .clk 0 0x10 0 (clkCnt 2 1 (orR .clk 0 8 2 d))))

theorem clkSrc_goodCounted (c : Nat) (d : Dev) : clkSrc (goodCounted c d) = clkSrc d := by
  rw [clkSrc, goodCounted, getF_setF_disjoint (by decide) (by decide)]
  simp [clkSrc, getF]

theorem clkSrc_badCounted (d : Dev) : clkSrc (badCounted d) = clkSrc d := by
  rw [clkSrc, badCounted, getF, getR_updClk, ← getF, getF_setF_disjoint (by decide) (by decide)]
  simp [clkSrc, getF, clkCnt]

theorem goodWindow_of_src_ne {d : Dev} (h : clkSrc d ≠ 0) (c : Nat) : goodWindow c d = goodCounted c d := by
  rw [← clkSrc_goodCounted c] at h
  exact if_pos h

/-- On REFCLK a good window updates DT_INC from the counts kept, its own with them (R385). -/
theorem goodWindow_of_src {d : Dev} (h : clkSrc d = 0) (c : Nat) :
    goodWindow c d = clkCnt 3 1 (setR .clk 0 0x18 (dtInc ((c :: d.clk.hist).take 16))
      (updClk (fun x => { x with hist := (c :: d.clk.hist).take 16 }) (goodCounted c d))) := by
  rw [← clkSrc_goodCounted c] at h
  exact if_neg (not_not.2 h)

theorem badWindow_first {d : Dev} (h : d.clk.bad = false) : badWindow d = badCounted d := by
  simp only [badWindow, h, guardDev_false]
  rfl

theorem badWindow_again {d : Dev} (h : d.clk.bad = true) : badWindow d = declareFailure (badCounted d) := by
  simp only [badWindow, h, guardDev_true]
  rfl

theorem badWindow_view {β : Type} {g : Dev → β} (hg : ∀ d : Dev, g (declareFailure d) = g d) (d : Dev) :
    g (badWindow d) = g (badCounted d) := guardDev_keep g _ _ hg _

theorem windowEnd_good {c : Nat} {d : Dev} (hs : d.pow.standby = true) (h : 3891 ≤ c ∧ c ≤ 4301) :
    windowEnd c d = goodWindow c (setR .clk 0 0xC c d) := by
  simp [windowEnd, hs, h]

theorem windowEnd_bad {c : Nat} {d : Dev} (hs : d.pow.standby = true) (h : c < 3891 ∨ 4301 < c) :
    windowEnd c d = badWindow (setR .clk 0 0xC c d) := by
  have hc : ¬ (3891 ≤ c ∧ c ≤ 4301) := by omega
  simp [windowEnd, hs, hc]

/-! ### What a window leaves alone -/

/-- The registers that the end of a window may write: STATUS, ERR, MON_COUNT, STABLE_RUN and DT_INC, and EVSUM. -/
def monitorRegs : List Nat := [evsumAddr, addrOf .clk 0 4, addrOf .clk 0 8, addrOf .clk 0 0xC, addrOf .clk 0 0x10, addrOf .clk 0 0x18]

/-- A view that the monitor does not change: its registers, counters, its own state, the log and the host interface do not enter it. -/
structure Unmonitored {β : Type} (g : Dev → β) : Prop where
  stored : ∀ {a : Nat}, a ∈ monitorRegs → ∀ v (d : Dev), g (setRaw a v d) = g d
  kept : ∀ (d : Dev) n k l i, g { d with cnts := n, clk := k, log := l, i3c := i } = g d

namespace Unmonitored

section
variable {β : Type} {g : Dev → β} (hg : Unmonitored g)
include hg

theorem setR {off : Nat} (h : addrOf .clk 0 off ∈ monitorRegs) (v : Nat) (d : Dev) : g (setR .clk 0 off v d) = g d := hg.stored h _ d

theorem setF {off : Nat} (h : addrOf .clk 0 off ∈ monitorRegs) (lo len v : Nat) (d : Dev) : g (setF .clk 0 off lo len v d) = g d :=
  hg.setR h _ d

theorem updClk (f : ClkSt → ClkSt) (d : Dev) : g (updClk f d) = g d := hg.kept d d.cnts _ d.log d.i3c

theorem addCnt (b : Blk) (i off n : Nat) (d : Dev) : g (addCnt b i off n d) = g d := hg.kept d _ d.clk d.log d.i3c

theorem evsum (k : Nat) (d : Dev) : g (evsum k d) = g d :=
  evsum_view (fun d v => hg.stored (by decide) v d) (fun d x => hg.kept d d.cnts d.clk d.log x) k d

theorem unasked : Unasked g := ⟨hg.evsum 6, fun d l => hg.kept d d.cnts d.clk l d.i3c, fun d n => hg.addCnt _ _ _ n d⟩

theorem goodCounted (c : Nat) (d : Dev) : g (goodCounted c d) = g d :=
  (hg.setF (by decide) _ _ _ _).trans ((hg.setR (by decide) _ _).trans (hg.updClk _ d))

theorem goodWindow (c : Nat) (d : Dev) : g (goodWindow c d) = g d := by
  by_cases h : clkSrc d = 0
  · rw [goodWindow_of_src h, clkCnt, hg.addCnt, hg.setR (by decide), hg.updClk, hg.goodCounted]
  · rw [goodWindow_of_src_ne h, hg.goodCounted]

theorem badCounted (d : Dev) : g (badCounted d) = g d := by
  rw [Machine.badCounted, hg.updClk, hg.setF (by decide), hg.setR (by decide), clkCnt, hg.addCnt]
  exact hg.setR (by decide) _ d

theorem badWindow (d : Dev) : g (badWindow d) = g d :=
  (badWindow_view (hg.unasked.declareFailure (hg.evsum 0) (fun d => hg.setR (by decide) _ d)) d).trans (hg.badCounted d)

theorem windowEnd (c : Nat) (d : Dev) : g (windowEnd c d) = g d := by
  unfold Machine.windowEnd
  split
  · rfl
  · dsimp only
    split
    · rw [hg.goodWindow, hg.setR (by decide)]
    · rw [hg.badWindow, hg.setR (by decide)]

end

theorem regRaw {a : Nat} (h : a ∉ monitorRegs) : Unmonitored (fun d : Dev => regRaw d a) :=
  ⟨fun ha v d => regRaw_setRaw_ne (fun e => h (by rwa [e])) v d, fun _ _ _ _ _ => rfl⟩

end Unmonitored

/-- The module without the parts that the monitor may change. -/
def unmonitored (d : Dev) : Dev := { d with regs := [], cnts := [], clk := {}, log := {}, i3c := {} }

theorem Unmonitored.unmonitored : Unmonitored unmonitored := ⟨fun _ _ _ => rfl, fun _ _ _ _ _ => rfl⟩

theorem windowEnd_clockFrame (c : Nat) (s : State) : Claims.ClockFrame s { s with dev := windowEnd c s.dev } := by
  have hu := Unmonitored.unmonitored.windowEnd c s.dev
  refine ⟨?_, fun a ha => (Unmonitored.regRaw ha).windowEnd c s.dev⟩
  generalize windowEnd c s.dev = e at hu ⊢
  have he : e = { Machine.unmonitored e with regs := e.regs, cnts := e.cnts, clk := e.clk, log := e.log, i3c := e.i3c } := rfl
  rw [hu] at he
  exact congrArg (fun x => { s with dev := x }) he

/-! ### What a window stores -/

theorem goodWindow_getR {off : Nat} (h : off ≠ 0x18) (c : Nat) (d : Dev) :
    getR (goodWindow c d) .clk 0 off = getR (goodCounted c d) .clk 0 off := by
  by_cases hs : clkSrc d = 0
  · simp [goodWindow_of_src hs, clkCnt, h]
  · rw [goodWindow_of_src_ne hs]

theorem goodWindow_kept (c : Nat) (d : Dev) :
    (goodWindow c d).log = d.log ∧ (goodWindow c d).i3c = d.i3c ∧ (goodWindow c d).clk.bad = false := by
  by_cases hs : clkSrc d = 0
  · simp [goodWindow_of_src hs, goodCounted, clkCnt, updClk]
  · simp [goodWindow_of_src_ne hs, goodCounted, updClk]

theorem goodWindow_hist {d : Dev} (h : clkSrc d = 0) (c : Nat) : (goodWindow c d).clk.hist = (c :: d.clk.hist).take 16 := by
  simp [goodWindow_of_src h, goodCounted, clkCnt, updClk]

/-- DT_INC is the mean of the counts kept, scaled (R385): one at least is kept, the window's own. -/
theorem goodWindow_dtInc {d : Dev} (h : clkSrc d = 0) (c : Nat) :
    (getR (goodWindow c d) .clk 0 0x18).toNat
      = roundDiv (5120 * (goodWindow c d).clk.hist.foldl (· + ·) 0) (goodWindow c d).clk.hist.length % 2 ^ 32 := by
  have hlen : 1 ≤ ((c :: d.clk.hist).take 16).length := by simp
  rw [goodWindow_hist h, goodWindow_of_src h, clkCnt, getR_addCnt, getR_setR_same, BitVec.toNat_ofNat, dtInc, Nat.max_eq_right hlen]

theorem goodWindow_dtInc_kept {d : Dev} (h : clkSrc d ≠ 0) (c : Nat) : getR (goodWindow c d) .clk 0 0x18 = getR d .clk 0 0x18 := by
  simp [goodWindow_of_src_ne h, goodCounted]

theorem goodCounted_monCount (c : Nat) (d : Dev) : getR (goodCounted c d) .clk 0 0xC = getR d .clk 0 0xC := by
  simp [goodCounted]

theorem goodCounted_stableRun (c : Nat) (d : Dev) :
    (getR (goodCounted c d) .clk 0 0x10).toNat = min 65535 (getF d .clk 0 0x10 0 16 + c) := by
  simp only [goodCounted, getR_setF_off (by decide : (0x10 : Nat) ≠ 4), getR_setR_same, BitVec.toNat_ofNat]
  omega

theorem goodCounted_refStable (c : Nat) (d : Dev) :
    getF (goodCounted c d) .clk 0 4 2 1 = if 16384 ≤ min 65535 (getF d .clk 0 0x10 0 16 + c) then 1 else 0 := by
  rw [goodCounted, getF_setF_same (by decide)]
  generalize min 65535 (getF d .clk 0 0x10 0 16 + c) = run
  by_cases h : 16384 ≤ run <;> simp [b2n, h]

theorem badCounted_refStable (d : Dev) : getF (badCounted d) .clk 0 4 2 1 = 0 := by
  rw [badCounted, getF, getR_updClk, ← getF, getF_setF_same (by decide), Nat.zero_mod]

theorem badWindow_getR {off : Nat} (h : off < 0x10000) (h8 : off ≠ 8) (d : Dev) :
    getR (badWindow d) .clk 0 off = getR (badCounted d) .clk 0 off :=
  badWindow_view (g := fun d => getR d .clk 0 off) (declareFailure_getR h h8) d

theorem badWindow_badWindowBit (d : Dev) : getF (badWindow d) .clk 0 8 1 1 = 1 := by
  have h : getR (badCounted d) .clk 0 8 = getR (orR .clk 0 8 2 d) .clk 0 8 := by simp [badCounted, clkCnt]
  rw [badWindow_view (g := fun d => getF d .clk 0 8 1 1) declareFailure_badWindowBit, getF, h]
  exact getF_orR_bit (by decide) (by decide) ..

theorem badWindow_bad (d : Dev) : (badWindow d).clk.bad = true :=
  badWindow_view (g := (·.clk.bad)) (fun d => congrArg (·.bad) (declareFailure_clk d)) d

/-- CNT2 counts every bad window (R394). -/
theorem badWindow_badWindows (d : Dev) : cntAt (badWindow d) (addrOf .clk 0 0x48) = cntAt d (addrOf .clk 0 0x48) + 1 := by
  have hne : addrOf .clk 0 0x48 ≠ addrOf .log 0 0x12C := by decide
  have h : (badCounted d).cnts = (addCnt .clk 0 0x48 1 d).cnts := by
    simp only [badCounted, clkCnt, updClk, setF_cnts, setR_cnts]
    rfl
  rw [badWindow_view (g := fun d => cntAt d (addrOf .clk 0 0x48)) (declareFailure_cntAt hne), cntAt, h]
  exact cntAt_addCnt_same ..

end Sys2Proof.Machine
end

section
open Sys2Proof Sys2Proof.Machine Sys2Proof.Claims

/-- Settles O48: the end of a window is a good or a bad window on the module with its count stored; a good one goes with SRC, a bad one with
whether the window before was bad, and every register but those of the monitor is a view that neither changes. -/
theorem monitorWindowsCountStableRun : Obligations.MonitorWindowsCountStableRun := by
  refine ⟨?good, ?bad⟩
  case good =>
    intro s count hs hlo hhi
    have hw := windowEnd_good hs ⟨hlo, hhi⟩
    have hsrc : clkSrc (setR .clk 0 0xC count.toNat s.dev) = clkSrc s.dev := by simp [clkSrc, getF]
    have hf : getF (setR .clk 0 0xC count.toNat s.dev) .clk 0 0x10 0 16 = getF s.dev .clk 0 0x10 0 16 := by simp [getF]
    obtain ⟨hlog, hi3c, hbad⟩ := goodWindow_kept count.toNat (setR .clk 0 0xC count.toNat s.dev)
    refine ⟨{ s with dev := windowEnd count.toNat s.dev }, rfl, windowEnd_clockFrame _ s, ?_⟩
    rw [hw]
    refine ⟨hlog, hi3c, ?_, ?_, ?_, hbad, fun h => ⟨?_, ?_⟩, fun h => ?_⟩
    · rw [goodWindow_getR (by decide), goodCounted_monCount, getR_setR_same, BitVec.toNat_ofNat]
      omega
    · rw [goodWindow_getR (by decide), goodCounted_stableRun, hf]
    · rw [getF, goodWindow_getR (by decide), ← getF, goodCounted_refStable, hf]
    · exact goodWindow_hist (hsrc.trans h) _
    · exact goodWindow_dtInc (hsrc.trans h) _
    · rw [goodWindow_dtInc_kept (by rwa [hsrc]), getR_setR_off (by decide)]
  case bad =>
    intro s count hs hout
    have hw := windowEnd_bad hs hout
    have hsrc : clkSrc (badCounted (setR .clk 0 0xC count.toNat s.dev)) = clkSrc s.dev := by
      rw [clkSrc_badCounted]
      simp [clkSrc, getF]
    have hbad : (setR .clk 0 0xC count.toNat s.dev).clk.bad = s.dev.clk.bad := by rw [setR_clk]
    refine ⟨{ s with dev := windowEnd count.toNat s.dev }, rfl, windowEnd_clockFrame _ s, ?_⟩
    rw [hw]
    refine ⟨?_, ?_, ?_, ?_, ?_, ?_, fun h => ?_, fun h hon hseal hask => ?_⟩
    · rw [badWindow_getR (by decide) (by decide)]
      simp [badCounted]
    · rw [getF, badWindow_getR (by decide) (by decide), ← getF, badCounted_refStable]
    · exact badWindow_badWindowBit _
    · rw [badWindow_getR (by decide) (by decide)]
      simp [badCounted, clkCnt]
    · exact badWindow_bad _
    · exact badWindow_badWindows _
    · rw [badWindow_first (hbad.trans h)]
      rfl
    · rw [badWindow_again (hbad.trans h)]
      exact declareFailure_asks (by rwa [hsrc]) hseal hask
end

section
/-! SUPPORT. A tick of device time (R384) and what counts with it: views of the module that they leave alone, one lemma for each operation
that a tick is made of. -/

namespace Sys2Proof.Machine

/-- A view that a tick leaves alone: neither a count, nor an engine's error bits, nor the parts of the module that a tick moves enter it. -/
structure Unticked {β : Type} (g : Dev → β) : Prop where
  counted : ∀ (d : Dev) c, g { d with cnts := c } = g d
  erred : ∀ m b (d : Dev), g (meErr m b d) = g d
  moved : ∀ (d : Dev) t k p s x m e r, g { d with dt := t, clk := k, pow := p, memsys := s, rx := x, me := m, eng := e, rr := r } = g d

namespace Unticked

section
variable {β : Type} {g : Dev → β} (hg : Unticked g)
include hg

theorem addCnt (b : Blk) (i off n : Nat) (d : Dev) : g (addCnt b i off n d) = g d := hg.counted d _

theorem pmuEv (q e n : Nat) (b : EvBy) (a : EvAddr) (d : Dev) : g (pmuEv q e n b a d) = g d := pmuEv_keep g hg.counted q e n b a d

theorem pmuUc (q i n : Nat) (d : Dev) : g (pmuUc q i n d) = g d := pmuUc_keep g hg.counted q i n d

theorem hubUc (i n : Nat) (d : Dev) : g (hubUc i n d) = g d := hubUc_keep g hg.counted i n d

theorem updClk (f : ClkSt → ClkSt) (d : Dev) : g (updClk f d) = g d := hg.moved d d.dt _ d.pow d.memsys d.rx d.me d.eng d.rr

theorem updPow (f : PowSt → PowSt) (d : Dev) : g (updPow f d) = g d := hg.moved d d.dt d.clk _ d.memsys d.rx d.me d.eng d.rr

theorem updPort (n : Nat) (f : RxPort → RxPort) (d : Dev) : g (updPort n f d) = g d :=
  hg.moved d d.dt d.clk d.pow d.memsys _ d.me d.eng d.rr

theorem updMe (m : Nat) (f : MeSt → MeSt) (d : Dev) : g (updMe m f d) = g d := hg.moved d d.dt d.clk d.pow d.memsys d.rx _ d.eng d.rr

theorem updEng (e : Nat) (f : VisEng → VisEng) (d : Dev) : g (updEng e f d) = g d := hg.moved d d.dt d.clk d.pow d.memsys d.rx d.me _ d.rr

theorem arbitrate (kind idx n : Nat) (rs : List ArbReq) (d : Dev) : g (arbitrate kind idx n rs d).2 = g d := by
  rw [arbitrate_frame]
  exact hg.moved d d.dt d.clk d.pow d.memsys d.rx d.me d.eng _

/-! ### Receive buffers and transmit queues -/

theorem drainLink (q fuel n : Nat) (d : Dev) : g (drainLink q fuel n d) = g d := by
  induction fuel generalizing n d with
  | zero => rfl
  | succ fuel ih =>
    unfold Machine.drainLink
    split
    · rfl
    · dsimp only
      split
      · exact hg.arbitrate ..
      · split
        · exact hg.arbitrate ..
        · rw [ih, hg.hubUc, hg.updPort, hg.arbitrate]

theorem drainPorts (t : TickCount) (d : Dev) : g (drainPorts t d) = g d := foldl_keep g _ (fun d q => hg.drainLink q 64 _ d) _ d

theorem tickTx (t : TickCount) (d : Dev) : g (tickTx t d) = g d :=
  foldl_keep g _ (fun d _ => guardDev_keep g _ _ (fun d => hg.addCnt _ _ _ _ d) d) _ d

theorem tickHub (t : TickCount) (d : Dev) : g (tickHub t d) = g d :=
  (hg.hubUc _ _ _).trans (foldl_keep g _ (fun d _ => guardDev_keep g _ _ (fun d => hg.hubUc _ _ d) d) _ d)

/-! ### Quadrants -/

theorem tickDma (t : TickCount) (d : Dev) : g (tickDma t d) = g d :=
  (foldl_keep g _ (fun d _ => guardDev_keep g _ _ (fun d => hg.addCnt _ _ _ _ d) d) _ _).trans
    (foldl_keep g _ (fun d _ => (hg.pmuEv _ _ _ _ _ _).trans (hg.pmuUc _ _ _ d)) _ d)

theorem tickMem (t : TickCount) (d : Dev) : g (tickMem t d) = g d :=
  (foldl_keep g _ (fun d _ => hg.pmuUc _ _ _ d) _ _).trans
    (foldl_keep g _ (fun d _ => guardDev_keep g _ _ (fun d => hg.addCnt _ _ _ _ d) d) _ d)

theorem countMacs (m n : Nat) (d : Dev) : g (countMacs m n d) = g d := (hg.pmuEv _ _ _ _ _ _).trans (hg.updMe m _ d)

theorem meCnt (m i n : Nat) (d : Dev) : g (meCnt m i n d) = g d := hg.addCnt _ _ _ n d

theorem meEv (m e n : Nat) (a : EvAddr) (d : Dev) : g (meEv m e n a d) = g d := hg.pmuEv _ e n _ a d

theorem enterRows (m : Nat) (is : MeEnter → Bool) (d : Dev) : g (enterRows m is d) = g d := by
  refine foldl_keep g _ (fun d c => guardDev_keep g _ _ (fun d => ?_) d) _ d
  rw [hg.countMacs, guardDev_keep g _ _ (fun d => by rw [hg.erred, hg.meEv, hg.meCnt]), hg.meEv, hg.meEv, hg.meCnt, hg.meCnt, hg.updMe,
    updMeCtx, hg.updMe]

theorem tickMe (t : TickCount) (before d : Dev) : g (tickMe t before d) = g d := by
  refine foldl_keep g _ (fun d e => ?_) _ d
  rw [hg.updMe, guardDev_keep g _ _ (hg.meCnt _ _ _), hg.enterRows]

theorem visCnt (e i n : Nat) (d : Dev) : g (visCnt e i n d) = g d := by
  have hev : ∀ k d, g (visEv e k n d) = g d := fun k d => hg.pmuEv _ _ _ _ _ d
  unfold Machine.visCnt
  dsimp only
  split
  · rw [guardDev_keep g _ _ (hev 57), hg.addCnt]
  · rw [hev, hg.addCnt]
  · rw [guardDev_keep g _ _ (hev 59), hg.addCnt]
  · rw [hg.addCnt]

theorem countBusy (e upto : Nat) (d : Dev) : g (countBusy e upto d) = g d := by
  unfold Machine.countBusy
  split
  · rfl
  · exact guardDev_keep g _ _ (fun d => (hg.visCnt _ _ _ _).trans (hg.updEng e _ d)) d

theorem tickVis (t : TickCount) (d : Dev) : g (tickVis t d) = g d := by
  refine (foldl_keep g _ (fun d _ => hg.visCnt _ _ _ d) _ _).trans
    ((foldl_keep g _ (fun d _ => hg.pmuUc _ _ _ d) _ _).trans (foldl_keep g _ (fun d e => ?_) _ d))
  split
  · exact hg.countBusy e _ d
  · rfl

theorem tickIsp (t : TickCount) (d : Dev) : g (tickIsp t d) = g d :=
  foldl_keep g _ (fun d _ => (hg.pmuEv _ _ _ _ _ _).trans (hg.pmuUc _ _ _ d)) _ d

theorem tickDrv (t : TickCount) (d : Dev) : g (tickDrv t d) = g d :=
  foldl_keep g _ (fun d _ => (guardDev_keep g _ _ (fun d => hg.pmuEv _ _ _ _ _ d) _).trans
    (guardDev_keep g _ _ (fun d => hg.pmuUc _ _ _ d) d)) _ d

theorem tickShp (t : TickCount) (d : Dev) : g (tickShp t d) = g d :=
  (foldl_keep g _ (fun d _ => (hg.pmuUc _ _ _ _).trans (hg.pmuUc _ _ _ d)) _ _).trans
    (foldl_keep g _ (fun d _ => guardDev_keep g _ _ (fun d => hg.addCnt _ _ _ _ d) d) _ d)

theorem tickMx (t : TickCount) (d : Dev) : g (tickMx t d) = g d := foldl_keep g _ (fun d _ => hg.pmuEv _ _ _ _ _ d) _ d

theorem imbSample (q : Nat) (d : Dev) : g (imbSample q d) = g d := by
  unfold Machine.imbSample
  split <;> exact hg.moved d d.dt d.clk d.pow _ d.rx d.me d.eng d.rr

theorem tickDies (t : TickCount) (before d : Dev) : g (tickDies t before d) = g d := by
  unfold Machine.tickDies
  split
  · rfl
  · dsimp only
    rw [foldl_keep g _ (fun d _ => foldl_keep g _ (fun d q => hg.imbSample q d) _ d), hg.tickMx, hg.tickShp, hg.tickDrv, hg.tickIsp,
      hg.tickVis, hg.tickMe, hg.tickMem, hg.tickDma, hg.drainPorts]

/-! ### The tick -/

theorem dtTick (d : Dev) : g (dtTick d) = g d := by
  have moves : g (guardDev (reachesWake d.dt (dtNext d).1 d) (Machine.updPow (fun p => { p with timerDue := true }))
      (Machine.updClk (fun c => { c with frac := (dtNext d).2 }) { d with dt := (dtNext d).1 })) = g d := by
    rw [guardDev_keep g _ _ (hg.updPow _)]
    exact hg.moved d _ _ d.pow d.memsys d.rx d.me d.eng d.rr
  unfold Machine.dtTick
  split
  · rfl
  · dsimp only
    split
    · exact moves
    · rw [tickQuiet, hg.updPow, tickCores, guardDev_keep g _ _ (hg.updPow _), hg.tickDies, hg.tickHub, hg.tickTx, moves]

end

/-- A tick changes no register but the error bits of matrix engines (R281, R384). -/
theorem regRaw {a : Nat} (h : ∀ m, a ≠ addrOf .me m 0xC) : Unticked (fun d : Dev => regRaw d a) :=
  ⟨fun _ _ => rfl, fun m _ d => regRaw_setRaw_ne (h m) _ d, fun _ _ _ _ _ _ _ _ _ => rfl⟩

end Unticked

end Sys2Proof.Machine
end

section
/-! SUPPORT. A core's cycle that a device instruction takes (R300, R308): what its issue and its retirement leave alone, its effect on the
module with the cycle used, and its frame. -/

namespace Sys2Proof.Machine

/-! ### Issue and retirement -/

/-- A view that neither counts, registers nor the sampler enter. It may see what a decision of a Shepherd may change beside them and an
instruction may not: the end of IDLE, EVSUM's IBI and the traces, which no Untold view sees. -/
structure Unissued {β : Type} (g : Dev → β) : Prop where
  kept : ∀ (d : Dev) r c p, g { d with regs := r, cnts := c, pmu := p } = g d

namespace Unissued

section
variable {β : Type} {g : Dev → β} (hg : Unissued g)
include hg

theorem counted (d : Dev) (c : SMap (BitVec 48)) : g { d with cnts := c } = g d := hg.kept d d.regs c d.pmu

theorem addCnt (b : Blk) (i off n : Nat) (d : Dev) : g (addCnt b i off n d) = g d := hg.counted d _

theorem pmuEv (q e n : Nat) (b : EvBy) (a : EvAddr) (d : Dev) : g (pmuEv q e n b a d) = g d := pmuEv_keep g hg.counted q e n b a d

theorem pmuUc (q i n : Nat) (d : Dev) : g (pmuUc q i n d) = g d := pmuUc_keep g hg.counted q i n d

theorem orR (b : Blk) (i off m : Nat) (d : Dev) : g (orR b i off m d) = g d := hg.kept d _ d.cnts d.pmu

theorem updPmu (q : Nat) (f : PmuSt → PmuSt) (d : Dev) : g (updPmu q f d) = g d := hg.kept d d.regs d.cnts _

theorem sampleItem (q s key : Nat) (r : SampleRec) (d : Dev) : g (sampleItem q s key r d) = g d := by
  unfold Machine.sampleItem
  split
  · rfl
  · split
    · exact hg.orR ..
    · dsimp only
      split
      · exact hg.updPmu ..
      · split
        · rw [hg.addCnt, hg.updPmu]
        · exact hg.updPmu ..

theorem sampleStage (q s key k : Nat) (d : Dev) : g (sampleStage q s key k d) = g d := by
  unfold Machine.sampleStage sampleStageAt sampleUpd
  split
  · exact guardDev_keep g _ _ (hg.updPmu q _) d
  · rfl

theorem sampleEnd (q s key vx : Nat) (early : Bool) (d : Dev) : g (sampleEnd q s key vx early d) = g d := by
  unfold Machine.sampleEnd
  split
  · exact guardDev_keep g _ _ (hg.updPmu q _) d
  · rfl

theorem gcIssued (t w : Nat) (d : Dev) : g (gcIssued t w d) = g d := by
  rw [Machine.gcIssued, gcSample, hg.sampleItem, hg.addCnt, gcCnt, hg.addCnt]

theorem countParked (c : Nat) (d : Dev) : g (countParked c d) = g d := by
  refine foldl_keep g _ (fun d k => ?_) _ d
  dsimp only
  split
  · split
    · rw [hg.pmuEv, hg.pmuUc]
    · rw [hg.pmuUc]
  · rw [hg.pmuEv, hg.pmuUc]
  · rw [hg.pmuEv, hg.pmuUc]
  · rw [hg.pmuUc]

/-- A retirement changes, beside counts and the sampler, the thread's count of instructions. -/
theorem gcRetire (t vx : Nat) (d : Dev) :
    g (gcRetire t vx d) = g (updThread t (fun th => { th with instret := th.instret + 1 }) d) := by
  rw [Machine.gcRetire, hg.sampleEnd, hg.sampleStage, hg.pmuEv]

/-- An instruction done changes, beside counts and the sampler, its own thread. -/
theorem gcDone (t pc at_ now : Nat) (f : GcThread → GcThread) (d : Dev) :
    g (gcDone t pc at_ now f d)
      = g (updThread t (fun th => { th with instret := th.instret + 1 }) (updThread t (fun th => { (f th) with pc := pc, readyAt := at_ }) d)) :=
  hg.gcRetire ..

end

theorem getThread (t : Nat) : Unissued (fun d : Dev => getThread d t) := ⟨fun _ _ _ _ => rfl⟩

theorem dt : Unissued (fun d : Dev => d.dt) := ⟨fun _ _ _ _ => rfl⟩

end Unissued

theorem gcDone_thread (t pc at_ now : Nat) (f : GcThread → GcThread) (d : Dev) :
    getThread (gcDone t pc at_ now f d) t = Claims.gcNext (f (getThread d t)) pc at_ := by
  rw [(Unissued.getThread t).gcDone, getThread_updThread_same, getThread_updThread_same]
  rfl

theorem gcDone_other {t m : Nat} (h : m ≠ t) (pc at_ now : Nat) (f : GcThread → GcThread) (d : Dev) :
    getThread (gcDone t pc at_ now f d) m = getThread d m := by
  rw [(Unissued.getThread m).gcDone, getThread_updThread_ne h, getThread_updThread_ne h]

/-! ### A core's cycle (R300) -/

/-- A view that the cycle's own marks leave alone: the cores' caches and issue times and the pointer of R27. -/
structure Uncycled {β : Type} (g : Dev → β) : Prop extends Unissued g where
  cored : ∀ (d : Dev) c r, g { d with cores := c, rr := r } = g d

theorem Uncycled.gcAt {β : Type} {g : Dev → β} (hg : Uncycled g) (s : State) (c : Fin 256) (mx : Fin 10) (k w : Nat) :
    g (Claims.gcAt s c mx k w) = g s.dev := by
  have touch : ∀ line (d : Dev), g (icacheTouch c line d) = g d := by
    intro line d
    unfold icacheTouch
    split
    · exact hg.cored d _ d.rr
    · rfl
  have select : g (gcSelect c (mxAt s.dev mx) s.dev).2 = g s.dev := by
    unfold gcSelect
    dsimp only
    rw [arbitrate_frame]
    exact hg.cored s.dev s.dev.cores _
  rw [Claims.gcAt, hg.gcIssued, touch, gcCycle, hg.countParked]
  exact (hg.cored _ _ _).trans select

theorem Uncycled.getThread (t : Nat) : Uncycled (fun d : Dev => getThread d t) := ⟨Unissued.getThread t, fun _ _ _ => rfl⟩

theorem Uncycled.dt : Uncycled (fun d : Dev => d.dt) := ⟨Unissued.dt, fun _ _ _ => rfl⟩

/-- The module without the parts that an instruction on registers may change. -/
def unexecuted (d : Dev) : Dev := { d with regs := [], cnts := [], threads := [], cores := [], pmu := [], rr := [] }

theorem Uncycled.unexecuted : Uncycled unexecuted := ⟨⟨fun _ _ _ _ => rfl⟩, fun _ _ _ => rfl⟩

theorem unexecuted_updThread (t : Nat) (f : GcThread → GcThread) (d : Dev) : unexecuted (updThread t f d) = unexecuted d := rfl

theorem gcFrame_of_unexecuted {s : State} {e : Dev} {n : Nat} (hu : unexecuted e = unexecuted s.dev)
    (ht : ∀ m, m ≠ n → getThread e m = getThread s.dev m) : Claims.GcFrame s { s with dev := e } n := by
  refine ⟨?_, ht⟩
  have he : e = { unexecuted e with regs := e.regs, cnts := e.cnts, threads := e.threads, cores := e.cores, pmu := e.pmu, rr := e.rr } := rfl
  rw [hu] at he
  exact congrArg (fun x => { s with dev := x }) he

/-- In its turn a thread at the device instruction named executes it, on the module with the cycle used and the instruction counted. -/
theorem gcDeviceCycle_of_turn {s : State} {c : Fin 256} {mx : Fin 10} {k w : Nat} {o : DevOp} (hk : k < 16) (h : Claims.gcTurn s c mx k w 4)
    (ho : devOp w = some o) :
    gcDeviceCycle o c mx s.dev = gcDevice o (16 * c + k) w (mxAt s.dev mx) (Claims.gcAt s c mx k w) := by
  obtain ⟨hworks, hsel, hint, hfetch⟩ := h
  have hof : gcOf (16 * c + k) = c := by unfold gcOf; omega
  have hsel' : gcSelect c (mxAt s.dev mx) s.dev = (some k, (gcSelect c (mxAt s.dev mx) s.dev).2) := by rw [← hsel]
  unfold gcDeviceCycle
  simp only [hworks]
  rw [hsel']
  simp [hfetch, ho, hint, hof, Claims.gcAt]

/-- What an instruction that is done leaves of the module as it was before the cycle. -/
theorem gcDone_gcFrame (s : State) (c : Fin 256) (mx : Fin 10) (k w pc at_ now : Nat) (f : GcThread → GcThread) :
    Claims.GcFrame s { s with dev := gcDone (16 * c + k) pc at_ now f (Claims.gcAt s c mx k w) } (16 * c + k) := by
  refine gcFrame_of_unexecuted ?_ fun m hm => (gcDone_other hm ..).trans ((Uncycled.getThread m).gcAt ..)
  rw [Uncycled.unexecuted.gcDone, unexecuted_updThread, unexecuted_updThread, Uncycled.unexecuted.gcAt]

end Sys2Proof.Machine
end

section
/-! SUPPORT. Reads of DT_LO and DT_HI (R386): which reads reach them, what they return, and what they latch. -/

namespace Sys2Proof.Machine

theorem viewReg_dtLo (f : FuseSt) (d : Dev) (rd : Reader) : viewReg f d rd (addrOf .clk 0 0x20) = BitVec.ofNat 32 d.dt := by
  have hl : locate (addrOf .clk 0 0x20) = some ⟨.clk, 0, 0x20⟩ := by decide
  have he : (entryAt (addrOf .clk 0 0x20)).isSome = true := by decide
  obtain ⟨e, he⟩ := Option.isSome_iff_exists.1 he
  simp only [viewReg, hl, he, viewClk]
  rfl

theorem viewReg_dtHi (f : FuseSt) (d : Dev) (rd : Reader) : viewReg f d rd (addrOf .clk 0 0x24) = getR d .clk 0 0x24 := by
  have hl : locate (addrOf .clk 0 0x24) = some ⟨.clk, 0, 0x24⟩ := by decide
  have he : (entryAt (addrOf .clk 0 0x24)).map (·.1.counter) = some false := by decide
  obtain ⟨e, he, hc⟩ := Option.map_eq_some_iff.1 he
  simp [viewReg, hl, he, hc, viewClk, getR]

theorem readReaches_of {d : Dev} {r : ReadBy} {a : Nat} (hub : d.pow.hubUp = true) (hdbg : r = .debug → debugReaches d a = true) :
    readReaches d (readerOf r) a = true := by
  cases r with
  | debug => simp [readReaches, readerOf, hub, hdbg rfl]
  | i3c => simp [readReaches, readerOf, hub]
  | firmware => simp [readReaches, readerOf, hub]
  | thread => simp [readReaches, readerOf, hub]

theorem readLatch_dtLo (rd : Reader) (d : Dev) : readLatch rd (addrOf .clk 0 0x20) d = setR .clk 0 0x24 (d.dt / 2 ^ 32) d := by
  have hl : locate (addrOf .clk 0 0x20) = some ⟨.clk, 0, 0x20⟩ := by decide
  simp [readLatch, hl]

end Sys2Proof.Machine
end

section
open Sys2Proof Sys2Proof.Machine Sys2Proof.Claims

/-- Settles O56: a read of DT_LO stores DT_HI alone; DT_HI is none of the registers that a tick writes, so it stays as DT advances; and TBR
reads the DT on the module with its cycle used, which has the DT from before. -/
theorem deviceTimeReadsAsOneValue : Obligations.DeviceTimeReadsAsOneValue := by
  refine ⟨?latch, ?tick, ?tbr⟩
  case latch =>
    intro s r a hub hdbg ha
    have hlo : latchedLo (addrOf .clk 0 0x20) = true := by decide
    have hdev : execLatchedPairRead r a s = .next { s with dev := setR .clk 0 0x24 (s.dev.dt / 2 ^ 32) s.dev } := by
      rw [execLatchedPairRead, onDev, readReaches_of hub hdbg, ha, hlo, Bool.and_true, guardDev_true, readLatch_dtLo]
    refine ⟨_, hdev, rfl, fun b hb => regRaw_setRaw_ne (by simpa using hb) .., ?_, ?_⟩
    · rw [ha, viewReg_dtLo, BitVec.toNat_ofNat]
    · rw [viewReg_dtHi, getR_setR_same, BitVec.toNat_ofNat]
  case tick =>
    intro s r
    refine ⟨{ s with dev := dtTick s.dev }, rfl, ?_⟩
    rw [viewReg_dtHi, viewReg_dtHi]
    exact (Unticked.regRaw fun m => by simp only [addrOf]; omega).dtTick s.dev
  case tbr =>
    intro s g mx k w hk hturn hop hrd
    have hdt : (gcAt s g mx k w).dt = s.dev.dt := Uncycled.dt.gcAt s g mx k w
    have hexec : execGcTbr g mx s = .next { s with dev := gcTbr (16 * g + k) w (mxAt s.dev mx) (gcAt s g mx k w) } := by
      rw [execGcTbr, onDev, gcDeviceCycle_of_turn hk hturn hop]
      rfl
    refine ⟨_, hexec, gcDone_gcFrame .., ?_⟩
    rw [gcTbr, gcDone_thread, hdt]
    exact (GcThread.reg_setReg _ _ _ _ hrd).trans (if_pos rfl)
end
